-- ==== Sys2Proof/Word.lean ====
section
/-! DEFINITION. The widths of the block's data: bytes, 64-bit register and command words, byte strings (00_scope.md R6). -/

namespace Sys2Proof

/-- One byte of memory or of a packet body. -/
abbrev Byte := BitVec 8

/-- One 64-bit register, command word or message word (00 R6, R9). -/
abbrev Word := BitVec 64

/-- A little-endian byte string (00 R6). -/
abbrev Bytes := List Byte

end Sys2Proof
end

