-- ==== Sys2Proof/Syntax.lean ====
section
/-! DEFINITION. The commands the block takes from outside, one constructor of Instr per row of spec/opcode_table.json, and the data they carry. -/

namespace Sys2Proof

/-- Route of a register access (17 R435, R436): the host port on a traffic class, forwarded control, or the management controller. -/
inductive Source where
  | host (tc : Nat)
  | forwarded
  | controller
deriving DecidableEq, Repr

/-- How a queue control reaches the block (03 R57, R74, R78): a write of CMD_Qj_CTRL with this one action, or a CTRL message, with its header words and its body, whose control word may name any actions or none. -/
inductive CtrlRoute where
  | register
  | message (w0 w1 : Word) (body : List Word)
deriving DecidableEq, Repr

/-- A RESTART and the queue it is for (03 R78). -/
structure Restart where
  route : CtrlRoute
  queue : Nat
deriving DecidableEq, Repr

/-- Outcome a stack reports with a read (08 R234), and of the codewords a flit came in (10 R275). -/
inductive Ecc where
  | good
  | corrected
  | uncorrectable
deriving DecidableEq, Repr

/-- A read of a memory that finds what it reads good or in error: of a stack, under a tag (08 R234); of a 16-bit group of a line of near memory, named by its vault, set and line of the set, which parity checks (08 R228); of the i-th entry of the victim buffer or of the prefetch buffer (08 R217). -/
inductive MemRead where
  | far (tag : Nat)
  | near (core set line group : Nat)
  | victim (i : Nat)
  | prefetch (i : Nat)
deriving DecidableEq, Repr

/-- How a completion of a host read ends (11 R303): data, UR, CA, poisoned, or a wrong length. -/
inductive CplStatus where
  | success
  | unsupported
  | abort
  | poisoned
  | badLength
deriving DecidableEq, Repr

/-- A Nerrad packet: the header of 10 Table 10.5 and its body bytes. -/
structure Packet where
  dest : Nat
  src : Nat
  cls : Nat
  lenM1 : Nat
  kind : Nat
  jobId : Nat
  gen : Nat
  escaped : Bool
  bodyBytes : Nat
  eseq : Nat
  body : Bytes
deriving DecidableEq, Repr

/-- What a peer sends at training step 5 (10 R272). -/
structure PartnerId where
  block : Nat
  xc : Nat
  yc : Nat
  zc : Nat
  xd : Nat
  yd : Nat
  zd : Nat
  port : Nat
  family : Nat
  major : Nat
  txGood : Nat
  rxGood : Nat
deriving DecidableEq, Repr

/-- An event of a port in training (10 Table 10.2). -/
inductive TrainEvent where
  | stepDone (n : Nat)
  | stepFailed (n : Nat)
  | goodLanes (tx rx : Nat)
  | identity (id : PartnerId)
deriving DecidableEq, Repr

/-- Why a port enters RETRAIN (10 R286; a written RETRAIN is a command of its own). -/
inductive RetrainCause where
  | lockLoss
  | uncorrectable
  | repeatedNak
  | silence
  | partner
deriving DecidableEq, Repr

/-- Why the host is lost (11 R310; a retrain past its limit is a command of its own). -/
inductive HostLossCause where
  | resetPin
  | hotReset
  | linkDisable
  | untrained
deriving DecidableEq, Repr

/-- Why the compute partner is lost (12 R321). -/
inductive CptLossCause where
  | resetPin
  | noModule
deriving DecidableEq, Repr

/-- A breach of the host side without a row of its own (11 Table 11.7). A non-posted request whose header is readable bears its traffic class. -/
inductive BadRequest where
  | badTlp (tc : Option Nat)
  | unsupported (tc : Option Nat)
  | poisoned
  | unexpectedCpl
  | creditOverrun
deriving DecidableEq, Repr

/-- A wake event in NAP (13 R357). -/
inductive NapWake where
  | cptMessage
  | cptL1Exit
  | hostRequest
  | packet
  | latency
  | apply
deriving DecidableEq, Repr

/-- The straps sampled when a release of BLK_RST_N takes effect (12 Table 12.5): as pins, where a size pin of n stands for n + 1; State holds them with the sizes themselves. -/
structure Straps where
  xc : Nat
  yc : Nat
  zc : Nat
  xd : Nat
  yd : Nat
  zd : Nat
  host : Bool
deriving DecidableEq, Repr

/-- What the training of an HBM port finds (08 Table 8.6): the stack's capacity in GiB and its speed bin in tenths of Gb/s (step 2); for each group of lanes with a fault, the faulty lanes and the faulty spares among them (step 3), data groups and command and address groups apart; and whether timing trains at 8.0 and at 6.4 Gb/s (steps 5 and 6). -/
structure HbmFind where
  capacity : Nat
  bin : Nat
  faulty : List (Nat × Nat)
  faultyCmd : List (Nat × Nat)
  at80 : Bool
  at64 : Bool
deriving DecidableEq, Repr

/-- What a bring-up stage finds in the surroundings (15 Table 15.2): the outcome of its tests and trainings. A retired line is named by vault * 131072 + set, and its line; a dead set by its vault and set. -/
structure StageResult where
  elapsedUs : Nat
  supplyOk : Nat
  vinMv : Nat
  hbm : List HbmFind
  stackIds : List Word
  selfTestFailed : List Nat
  farMiscompare : Nat
  farMiscompares : Nat
  nearRetired : List (Nat × Nat)
  nearDead : List (Nat × Nat)
deriving DecidableEq, Repr

/-- An IEEE 1687 instrument (15 Table 15.5). -/
inductive Instrument where
  | tempRead
  | paceRead
  | repairRead
  | surveyRead
  | eyeScan
  | prbs
  | loopback
  | memBist
  | scan
deriving DecidableEq, Repr

/-- A port an instrument names (15 Table 15.5): compute module, host, HBM or peer port. -/
inductive PortName where
  | compute (m : Nat)
  | host
  | hbm (k : Nat)
  | peer (k : Nat)
deriving DecidableEq, Repr

/-- One command of the block: one constructor per row of spec/opcode_table.json, in its order. Queue, slot, port, core and similar operands are numbers, bounded by WellFormed. -/
inductive Instr where
  | nop
  | lkPool
  | gsScatter
  | meridian
  | gzDefine
  | gzSwitch
  | gzDrop
  | gzRowmode
  | gzRowput
  | memCopy
  | rowExport
  | rowImport
  | cmdMessage (w0 w1 : Word) (body : List Word)
  | dataMessage (w0 w1 : Word) (body : List Word)
  | creditMessage (w0 w1 : Word) (body : List Word)
  | opIssue
  | opComplete
  | resultBankWait
  | portTimeout (queue : Nat)
  | streamGap (queue : Nat)
  | abort (route : CtrlRoute) (queue seq : Nat)
  | stop (route : CtrlRoute) (queue : Nat)
  | restart (r : Restart)
  | tagGrant (service : Bool)
  | tileDispatch
  | rowReq (port : Nat) (p : Packet)
  | partReq (port : Nat) (p : Packet)
  | rowRsp (port : Nat) (p : Packet)
  | partRsp (port : Nat) (p : Packet)
  | farReadComplete (r : MemRead) (ecc : Ecc)
  | error (port : Nat) (p : Packet)
  | winRead (port : Nat) (p : Packet)
  | winWrite (port : Nat) (p : Packet)
  | winData (port : Nat) (p : Packet)
  | winAck (port : Nat) (p : Packet)
  | gradRec (port : Nat) (p : Packet)
  | packetForward (port : Nat) (p : Packet)
  | addHoldExpire (port : Nat)
  | mark1 (port : Nat) (p : Packet)
  | mark2 (port : Nat) (p : Packet)
  | meridianPhase1End (slot : Nat)
  | meridianBegin (slot : Nat)
  | updateWriteAck (ledgerSlot : Nat)
  | meridianComplete (slot : Nat)
  | refresh (port : Nat) (p : Packet)
  | refreshMark (port : Nat) (p : Packet)
  | withdraw (port : Nat) (p : Packet)
  | purge (port : Nat) (p : Packet)
  | ack (port : Nat) (p : Packet)
  | orderedAckTimer (src cls : Nat)
  | release (port : Nat) (p : Packet)
  | versionRelease (slot table version : Nat)
  | handoff (port : Nat) (p : Packet)
  | handoffTimeout (port : Nat)
  | migStart
  | migCancel
  | migData (port : Nat) (p : Packet)
  | migAck (port : Nat) (p : Packet)
  | migReady (port : Nat) (p : Packet)
  | query (port : Nat) (p : Packet)
  | reply (port : Nat) (p : Packet)
  | set (port : Nat) (p : Packet)
  | regRead (port : Nat) (p : Packet)
  | regWrite (port : Nat) (p : Packet)
  | regRsp (port : Nat) (p : Packet)
  | fwdTimeout (reqId : Nat)
  | event (port : Nat) (p : Packet)
  | eventRepeat
  | flitReceive (port : Nat) (hdr : Word) (payload : Bytes) (crc : Nat) (codeword : Ecc)
  | linkAckTimer (port : Nat)
  | linkStateRecord (port block rport state width version : Nat)
  | compassInstall
  | compassGenExpire (gen : Nat)
  | lostTimeout (block : Nat)
  | portTrainingStep (port : Nat) (ev : TrainEvent)
  | portRetrainTrigger (port : Nat) (cause : RetrainCause)
  | fastRetrainEnd (port txGood rxGood : Nat)
  | bgRetrain (port : Nat)
  | lnkRetrain (port : Nat)
  | lnkDisable (port : Nat)
  | lnkEnable (port : Nat)
  | tlbWalk (client ctx va : Nat) (write win : Bool)
  | fqRetry (slot gen : Nat)
  | fqFatal (slot gen : Nat)
  | faultTimeout (slot : Nat)
  | invContext (ctx : Nat) (all : Bool) (seq : Nat)
  | invRange (ctx : Nat) (win : Bool) (seq : Nat)
  | invComplete
  | rootWrite (win : Bool) (index : Nat) (value : Word)
  | load
  | unload
  | discardLedger
  | hotDecay
  | contourDecay
  | pinLoad (region : Nat)
  | hbmPortFailed (k : Nat) (crcRetries : Bool)
  | hostMgmtRequest (tc : Nat) (write : Bool) (addr width : Nat) (value : Word)
  | hostWindowRequest (tc : Nat) (write : Bool) (addr len : Nat) (data : Bytes)
  | remoteTimeout (tag : Nat)
  | hstWinCfgWrite (value : Word)
  | hostCompletion (tag : Nat) (status : CplStatus) (data : Bytes)
  | cplTimeout (tag : Nat)
  | hostPortRetrain
  | hstRetrain
  | hostRetrainDone
  | retrainLimit
  | hostLost (cause : HostLossCause)
  | hstRstRelease
  | hostModuleTrained
  | resume
  | cptModuleDetect (m : Nat)
  | cptModuleUp (m : Nat)
  | cptModuleExclude (m : Nat)
  | cptModuleDown (m : Nat)
  | cptPartnerLost (cause : CptLossCause)
  | cptPrstRelease
  | retrainMask (mask : Nat)
  | pwrGoodFall
  | pwrGoodRise
  | blkRstAssert
  | blkRstRelease (straps : Straps)
  | clockLoss (clock : Nat)
  | clockRecover (clock : Nat)
  | thermalLoop (baseDie : List Int)
  | powerLoop (watts : Nat)
  | fastLimit (amps : Nat)
  | paceMeter (counts : List Nat)
  | railFault (supply : Nat)
  | thermalTrip
  | thermalTripExit
  | pwrLatencyWrite (value : Word)
  | napEntry
  | napWake (ev : NapWake)
  | deepEntry
  | deepHandoffTimeout (port : Nat)
  | deepWake (comparator : Nat)
  | coreFence (core cause : Nat)
  | engineStall (core : Nat)
  | fenceCoreCmd (core : Nat)
  | clusterReset (cluster : Nat) (fabricError : Bool)
  | partitionReset (partition : Nat)
  | spareSelftestDone (position : Nat) (pass : Bool)
  | resetScopeEnd (failed : List Nat)
  | stageEnd (r : StageResult)
  | fullNext
  | clearField
  | check
  | apply
  | applyCommit
  | discard
  | update
  | fwUpdateDone
  | snap
  | snapComplete
  | cntPmselWrite (counter : Nat) (value : Word)
  | cntFlagSumWrite (value : Word)
  | debugEn (on : Bool)
  | capture
  | captureDone
  | nmRead
  | regAccessWrite (src : Source) (offset width : Nat) (value : Word)
  | badMessage (w0 w1 : Word) (body : List Word)
  | unsupportedRequest (req : BadRequest) (addr : Nat) (header : Word)
  | registerRead (src : Source) (offset width : Nat)
  | vinRise
  | vinRemoval
  | temperatureReading (sensor : Nat) (celsius : Int)
  | instrumentAccess (inst : Instrument) (port : PortName) (position : Nat) (changesLanes : Bool)
deriving DecidableEq, Repr

end Sys2Proof
end

