-- ==== Sys2Proof/Machine/Bits.lean ====
section
/-! DEFINITION. Bit fields, little-endian bytes, checksums and keyed lists that every other file of the machine uses (00 R6). -/

namespace Sys2Proof.Machine

/-- Bits [lo+n-1:lo] of a natural number. -/
def bits (v lo n : Nat) : Nat := (v >>> lo) % 2 ^ n

/-- Bits [lo+n-1:lo] of a register or command word. -/
def wbits (w : Word) (lo n : Nat) : Nat := bits w.toNat lo n

/-- One bit of a word. -/
def wbit (w : Word) (i : Nat) : Bool := wbits w i 1 == 1

/-- A word with bits [lo+n-1:lo] replaced by v. -/
def wset (w : Word) (lo n v : Nat) : Word :=
  BitVec.ofNat 64 (w.toNat - (bits w.toNat lo n) <<< lo + (v % 2 ^ n) <<< lo)

/-- A word from a natural number, modulo 2^64. -/
def word (v : Nat) : Word := BitVec.ofNat 64 v

/-- v placed at bit lo, in a field of n bits. -/
def fld (lo n v : Nat) : Nat := (v % 2 ^ n) <<< lo

def natOfBool (b : Bool) : Nat := if b then 1 else 0

/-- Bit i of a natural number used as a mask. -/
def maskBit (m i : Nat) : Bool := bits m i 1 == 1

def maskSet (m i : Nat) : Nat := m ||| (1 <<< i)

def maskClear (m i : Nat) : Nat := if maskBit m i then m - (1 <<< i) else m

/-- Ones of a mask below n. -/
def maskCount (n m : Nat) : Nat := ((List.range n).filter (maskBit m)).length

/-- Positions below n whose bit is set, ascending. -/
def maskList (n m : Nat) : List Nat := (List.range n).filter (maskBit m)

/-- v read as a two's-complement number of n bits. -/
def signed (n v : Nat) : Int :=
  let u := v % 2 ^ n
  if 2 ^ (n - 1) ≤ u then (u : Int) - (2 ^ n : Nat) else u

/-- The two's-complement pattern of n bits of an integer. -/
def pattern (n : Nat) (v : Int) : Nat := (v % ((2 ^ n : Nat) : Int)).toNat

def ceilDiv (a b : Nat) : Nat := (a + b - 1) / b

def roundUp (a b : Nat) : Nat := ceilDiv a b * b

/-- The value of a little-endian byte string. -/
def leNat : Bytes → Nat
  | [] => 0
  | b :: r => b.toNat + 256 * leNat r

/-- The n bytes of a number, least significant first. -/
def leBytes : Nat → Nat → Bytes
  | 0, _ => []
  | n + 1, v => BitVec.ofNat 8 v :: leBytes n (v / 256)

/-- The bytes of a list of 64-bit words, in order. -/
def wordsBytes (ws : List Word) : Bytes := (ws.map fun w => leBytes 8 w.toNat).flatten

/-- n bytes of zero. -/
def zeros (n : Nat) : Bytes := List.replicate n 0

/-- Bytes [off, off+n) of a string, short where the string ends. -/
def slice (b : Bytes) (off n : Nat) : Bytes := (b.drop off).take n

/-- The little-endian number in bytes [off, off+n). -/
def leAt (b : Bytes) (off n : Nat) : Nat := leNat (slice b off n)

/-- A byte string padded with zeros to a length. -/
def padTo (n : Nat) (b : Bytes) : Bytes := b ++ zeros (n - b.length)

/-- A byte string cut into pieces of n bytes; the fuel bounds the number of pieces. -/
def chunksAux (n : Nat) : Nat → Bytes → List Bytes
  | 0, _ => []
  | f + 1, b => if b.isEmpty then [] else b.take n :: chunksAux n f (b.drop n)

def chunks (n : Nat) (b : Bytes) : List Bytes := chunksAux n (b.length) b

/-- The 64-bit words of a byte string. -/
def bytesWords (b : Bytes) : List Word := (chunks 8 b).map fun c => word (leNat c)

/-- One bit of the reflected CRC-32 of IEEE 802.3. -/
def crcBit (c : Nat) : Nat := if c % 2 == 1 then (c / 2) ^^^ 0xEDB88320 else c / 2

def crcByte (c : Nat) (b : Byte) : Nat :=
  crcBit (crcBit (crcBit (crcBit (crcBit (crcBit (crcBit (crcBit (c ^^^ b.toNat))))))))

/-- CRC-32 with the IEEE 802.3 polynomial, in that standard's bit order, initial value and final complement (02 Table 2.1, 03 Table 3.8; DEDUCED, log 37). -/
def crc32 (b : Bytes) : Nat := (b.foldl crcByte 0xFFFFFFFF) ^^^ 0xFFFFFFFF

/-- The mixing function of 02 R37. -/
def mix (x : Nat) : Nat :=
  let x := x ^^^ (x >>> 31)
  let x := (x * 0x9F2B61C5D48EA7B3) % 2 ^ 64
  let x := x ^^^ (x >>> 29)
  let x := (x * 0x6C1DF0A935E74B29) % 2 ^ 64
  x ^^^ (x >>> 32)

/-- v held below 2^n - 1 (a saturating count). -/
def sat (n v : Nat) : Nat := min v (2 ^ n - 1)

/-! Keyed lists: keys strictly ascending, so that equal contents are equal lists. -/

def mfind {α : Type} (k : Nat) : List (Nat × α) → Option α
  | [] => none
  | (k', v) :: r => if k' < k then mfind k r else if k' = k then some v else none

def mput {α : Type} (k : Nat) (v : α) : List (Nat × α) → List (Nat × α)
  | [] => [(k, v)]
  | (k', v') :: r =>
    if k' < k then (k', v') :: mput k v r
    else if k' = k then (k, v) :: r
    else (k, v) :: (k', v') :: r

def mdel {α : Type} (k : Nat) : List (Nat × α) → List (Nat × α)
  | [] => []
  | (k', v') :: r =>
    if k' < k then (k', v') :: mdel k r
    else if k' = k then r
    else (k', v') :: r

/-- The value at a key, or a default. -/
def mgetD {α : Type} (k : Nat) (d : α) (m : List (Nat × α)) : α := (mfind k m).getD d

/-- Write v at k, keeping no entry equal to the default d. -/
def mputD {α : Type} [DecidableEq α] (k : Nat) (v d : α) (m : List (Nat × α)) : List (Nat × α) :=
  if v = d then mdel k m else mput k v m

/-- Insert in ascending order of a key, keeping earlier equals first. -/
def insertBy {α : Type} (key : α → Nat) (x : α) : List α → List α
  | [] => [x]
  | y :: r => if key x < key y then x :: y :: r else y :: insertBy key x r

def sortBy {α : Type} (key : α → Nat) (l : List α) : List α := l.foldl (fun acc x => insertBy key x acc) []

/-- Distinct members of a list, first occurrences kept. -/
def nub {α : Type} [BEq α] : List α → List α
  | [] => []
  | x :: r => x :: (nub r).filter (fun y => !(y == x))

/-- Replace the members of a list that satisfy p. -/
def updWhere {α : Type} (p : α → Bool) (f : α → α) (l : List α) : List α := l.map fun x => if p x then f x else x

/-- Index of the first member that satisfies p. -/
def findIdx {α : Type} (p : α → Bool) : List α → Option Nat
  | [] => none
  | x :: r => if p x then some 0 else (findIdx p r).map (· + 1)

def sumNat (l : List Nat) : Nat := l.foldl (· + ·) 0

def sumInt (l : List Int) : Int := l.foldl (· + ·) 0

/-- Largest of a list, or a default where it is empty. -/
def maxNat (d : Nat) (l : List Nat) : Nat := l.foldl max d

/-- Smallest n below a bound with p n. -/
def firstBelow (p : Nat → Bool) (n : Nat) : Option Nat := (List.range n).find? p

/-- Lowest number not in a list. -/
def lowestFree (used : List Nat) : Nat := (firstBelow (fun i => !used.contains i) (used.length + 1)).getD 0

end Sys2Proof.Machine
end

