-- ==== Sys2Proof/Machine/Aes.lean ====
section
/-! DEFINITION. AES with 256-bit keys and its XTS mode over one 64-byte line (09 R249 to R251; the cipher itself from FIPS 197 and IEEE 1619, PRESUMED, log 19). -/

namespace Sys2Proof.Machine

/-- The substitution table of FIPS 197, by rows of 16. -/
def aesRows : List (List Nat) := [
  [0x63, 0x7C, 0x77, 0x7B, 0xF2, 0x6B, 0x6F, 0xC5, 0x30, 0x01, 0x67, 0x2B, 0xFE, 0xD7, 0xAB, 0x76],
  [0xCA, 0x82, 0xC9, 0x7D, 0xFA, 0x59, 0x47, 0xF0, 0xAD, 0xD4, 0xA2, 0xAF, 0x9C, 0xA4, 0x72, 0xC0],
  [0xB7, 0xFD, 0x93, 0x26, 0x36, 0x3F, 0xF7, 0xCC, 0x34, 0xA5, 0xE5, 0xF1, 0x71, 0xD8, 0x31, 0x15],
  [0x04, 0xC7, 0x23, 0xC3, 0x18, 0x96, 0x05, 0x9A, 0x07, 0x12, 0x80, 0xE2, 0xEB, 0x27, 0xB2, 0x75],
  [0x09, 0x83, 0x2C, 0x1A, 0x1B, 0x6E, 0x5A, 0xA0, 0x52, 0x3B, 0xD6, 0xB3, 0x29, 0xE3, 0x2F, 0x84],
  [0x53, 0xD1, 0x00, 0xED, 0x20, 0xFC, 0xB1, 0x5B, 0x6A, 0xCB, 0xBE, 0x39, 0x4A, 0x4C, 0x58, 0xCF],
  [0xD0, 0xEF, 0xAA, 0xFB, 0x43, 0x4D, 0x33, 0x85, 0x45, 0xF9, 0x02, 0x7F, 0x50, 0x3C, 0x9F, 0xA8],
  [0x51, 0xA3, 0x40, 0x8F, 0x92, 0x9D, 0x38, 0xF5, 0xBC, 0xB6, 0xDA, 0x21, 0x10, 0xFF, 0xF3, 0xD2],
  [0xCD, 0x0C, 0x13, 0xEC, 0x5F, 0x97, 0x44, 0x17, 0xC4, 0xA7, 0x7E, 0x3D, 0x64, 0x5D, 0x19, 0x73],
  [0x60, 0x81, 0x4F, 0xDC, 0x22, 0x2A, 0x90, 0x88, 0x46, 0xEE, 0xB8, 0x14, 0xDE, 0x5E, 0x0B, 0xDB],
  [0xE0, 0x32, 0x3A, 0x0A, 0x49, 0x06, 0x24, 0x5C, 0xC2, 0xD3, 0xAC, 0x62, 0x91, 0x95, 0xE4, 0x79],
  [0xE7, 0xC8, 0x37, 0x6D, 0x8D, 0xD5, 0x4E, 0xA9, 0x6C, 0x56, 0xF4, 0xEA, 0x65, 0x7A, 0xAE, 0x08],
  [0xBA, 0x78, 0x25, 0x2E, 0x1C, 0xA6, 0xB4, 0xC6, 0xE8, 0xDD, 0x74, 0x1F, 0x4B, 0xBD, 0x8B, 0x8A],
  [0x70, 0x3E, 0xB5, 0x66, 0x48, 0x03, 0xF6, 0x0E, 0x61, 0x35, 0x57, 0xB9, 0x86, 0xC1, 0x1D, 0x9E],
  [0xE1, 0xF8, 0x98, 0x11, 0x69, 0xD9, 0x8E, 0x94, 0x9B, 0x1E, 0x87, 0xE9, 0xCE, 0x55, 0x28, 0xDF],
  [0x8C, 0xA1, 0x89, 0x0D, 0xBF, 0xE6, 0x42, 0x68, 0x41, 0x99, 0x2D, 0x0F, 0xB0, 0x54, 0xBB, 0x16]]

def aesSub (b : Nat) : Nat := (aesRows.getD (b / 16 % 16) []).getD (b % 16) 0

/-- Product with x in the field of FIPS 197. -/
def aesX (b : Nat) : Nat := if b < 128 then 2 * b else (2 * b % 256) ^^^ 0x1B

def xorBytes (a b : List Nat) : List Nat := (a.zip b).map fun x => x.1 ^^^ x.2

def aesRot : List Nat → List Nat
  | [] => []
  | x :: r => r ++ [x]

/-- Round constant i. -/
def aesRcon : Nat → Nat
  | 0 => 0x8D
  | i + 1 => aesX (aesRcon i)

/-- The words of the key schedule, built one at a time. -/
def aesExpand : Nat → List (List Nat) → List (List Nat)
  | 0, ws => ws
  | f + 1, ws =>
    let i := ws.length
    let t := ws.getD (i - 1) []
    let t := if i % 8 == 0 then xorBytes ((aesRot t).map aesSub) [aesRcon (i / 8), 0, 0, 0] else if i % 8 == 4 then t.map aesSub else t
    aesExpand f (ws ++ [xorBytes (ws.getD (i - 8) []) t])

/-- The 15 round keys of a 32-byte key. -/
def aesKeys (key : List Nat) : List (List Nat) :=
  let ws := aesExpand 52 ((List.range 8).map fun i => (key.drop (4 * i)).take 4)
  (List.range 15).map fun r => ((ws.drop (4 * r)).take 4).flatten

def aesShift (b : List Nat) : List Nat := (List.range 16).map fun i => b.getD ((i + 4 * (i % 4)) % 16) 0

def aesMixCol : List Nat → List Nat
  | [a, b, c, d] =>
    let t := a ^^^ b ^^^ c ^^^ d
    [a ^^^ t ^^^ aesX (a ^^^ b), b ^^^ t ^^^ aesX (b ^^^ c), c ^^^ t ^^^ aesX (c ^^^ d), d ^^^ t ^^^ aesX (d ^^^ a)]
  | l => l

def aesMix (b : List Nat) : List Nat := (List.range 4).flatMap fun c => aesMixCol ((b.drop (4 * c)).take 4)

/-- The rounds after the first key addition; the last one mixes no columns. -/
def aesRounds : List (List Nat) → List Nat → List Nat
  | [], b => b
  | [k], b => xorBytes (aesShift (b.map aesSub)) k
  | k :: r, b => aesRounds r (xorBytes (aesMix (aesShift (b.map aesSub))) k)

/-- AES-256 encryption of 16 bytes. -/
def aes256 (key block : List Nat) : List Nat :=
  match aesKeys key with
  | k :: r => aesRounds r (xorBytes block k)
  | [] => block

/-- The inverse of the substitution table. -/
def aesUnsub (b : Nat) : Nat := (aesRows.flatten.findIdx? fun x => x == b).getD 0

def aesUnshift (b : List Nat) : List Nat := (List.range 16).map fun i => b.getD ((i + 12 * (i % 4)) % 16) 0

/-- Mixing a column four times gives it back: three more undo one. -/
def aesUnmix (b : List Nat) : List Nat := aesMix (aesMix (aesMix b))

/-- The rounds backwards, from the last round key. -/
def aesUnrounds : List (List Nat) → List Nat → List Nat
  | [], b => b
  | [k], b => xorBytes b k
  | k :: r, b => let c := xorBytes b k; aesUnrounds r ((aesUnshift (if r.length == 14 then c else aesUnmix c)).map aesUnsub)

/-- AES-256 decryption of 16 bytes. -/
def aes256Inv (key block : List Nat) : List Nat := aesUnrounds (aesKeys key).reverse block

def natBytes (n v : Nat) : List Nat := (leBytes n v).map BitVec.toNat

def bytesNat (b : List Nat) : Nat := leNat (b.map (BitVec.ofNat 8))

/-- Key1 and Key2 of a 512-bit key. -/
def key1 (k : Nat) : Nat := k % 2 ^ 256
def key2 (k : Nat) : Nat := k / 2 ^ 256 % 2 ^ 256

/-- The check value of a key: bytes 0 to 3 of the encryption of zeros under Key1 (09 R251). -/
def keyCheck (k : Nat) : Nat := bytesNat ((aes256 (natBytes 32 (key1 k)) (List.replicate 16 0)).take 4)

/-- The next tweak of XTS. -/
def xtsNext (t : Nat) : Nat := if t < 2 ^ 127 then 2 * t else (2 * t % 2 ^ 128) ^^^ 0x87

/-- The four blocks of a line through a block cipher, each under the next tweak. -/
def xtsBlocks (cipher : List Nat → List Nat) : Nat → Nat → List Nat → List Nat
  | 0, _, _ => []
  | f + 1, t, d => xorBytes (cipher (xorBytes (d.take 16) (natBytes 16 t))) (natBytes 16 t) ++ xtsBlocks cipher f (xtsNext t) (d.drop 16)

/-- A line through XTS under a key and a tweak, each block by cipher. -/
def xtsWith (cipher : List Nat → List Nat → List Nat) (k tweak : Nat) (line : Bytes) : Bytes :=
  let t := bytesNat (aes256 (natBytes 32 (key2 k)) (natBytes 16 tweak))
  (xtsBlocks (cipher (natBytes 32 (key1 k))) 4 t ((padTo 64 line).map BitVec.toNat)).map (BitVec.ofNat 8)

/-- A line of 64 bytes as it stands in memory under a key and a tweak (09 Table 9.5). -/
def xtsLine (k tweak : Nat) (line : Bytes) : Bytes := xtsWith aes256 k tweak line

/-- What a stored line decrypts to under a key and a tweak. -/
def xtsUnline (k tweak : Nat) (line : Bytes) : Bytes := xtsWith aes256Inv k tweak line

/-- A line stored under one key and read under another: it decrypts to bytes that nothing marks as wrong (09 R250). -/
def xtsOther (stored key tweak : Nat) (line : Bytes) : Bytes := if stored == key then line else xtsUnline key tweak (xtsLine stored tweak line)

end Sys2Proof.Machine
end

