-- ==== Sys2Proof/Config.lean ====
section
/-! DEFINITION. What an assembly or its surroundings fix, and the values the manual leaves open. No constant here has a body: nothing can evaluate one. -/

namespace Sys2Proof.Config

/-- MG_SERIAL, the assembly's own number (15 Table 15.8: from fuses). -/
opaque serial : Word

/-- The hash that gives a row its home vault, before the modulus by n (08 R211; the manual keeps it out of its interface). -/
opaque homeHash : Nat → Nat → Nat → Nat

/-- The hash that gives a piece of an entry its set (08 R211). -/
opaque setHash : Nat → Nat → Nat → Nat → Nat → Nat

/-- The hash that places a contour: vault selector and index (08 R212). -/
opaque contourHash : Nat → Nat → Nat → Nat

/-- The hash of a hot-page counter (09 R266). -/
opaque hotHash : Nat → Nat → Nat

/-- The set of the victim buffer an evicted entry enters (08 R216). -/
opaque victimHash : Nat → Nat → Nat → Nat

/-- The inset directory set of a row (08 R209, R224). -/
opaque dirHash : Nat → Nat → Nat → Nat

/-- A byte of far memory that nothing has written since its contents were last lost: the number of losses, the address (15 R396: undefined). -/
opaque farFresh : Nat → Nat → Byte

/-- Whether WAKE_N is asserted at an always-on time: no row of the table carries its level (12 Table 12.12). -/
opaque wakeLevel : Nat → Bool

/-- A fresh free value: the n-th value drawn from a generator the manual does not define (08 R215 random eviction, 10 R283 weighted choice). -/
opaque freeValue : Nat → Nat

/-- Whether a firmware image carries a valid signature (15 R404; ECDSA P-384 under a key fixed in fuses). -/
opaque fwSignatureOk : Bytes → Bool

/-- The version and the security version an image carries (15 R404; the manual gives no image format). -/
opaque fwVersion : Bytes → Nat
opaque fwSecVersion : Bytes → Nat

/-- The minimum security version fixed in fuses (15 R404). -/
opaque fwMinSecVersion : Nat

end Sys2Proof.Config
end

