-- ==== Sys2Proof/Machine/Num.lean ====
section
/-! DEFINITION. Exact values, stored formats and the roundings of chapter 05 (R118 to R144), and the flags they raise. -/

namespace Sys2Proof.Machine

/-- The four sticky flags of an engine (05 R145, Table 5.7). -/
structure Flags where
  ovf : Bool := false
  unf : Bool := false
  inx : Bool := false
  inv : Bool := false
deriving DecidableEq, Repr

def Flags.or (a b : Flags) : Flags :=
  { ovf := a.ovf || b.ovf, unf := a.unf || b.unf, inx := a.inx || b.inx, inv := a.inv || b.inv }

def Flags.mask (f : Flags) : Nat :=
  natOfBool f.ovf + 2 * natOfBool f.unf + 4 * natOfBool f.inx + 8 * natOfBool f.inv

/-- One exact value: m × 2^e, a negative zero, an infinity, a NaN, or a product 0 × ∞ (05 R125, R126). -/
inductive Val where
  | num (m : Int) (e : Int)
  | negZero
  | inf (neg : Bool)
  | nan
  | zeroInf
deriving DecidableEq, Repr

def Val.zero : Val := .num 0 0

def Val.isNaN : Val → Bool
  | .nan => true
  | .zeroInf => true
  | _ => false

def Val.isFin : Val → Bool
  | .num _ _ => true
  | .negZero => true
  | _ => false

/-- The sign of a value; a zero counts by its sign. -/
def Val.neg : Val → Bool
  | .num m _ => m < 0
  | .negZero => true
  | .inf n => n
  | _ => false

def Val.isZero : Val → Bool
  | .num m _ => m == 0
  | .negZero => true
  | _ => false

/-- Nearest integer to n / d, ties to even (05 R139). -/
def rneDiv (n : Int) (d : Nat) : Int :=
  let q := n / (d : Int)
  let r := (n % (d : Int)).toNat
  if 2 * r < d then q else if 2 * r > d then q + 1 else if q % 2 == 0 then q else q + 1

/-- n × 2^e as a fraction: numerator and denominator. -/
def shl2 (n : Int) (e : Int) : Int × Nat :=
  if 0 ≤ e then (n * ((2 ^ e.toNat : Nat) : Int), 1) else (n, 2 ^ (-e).toNat)

/-- Nearest integer to n / d × 2^e, ties to even, and whether it is exact. -/
def rneScaled (n : Int) (d : Nat) (e : Int) : Int × Bool :=
  let (n', d') := shl2 n e
  let q := rneDiv n' (d * d')
  (q, q * ((d * d' : Nat) : Int) == n')

/-- Largest k with 2^k ≤ n / d × 2^e, for n and d positive. -/
def floorLog2 (n d : Nat) (e : Int) : Int :=
  let k : Int := (Nat.log2 n : Int) - (Nat.log2 d : Int)
  let ge : Bool := if 0 ≤ k then decide (d * 2 ^ k.toNat ≤ n) else decide (d ≤ n * 2 ^ (-k).toNat)
  e + (if ge then k else k - 1)

/-- Shape of a binary floating-point format: significand width, least exponent of its spacing, exponent bits, bias, and which top codes are special. -/
structure Fmt where
  p : Nat
  qmin : Int
  ebits : Nat
  bias : Nat
  topSpecial : Bool
  maxM : Nat
  maxE : Int
deriving DecidableEq, Repr

def fp32 : Fmt := { p := 24, qmin := -149, ebits := 8, bias := 127, topSpecial := true, maxM := 2 ^ 24 - 1, maxE := 104 }
def bf16 : Fmt := { p := 8, qmin := -133, ebits := 8, bias := 127, topSpecial := true, maxM := 2 ^ 8 - 1, maxE := 120 }
def e4m3 : Fmt := { p := 4, qmin := -9, ebits := 4, bias := 7, topSpecial := false, maxM := 14, maxE := 5 }
def e5m2 : Fmt := { p := 3, qmin := -16, ebits := 5, bias := 15, topSpecial := true, maxM := 7, maxE := 13 }

/-- Width of a format in bits. -/
def Fmt.width (f : Fmt) : Nat := f.p + f.ebits

/-- Round n / d × 2^e, not zero, to a format with the exponent unbounded above: significand, exponent, exactness, tininess before rounding (05 R140; one rounding to the coarser of the format's spacings, DEDUCED, log 38). -/
def Fmt.round (f : Fmt) (n : Int) (d : Nat) (e : Int) : Int × Int × Bool × Bool :=
  let k := floorLog2 n.natAbs d e
  let q := max (k - ((f.p : Int) - 1)) f.qmin
  let (m, ex) := rneScaled n d (e - q)
  (m, q, ex, decide (k < f.qmin + ((f.p : Int) - 1)))

/-- Whether |m| × 2^q exceeds the largest finite value of the format. -/
def Fmt.tooBig (f : Fmt) (m : Int) (q : Int) : Bool :=
  let (a, d) := shl2 m.natAbs (q - f.maxE)
  decide ((f.maxM : Int) * (d : Int) < a)

/-- The pattern of m × 2^q, which the format holds, under a sign. -/
def Fmt.enc (f : Fmt) (neg : Bool) (m : Nat) (q : Int) : Nat :=
  let s := natOfBool neg * 2 ^ (f.width - 1)
  if m == 0 then s else
  let k := floorLog2 m 1 q
  let lsb := max (k - ((f.p : Int) - 1)) f.qmin
  let (v, _) := shl2 m (q - lsb)
  let v := if q < lsb then m / 2 ^ (lsb - q).toNat else v.toNat
  let ef := if v < 2 ^ (f.p - 1) then 0 else (lsb - f.qmin + 1).toNat
  s + ef * 2 ^ (f.p - 1) + v % 2 ^ (f.p - 1)

def Fmt.nanCode (f : Fmt) : Nat :=
  if f.width == 32 then 0x7FC00000 else if f.width == 16 then 0x7FC0 else if f.topSpecial then 0x7E else 0x7F

def Fmt.maxCode (f : Fmt) (neg : Bool) : Nat := f.enc neg f.maxM f.maxE

/-- The pattern of an infinity, or of the largest finite value where the format has none. -/
def Fmt.infCode (f : Fmt) (neg : Bool) : Nat :=
  if f.topSpecial then natOfBool neg * 2 ^ (f.width - 1) + (2 ^ f.ebits - 1) * 2 ^ (f.p - 1) else f.maxCode neg

/-- The value of a pattern (05 R118, R120). -/
def Fmt.dec (f : Fmt) (c : Nat) : Val :=
  let c := c % 2 ^ f.width
  let neg := decide (2 ^ (f.width - 1) ≤ c)
  let ef := bits c (f.p - 1) f.ebits
  let fr := c % 2 ^ (f.p - 1)
  let sg : Int → Int := fun v => if neg then -v else v
  if f.topSpecial && ef == 2 ^ f.ebits - 1 then (if fr == 0 then .inf neg else .nan)
  else if !f.topSpecial && ef == 2 ^ f.ebits - 1 && fr == 2 ^ (f.p - 1) - 1 then .nan
  else if ef == 0 then
    if fr == 0 then (if neg then .negZero else .zero) else .num (sg fr) f.qmin
  else .num (sg ((2 ^ (f.p - 1) + fr : Nat) : Int)) (f.qmin + (ef : Int) - 1)

/-- Round an exact finite value to a format with infinities on overflow: the rne_fp32 and rne_bf16 of the manual. -/
def Fmt.rneVal (f : Fmt) (v : Val) : Val :=
  match v with
  | .num m e =>
    if m == 0 then .zero else
    let (m', q, _, _) := f.round m 1 e
    if f.tooBig m' q then .inf (decide (m < 0))
    else if m' == 0 then (if m < 0 then .negZero else .zero)
    else .num m' q
  | .zeroInf => .nan
  | v => v

/-- The pattern of a value the format holds. -/
def Fmt.encVal (f : Fmt) (v : Val) : Nat :=
  match v with
  | .num m e => f.enc (decide (m < 0)) m.natAbs e
  | .negZero => f.enc true 0 0
  | .inf n => f.infCode n
  | .nan => f.nanCode
  | .zeroInf => f.nanCode

/-- Flags of rounding a value to a format without saturation. -/
def Fmt.rneFlags (f : Fmt) (v : Val) : Flags :=
  match v with
  | .num m e =>
    if m == 0 then {} else
    let (m', q, ex, tiny) := f.round m 1 e
    let o := f.tooBig m' q
    { ovf := o, inx := o || !ex, unf := tiny && !ex }
  | _ => {}

def fmtRne (f : Fmt) (v : Val) : Nat := f.encVal (f.rneVal v)

/-- Sum of two exact values, as the update arithmetic and the pairs use it (a −0 only from two of them). -/
def Val.add (a b : Val) : Val :=
  match a, b with
  | .nan, _ => .nan
  | .zeroInf, _ => .nan
  | _, .nan => .nan
  | _, .zeroInf => .nan
  | .inf x, .inf y => if x == y then .inf x else .nan
  | .inf x, _ => .inf x
  | _, .inf y => .inf y
  | .negZero, .negZero => .negZero
  | .negZero, .num m e => .num m e
  | .num m e, .negZero => .num m e
  | .num m e, .num m' e' =>
    let q := min e e'
    .num (m * ((2 ^ (e - q).toNat : Nat) : Int) + m' * ((2 ^ (e' - q).toNat : Nat) : Int)) q

def Val.negate : Val → Val
  | .num m e => if m == 0 then .negZero else .num (-m) e
  | .negZero => .zero
  | .inf n => .inf (!n)
  | v => v

/-- Exact product (05 R97, R126: 0 × ∞ is a special of its own). -/
def Val.mul (a b : Val) : Val :=
  match a, b with
  | .nan, _ => .nan
  | _, .nan => .nan
  | .zeroInf, _ => .zeroInf
  | _, .zeroInf => .zeroInf
  | .inf x, .inf y => .inf (x != y)
  | .inf x, b => if b.isZero then .zeroInf else .inf (x != b.neg)
  | a, .inf y => if a.isZero then .zeroInf else .inf (a.neg != y)
  | .negZero, b => if b.neg then .zero else .negZero
  | a, .negZero => if a.neg then .zero else .negZero
  | .num m e, .num m' e' =>
    if m == 0 || m' == 0 then (if decide (m < 0) != decide (m' < 0) then .negZero else .zero)
    else .num (m * m') (e + e')

/-- Scale by a power of two; specials take no scale (05 R119). -/
def Val.scale (v : Val) (k : Int) : Val :=
  match v with
  | .num m e => if m == 0 then .zero else .num m (e + k)
  | v => v

/-- Order of exact values, −∞ lowest, with −0 below +0 (05 R143). -/
def Val.lt (a b : Val) : Bool :=
  match a, b with
  | .inf x, .inf y => x && !y
  | .inf x, _ => x
  | _, .inf y => !y
  | .negZero, .negZero => false
  | .negZero, .num m _ => decide (0 ≤ m)
  | .num m _, .negZero => decide (m < 0)
  | .num m e, .num m' e' =>
    let q := min e e'
    decide (m * ((2 ^ (e - q).toNat : Nat) : Int) < m' * ((2 ^ (e' - q).toNat : Nat) : Int))
  | _, _ => false

/-- to_grid (05 R127): the integer nearest to x × 2^-G, and the flags it raises. -/
def toGrid (v : Val) (g : Int) : Int × Flags :=
  match v with
  | .num m e =>
    let (q, ex) := rneScaled m 1 (e - g)
    (q, { inx := !ex, unf := q == 0 && m != 0 })
  | _ => (0, {})

/-- Integer square root by digits from the top. -/
def isqrtAux : Nat → Nat → Nat → Nat
  | 0, _, r => r
  | b + 1, n, r =>
    let t := r + 2 ^ b
    isqrtAux b n (if t * t ≤ n then t else r)

def isqrt (n : Nat) : Nat := isqrtAux (Nat.log2 n / 2 + 1) n 0

/-- Square root of m × 2^e, m positive, rounded once to a format. -/
def Fmt.sqrtRne (f : Fmt) (m : Nat) (e : Int) : Val :=
  -- the value is brought to an even exponent with 2p + 8 extra bits, so that the root has at least p + 2 bits; a sticky bit keeps exactness
  let sh := 2 * f.p + 8
  let odd := (e - (sh : Int)) % 2 == 1
  let sh := if odd then sh + 1 else sh
  let n := m * 2 ^ sh
  let e' := (e - (sh : Int)) / 2
  let r := isqrt n
  if r * r == n then f.rneVal (.num r e') else f.rneVal (.num (2 * (r : Int) + 1) (e' - 1))

/-- Quotient a / b rounded once to a format; b finite and not zero, a finite. -/
def Fmt.divRne (f : Fmt) (a b : Val) : Val :=
  match a, b with
  | .num m e, .num m' e' =>
    if m == 0 || m' == 0 then .zero else
    let n : Int := if m' < 0 then -m else m
    let (r, q, _, _) := f.round n m'.natAbs (e - e')
    if f.tooBig r q then .inf (decide (n < 0))
    else if r == 0 then (if n < 0 then .negZero else .zero)
    else .num r q
  | _, _ => .zero

/-- The value of a compensated BF16 pair held in 32 bits (05 R121). -/
def pairVal (c : Nat) : Val :=
  let hi := bf16.dec (bits c 16 16)
  let lo := bf16.dec (bits c 0 16)
  match hi, lo with
  | .nan, _ => .nan
  | .inf n, _ => .inf n
  | _, .nan => .nan
  | _, .inf n => .inf n
  | h, l => h.add l

/-- The canonical pair of a value (05 R121). -/
def pairEnc (v : Val) : Nat :=
  match v with
  | .nan => 0x7FC00000
  | .zeroInf => 0x7FC00000
  | .inf n => (bf16.infCode n) <<< 16
  | v =>
    let hi := match bf16.rneVal v with
      | .inf n => bf16.dec (bf16.maxCode n)
      | h => h
    let rest := v.add hi.negate
    (bf16.encVal hi) <<< 16 ||| (if rest.isZero then 0 else bf16.encVal (bf16.rneVal rest))

/-- Value of a master element in master format MFMT. -/
def masterVal (mfmt c : Nat) : Val := if mfmt == 1 then pairVal c else fp32.dec c

/-- Stored element of a value in master format MFMT. -/
def masterEnc (mfmt : Nat) (v : Val) : Nat := if mfmt == 1 then pairEnc v else fp32.encVal (fp32.rneVal v)

/-- Working format of a code: WFMT and its signedness. -/
def codeVal (wfmt : Nat) (sgn : Bool) (c : Nat) : Val :=
  match wfmt with
  | 0 => .num (if sgn then signed 4 c else (c % 16 : Nat)) 0
  | 1 => .num (if sgn then signed 8 c else (c % 256 : Nat)) 0
  | 2 => e4m3.dec c
  | 3 => e5m2.dec c
  | 4 => bf16.dec c
  | _ => fp32.dec c

/-- Bits of one code (02 R34). -/
def codeBits (wfmt : Nat) : Nat := match wfmt with
  | 0 => 4
  | 1 => 8
  | 2 => 8
  | 3 => 8
  | 4 => 16
  | _ => 32

/-- The result of an output conversion: bytes of the element, flags, the bag's SATURATED bit, and whether it is NaN. -/
structure Conv where
  code : Nat
  low : Nat
  flags : Flags
  satur : Bool
  isNaN : Bool
deriving DecidableEq, Repr

/-- Format of OUT_FMT 0 to 4 (04 Table 4.8). -/
def outFmt (o : Nat) : Fmt := match o with
  | 0 => fp32
  | 1 => bf16
  | 2 => e4m3
  | 3 => e5m2
  | _ => fp32

/-- Bytes of one output element (04 Table 4.8). -/
def outBytes (o : Nat) : Nat := match o with
  | 0 => 4
  | 1 => 2
  | 2 => 1
  | 3 => 1
  | 4 => 8
  | 5 => 4
  | _ => 1

/-- Integer limits of OUT_FMT 5 and 6 (05 R141). -/
def intLimits (o : Nat) : Int × Int := if o == 5 then (-(2 ^ 31), 2 ^ 31 - 1) else (-128, 127)

/-- convert (05 R140 to R144) of the exact value n / d × 2^e, under SAT; a zero takes +0 here, and a value rounding to zero keeps the sign of n. The grid g serves the integer formats. -/
def convertQ (o : Nat) (satInf : Bool) (g : Int) (n : Int) (d : Nat) (e : Int) : Conv :=
  if o == 5 || o == 6 then
    let (lo, hi) := intLimits o
    let (q, ex) := rneScaled n d (e - g)
    let c := max lo (min hi q)
    { code := pattern (8 * outBytes o) c, low := 0, satur := c != q, isNaN := false,
      flags := { ovf := c != q, inx := !ex || c != q } }
  else if n == 0 then { code := 0, low := 0, flags := {}, satur := false, isNaN := false }
  else
    let f := outFmt o
    let neg := decide (n < 0)
    let (m, q, ex, tiny) := f.round n d e
    if f.tooBig m q then
      let isInf := satInf && f.topSpecial
      { code := if isInf then f.infCode neg else f.maxCode neg, low := 0, satur := !isInf, isNaN := false,
        flags := { ovf := true, inx := true } }
    else if o == 4 then
      -- lo := rne_fp32(v - hi), with v - hi = (n - m·d·2^(q-e)) / d × 2^e brought to one exponent
      let q' := min q e
      let r := n * ((2 ^ (e - q').toNat : Nat) : Int) - m * (d : Int) * ((2 ^ (q - q').toNat : Nat) : Int)
      let (lm, lq, lex) := if r == 0 then (0, 0, true) else (let (a, b, c, _) := f.round r d q'; (a, b, c))
      { code := f.enc neg m.natAbs q, low := if r == 0 then 0 else f.enc (decide (r < 0)) lm.natAbs lq, satur := false, isNaN := false,
        flags := { inx := !lex, unf := tiny && !lex } }
    else
      { code := f.enc neg m.natAbs q, low := 0, satur := false, isNaN := false, flags := { inx := !ex, unf := tiny && !ex } }

/-- Delivery of a special result (05 R141, R142). -/
def convertSpecial (o : Nat) (v : Val) : Conv :=
  if o == 5 || o == 6 then
    match v with
    | .inf neg =>
      let (lo, hi) := intLimits o
      { code := pattern (8 * outBytes o) (if neg then lo else hi), low := 0, flags := { inv := true }, satur := true, isNaN := false }
    | _ => { code := 0, low := 0, flags := { inv := true }, satur := false, isNaN := true }
  else
    let f := outFmt o
    match v with
    | .inf neg => { code := f.infCode neg, low := 0, flags := {}, satur := !f.topSpecial, isNaN := false }
    | _ => { code := f.nanCode, low := 0, flags := {}, satur := false, isNaN := true }

/-- Conversion of one exact term, as MAX and MIN deliver it (05 R143). -/
def convertTerm (o : Nat) (satInf : Bool) (g : Int) (v : Val) : Conv :=
  match v with
  | .num m e => convertQ o satInf g m 1 e
  | .negZero =>
    if o == 5 || o == 6 then convertQ o satInf g 0 1 0
    else { code := (outFmt o).enc true 0 0, low := 0, flags := {}, satur := false, isNaN := false }
  | v => convertSpecial o v

/-- The saturated result of a column that overflows on its final pass (05 R134). -/
def convertSaturated (o : Nat) (s : Int) : Conv :=
  if s == 0 then { code := 0, low := 0, flags := {}, satur := true, isNaN := false }
  else if o == 5 || o == 6 then
    let (lo, hi) := intLimits o
    { code := pattern (8 * outBytes o) (if s < 0 then lo else hi), low := 0, flags := {}, satur := true, isNaN := false }
  else { code := (outFmt o).maxCode (decide (s < 0)), low := 0, flags := {}, satur := true, isNaN := false }

/-- The bytes of a converted element. -/
def Conv.bytes (o : Nat) (c : Conv) : Bytes :=
  if o == 4 then leBytes 4 c.code ++ leBytes 4 c.low else leBytes (outBytes o) c.code

/-! Derivation of working codes (05 R122 to R124). -/

/-- Nearest member of an FP8 code set with the range unbounded above, as a value. -/
def rneCodeFp8 (f : Fmt) (m : Int) (e : Int) : Int × Int × Bool :=
  if m == 0 then (0, 0, true) else
  let (r, q, ex, _) := f.round m 1 e
  (r, q, ex)

/-- qmin and qmax of the integer code sets. -/
def codeLimits (wfmt : Nat) (sgn : Bool) : Int × Int :=
  let n := if wfmt == 0 then 4 else 8
  if sgn then (-(2 ^ (n - 1) : Nat), ((2 ^ (n - 1) - 1 : Nat) : Int)) else (0, ((2 ^ n - 1 : Nat) : Int))

/-- Whether one element fits at scale exponent k. -/
def fitsOne (wfmt : Nat) (sgn : Bool) (v : Val) (k : Int) : Bool :=
  match v with
  | .num m e =>
    if wfmt ≤ 1 then
      let (lo, hi) := codeLimits wfmt sgn
      let (q, _) := rneScaled m 1 (e - k)
      decide (lo ≤ q) && decide (q ≤ hi)
    else
      let f := if wfmt == 2 then e4m3 else e5m2
      let (r, q, _) := rneCodeFp8 f m (e - k)
      !f.tooBig r q
  | _ => true

/-- One code and its flags at scale exponent k (05 R122, R124). An infinite master is mapped and not clamped: it raises no overflow. A negative FP8 value that rounds to zero gives the code of −0 (DESIGN CHOICE, log 88). -/
def codeOne (wfmt : Nat) (sgn : Bool) (v : Val) (k : Int) : Nat × Flags :=
  if wfmt ≤ 1 then
    let (lo, hi) := codeLimits wfmt sgn
    let w := codeBits wfmt
    match v with
    | .num m e =>
      let (q, ex) := rneScaled m 1 (e - k)
      let c := max lo (min hi q)
      (pattern w c, { ovf := c != q, inx := !ex || c != q })
    | .negZero => (0, {})
    | .inf neg => (pattern w (if neg then lo else hi), { inv := true })
    | _ => (0, { inv := true })
  else if wfmt ≤ 3 then
    let f := if wfmt == 2 then e4m3 else e5m2
    match v with
    | .num m e =>
      if m == 0 then (0, {}) else
      let (r, q, ex) := rneCodeFp8 f m (e - k)
      if f.tooBig r q then (f.maxCode (decide (m < 0)), { ovf := true, inx := true })
      else (f.enc (decide (m < 0)) r.natAbs q, { inx := !ex })
    | .negZero => (f.enc true 0 0, {})
    | .inf neg => (f.infCode neg, {})
    | _ => (f.nanCode, {})
  else
    let f := if wfmt == 4 then bf16 else fp32
    let r := f.rneVal v
    (f.encVal r, { (f.rneFlags v) with ovf := false, unf := false })

/-- Smallest exponent in -128 .. 127 at which every element of a block fits, with coarse exponents given; 127 if none does. -/
def fineExp (wfmt : Nat) (sgn : Bool) (els : List (Val × Int)) : Int :=
  match firstBelow (fun i => els.all fun (v, c) => fitsOne wfmt sgn v (c + ((i : Int) - 128))) 256 with
  | some i => (i : Int) - 128
  | none => 127

end Sys2Proof.Machine
end

