-- ==== Sys2Proof/Machine/Regs.lean ====
section
/-! DEFINITION. The register map: offsets, fields and access codes, read off the register and field tables of chapters 00 to 17 (00 R8 to R10). -/

namespace Sys2Proof

/-- A field of a register: lowest bit and width. -/
structure Fld where
  lo : Nat
  n : Nat
deriving DecidableEq, Repr

/-- One row of a register table: offset, stride and count of its copies, reset value, the bits of each storing access code (00 Table 0.3), and, where it has one, its mask field with the number of low event bits that clear it (00 R449). -/
structure RegRow where
  base : Nat
  stride : Nat
  count : Nat
  reset : Nat
  rw : Nat
  w1c : Nat
  st : Nat
  mlo : Nat
  mn : Nat
  cn : Nat
deriving DecidableEq, Repr

abbrev R.MG_IDENT : Nat := 0x0
abbrev R.CMD_GZ_STATUS : Nat := 0x108000
abbrev R.CNT_ADM_ADMIT : Nat := 0x2002000
abbrev R.CNT_ADM_EVICT : Nat := 0x2002008
abbrev R.CNT_ADM_DROP : Nat := 0x2002010
abbrev R.CNT_ADM_FULL : Nat := 0x2002018
abbrev R.CNT_ADM_GRAD_DISCARD : Nat := 0x2002020
abbrev R.CNT_GZ_RETIRE : Nat := 0x2002028
abbrev R.CNT_VER_SKEW : Nat := 0x2002030
abbrev R.MG_VLOG_COUNT : Nat := 0x1000
abbrev R.MG_VLOG_SEL : Nat := 0x1008
abbrev R.MG_VLOG_DATA0 : Nat := 0x1010
abbrev R.MG_VLOG_DATA1 : Nat := 0x1018
abbrev R.MG_VLOG_DATA2 : Nat := 0x1020
abbrev R.MG_VLOG_DATA3 : Nat := 0x1028
def R.CMD_Qj_CFG (i : Nat) : Nat := 0x100000 + 64 * i
def R.CMD_Qj_CBASE (i : Nat) : Nat := 0x100008 + 64 * i
def R.CMD_Qj_CTRL (i : Nat) : Nat := 0x100010 + 64 * i
def R.CMD_Qj_STATE (i : Nat) : Nat := 0x100018 + 64 * i
def R.CMD_Qj_DONE (i : Nat) : Nat := 0x100020 + 64 * i
abbrev R.CMD_CPT_STATUS : Nat := 0x100800
abbrev R.CNT_OPS_DONE : Nat := 0x2003000
abbrev R.CNT_RB_WAIT : Nat := 0x2003008
abbrev R.CNT_PF_DROP : Nat := 0x2003010
abbrev R.CNT_STALE_DATA : Nat := 0x2003018
abbrev R.CNT_PORT_STALL : Nat := 0x2003020
abbrev R.CMD_LK_STATUS : Nat := 0x108010
abbrev R.CMD_LK_TAGS : Nat := 0x108018
abbrev R.CNT_LK_ENTRIES : Nat := 0x2004000
abbrev R.CNT_LK_POOLED : Nat := 0x2004008
abbrev R.CNT_LK_DEFAULT : Nat := 0x2004010
abbrev R.CNT_LK_ZERO_NA : Nat := 0x2004018
abbrev R.CNT_LK_MISSING : Nat := 0x2004020
abbrev R.CNT_LK_ABSORBED : Nat := 0x2004028
abbrev R.CNT_LK_FLAGGED : Nat := 0x2004030
abbrev R.CNT_LK_SRC_PF : Nat := 0x2004038
abbrev R.CNT_LK_SRC_NEAR : Nat := 0x2004040
abbrev R.CNT_LK_SRC_FAR : Nat := 0x2004048
abbrev R.CNT_LK_SRC_INSET : Nat := 0x2004050
abbrev R.CNT_LK_SRC_PEER : Nat := 0x2004058
abbrev R.CNT_LK_PARTIAL : Nat := 0x2004060
abbrev R.CNT_TAG_ISSUE : Nat := 0x2004068
abbrev R.CNT_TAG_RETIRE : Nat := 0x2004070
abbrev R.CNT_TAG_ABSORB : Nat := 0x2004078
abbrev R.CNT_TAG_WAIT : Nat := 0x2004080
abbrev R.CNT_LK_SERVE_HOLD : Nat := 0x2004088
abbrev R.CNT_LK_STEP_HOLD : Nat := 0x2004090
abbrev R.CNT_PF_STALE : Nat := 0x2004098
abbrev R.CNT_PF_UNUSED : Nat := 0x20040A0
abbrev R.CMD_GS_STATUS : Nat := 0x108020
abbrev R.CMD_GS_ADDCFG : Nat := 0x108028
def R.CMD_GS_Jj_CFG (i : Nat) : Nat := 0x108100 + 16 * i
def R.CMD_GS_Jj_STEP (i : Nat) : Nat := 0x108108 + 16 * i
abbrev R.CNT_GS_ENTRIES : Nat := 0x2005000
abbrev R.CNT_GS_STAGED : Nat := 0x2005008
abbrev R.CNT_GS_ABSORBED : Nat := 0x2005010
abbrev R.CNT_GS_REC_SENT : Nat := 0x2005018
abbrev R.CNT_GS_CORR : Nat := 0x2005020
abbrev R.CNT_GS_RESENT : Nat := 0x2005028
abbrev R.CNT_GS_REC_RECV : Nat := 0x2005030
abbrev R.CNT_GS_MERGED : Nat := 0x2005038
abbrev R.CNT_GS_MISSING : Nat := 0x2005040
abbrev R.CNT_GS_REDIRECT : Nat := 0x2005048
abbrev R.CNT_GS_STALE : Nat := 0x2005050
abbrev R.CNT_GS_ADD_MERGE : Nat := 0x2005058
abbrev R.CNT_GS_ADD_PASS : Nat := 0x2005060
abbrev R.CNT_GS_NONFINITE : Nat := 0x2005068
abbrev R.CNT_GS_WIDE : Nat := 0x2005070
abbrev R.CNT_GS_COAL_HOLD : Nat := 0x2005078
abbrev R.CNT_MERIDIAN : Nat := 0x2005080
abbrev R.CMD_UPD_STATUS : Nat := 0x108030
abbrev R.CMD_UPD_LEDGER : Nat := 0x108038
def R.CMD_UPD_Jj_JOURNAL (i : Nat) : Nat := 0x108200 + 16 * i
abbrev R.CNT_UPD_ROWS : Nat := 0x2006000
abbrev R.CNT_UPD_VAULT : Nat := 0x2006008
abbrev R.CNT_UPD_HBM : Nat := 0x2006010
abbrev R.CNT_UPD_LOGGED : Nat := 0x2006018
abbrev R.CNT_UPD_RETIRED : Nat := 0x2006020
abbrev R.CNT_UPD_ROLLFWD : Nat := 0x2006028
abbrev R.CNT_UPD_SKIPPED : Nat := 0x2006030
abbrev R.CNT_UPD_SAT : Nat := 0x2006038
abbrev R.CNT_UPD_NAN : Nat := 0x2006040
abbrev R.CNT_UPD_LOST : Nat := 0x2006048
abbrev R.CNT_INSET_REFRESH : Nat := 0x2006050
abbrev R.CNT_INSET_STALE : Nat := 0x2006058
abbrev R.CNT_STEP_PASSED : Nat := 0x2006060
abbrev R.NM_CFG : Nat := 0x400000
abbrev R.NM_PIN_SETS : Nat := 0x400008
abbrev R.NM_STATUS : Nat := 0x400010
abbrev R.NM_TEMP : Nat := 0x400018
abbrev R.NM_PIN_STATE : Nat := 0x400020
def R.NM_PINk_A (i : Nat) : Nat := 0x400100 + 16 * i
def R.NM_PINk_B (i : Nat) : Nat := 0x400108 + 16 * i
abbrev R.HBM_STATUS : Nat := 0x480000
abbrev R.HBM_SPILL_CFG : Nat := 0x480008
def R.HBM_Pk_STATUS (i : Nat) : Nat := 0x480100 + 16 * i
abbrev R.CNT_NM_HIT : Nat := 0x2007000
abbrev R.CNT_NM_FILL : Nat := 0x2007008
abbrev R.CNT_NM_BYPASS : Nat := 0x2007010
abbrev R.CNT_NM_EVICT : Nat := 0x2007018
abbrev R.CNT_VB_HIT : Nat := 0x2007020
abbrev R.CNT_NM_PARITY : Nat := 0x2007028
abbrev R.CNT_NM_REPLAY : Nat := 0x2007030
abbrev R.CNT_NM_LINE_RETIRE : Nat := 0x2007038
abbrev R.CNT_INSET_GRANT : Nat := 0x2007040
abbrev R.CNT_INSET_DENY : Nat := 0x2007048
abbrev R.CNT_INSET_WITHDRAW : Nat := 0x2007050
abbrev R.CNT_INSET_PURGE : Nat := 0x2007058
abbrev R.CNT_INSET_REFRESH_DROP : Nat := 0x2007060
abbrev R.CNT_HBM_CE : Nat := 0x2007068
abbrev R.CNT_HBM_UE : Nat := 0x2007070
abbrev R.CNT_SPILL_READ : Nat := 0x2007078
abbrev R.CNT_SPILL_NOUPD : Nat := 0x2007080
abbrev R.CNT_THERMAL_TRIP : Nat := 0x2007088
abbrev R.TLB_CFG : Nat := 0x200000
abbrev R.TLB_STATUS : Nat := 0x200008
abbrev R.TLB_FAR_LIMIT : Nat := 0x200010
abbrev R.TLB_FQ_STATE : Nat := 0x200018
abbrev R.TLB_FQ_SEL : Nat := 0x200020
abbrev R.TLB_FQ_DATA0 : Nat := 0x200028
abbrev R.TLB_FQ_DATA1 : Nat := 0x200030
abbrev R.TLB_FQ_DATA2 : Nat := 0x200038
abbrev R.TLB_FQ_DATA3 : Nat := 0x200040
abbrev R.TLB_FQ_RESP : Nat := 0x200048
abbrev R.TLB_INV_START : Nat := 0x200050
abbrev R.TLB_INV_LEN : Nat := 0x200058
abbrev R.TLB_INV_CMD : Nat := 0x200060
abbrev R.TLB_INV_DONE : Nat := 0x200068
abbrev R.TLB_KEY_SEL : Nat := 0x200070
abbrev R.TLB_KEY_CTRL : Nat := 0x200078
abbrev R.TLB_KEY_LOADED : Nat := 0x200080
abbrev R.TLB_KEY_KCV : Nat := 0x200088
abbrev R.TLB_HOT_COUNT : Nat := 0x200090
abbrev R.TLB_HOT_SEL : Nat := 0x200098
abbrev R.TLB_HOT_DATA : Nat := 0x2000A0
def R.TLB_KEY_DATAi (i : Nat) : Nat := 0x2000C0 + 8 * i
def R.TLB_CTXk_ROOT (i : Nat) : Nat := 0x201000 + 8 * i
def R.TLB_WINw_CFG (i : Nat) : Nat := 0x201200 + 16 * i
def R.TLB_WINw_ALLOW (i : Nat) : Nat := 0x201208 + 16 * i
abbrev R.CNT_TLB_L1_MISS : Nat := 0x2008000
abbrev R.CNT_TLB_L2_MISS : Nat := 0x2008008
abbrev R.CNT_TLB_WALK : Nat := 0x2008010
abbrev R.CNT_FQ_FAULT : Nat := 0x2008018
abbrev R.CNT_FQ_MERGE : Nat := 0x2008020
abbrev R.CNT_FQ_FULL : Nat := 0x2008028
abbrev R.CNT_FQ_RETRY : Nat := 0x2008030
abbrev R.CNT_FQ_REFAULT : Nat := 0x2008038
abbrev R.CNT_FQ_FATAL : Nat := 0x2008040
abbrev R.CNT_FQ_TIMEOUT : Nat := 0x2008048
abbrev R.CNT_FQ_AUTO : Nat := 0x2008050
abbrev R.CNT_FQ_STALE_RESP : Nat := 0x2008058
abbrev R.CNT_TLB_POISON : Nat := 0x2008060
abbrev R.CNT_WIN_REFUSED : Nat := 0x2008068
abbrev R.CNT_TLB_INV : Nat := 0x2008070
abbrev R.CNT_HOT_NOTICE : Nat := 0x2008078
abbrev R.LNK_TORUS : Nat := 0x500000
abbrev R.LNK_CFG : Nat := 0x500008
abbrev R.LNK_STATUS : Nat := 0x500010
abbrev R.LNK_COMPASS_GEN : Nat := 0x500018
abbrev R.LNK_COMPASS_SEL : Nat := 0x500020
abbrev R.LNK_COMPASS_DATA : Nat := 0x500028
abbrev R.LNK_EVENT_BLOCKS : Nat := 0x500030
def R.LNK_Pk_STATUS (i : Nat) : Nat := 0x500100 + 16 * i
def R.LNK_Pk_CTRL (i : Nat) : Nat := 0x500108 + 16 * i
def R.CNT_LNK_Pk_CRC (i : Nat) : Nat := 0x2009000 + 32 * i
def R.CNT_LNK_Pk_REPLAY (i : Nat) : Nat := 0x2009008 + 32 * i
def R.CNT_LNK_Pk_FEC_CORR (i : Nat) : Nat := 0x2009010 + 32 * i
def R.CNT_LNK_Pk_FEC_UNCORR (i : Nat) : Nat := 0x2009018 + 32 * i
abbrev R.CNT_LNK_RETRAIN : Nat := 0x2009100
abbrev R.CNT_LNK_DEAD : Nat := 0x2009108
abbrev R.CNT_LNK_REINJECT : Nat := 0x2009110
abbrev R.CNT_LNK_DISCARD : Nat := 0x2009118
abbrev R.CNT_LNK_ESCAPE : Nat := 0x2009120
abbrev R.CNT_LNK_REORDER : Nat := 0x2009128
abbrev R.CNT_LNK_FWD : Nat := 0x2009130
abbrev R.CNT_LNK_FWD_TIMEOUT : Nat := 0x2009138
abbrev R.CNT_LNK_GEN : Nat := 0x2009140
abbrev R.HST_CFG : Nat := 0x580000
abbrev R.HST_STATE : Nat := 0x580008
abbrev R.HST_CTRL : Nat := 0x580010
abbrev R.HST_STATUS : Nat := 0x580018
abbrev R.HST_WIN_CFG : Nat := 0x580020
abbrev R.HST_WIN_FAULT : Nat := 0x580028
def R.HST_PATHn_BASE (i : Nat) : Nat := 0x580100 + 16 * i
def R.HST_PATHn_SIZE (i : Nat) : Nat := 0x580108 + 16 * i
def R.HST_FLUSHp (i : Nat) : Nat := 0x580200 + 8 * i
abbrev R.CNT_HST_WR_ISSUE : Nat := 0x200A000
abbrev R.CNT_HST_WR_ACK : Nat := 0x200A008
abbrev R.CNT_HST_WR_DISCARD : Nat := 0x200A010
abbrev R.CNT_HST_WR_REPLAY : Nat := 0x200A018
abbrev R.CNT_HST_RD_ISSUE : Nat := 0x200A020
abbrev R.CNT_HST_RD_DONE : Nat := 0x200A028
abbrev R.CNT_HST_RD_FAIL : Nat := 0x200A030
abbrev R.CNT_HST_WIN_RD : Nat := 0x200A038
abbrev R.CNT_HST_WIN_WR : Nat := 0x200A040
abbrev R.CNT_HST_WIN_FAULT : Nat := 0x200A048
abbrev R.CNT_HST_FLUSH : Nat := 0x200A050
abbrev R.CNT_HST_RETRAIN : Nat := 0x200A058
abbrev R.CNT_HST_LOST : Nat := 0x200A060
abbrev R.CNT_HST_REFUSED : Nat := 0x200A068
abbrev R.MG_PIN_CFG : Nat := 0x100
abbrev R.MG_PIN_STATUS : Nat := 0x108
abbrev R.CMD_CPT_LINK : Nat := 0x100808
abbrev R.CMD_CPT_CTRL : Nat := 0x100810
abbrev R.CNT_CPT_LOST : Nat := 0x200B000
abbrev R.CNT_CPT_MOD_DROP : Nat := 0x200B008
abbrev R.CNT_CPT_MSG_DISCARD : Nat := 0x200B010
abbrev R.CNT_CLK_LOSS : Nat := 0x200B018
abbrev R.PWR_CFG : Nat := 0x600000
abbrev R.PWR_LATENCY : Nat := 0x600008
abbrev R.PWR_STATE : Nat := 0x600010
abbrev R.PWR_VSET : Nat := 0x600018
abbrev R.PWR_VNOW : Nat := 0x600020
abbrev R.PWR_PACE : Nat := 0x600028
abbrev R.PWR_LIMIT : Nat := 0x600030
abbrev R.PWR_RAIL : Nat := 0x600038
abbrev R.PWR_STATUS : Nat := 0x600040
abbrev R.PWR_WAKE_EN : Nat := 0x600048
abbrev R.PWR_WAKE_AT : Nat := 0x600050
abbrev R.PWR_WAKE_STATUS : Nat := 0x600058
abbrev R.PWR_AON_TIME : Nat := 0x600060
abbrev R.PWR_DEEP_COUNT : Nat := 0x600068
abbrev R.CNT_PWR_NAP : Nat := 0x200C000
abbrev R.CNT_PWR_ABANDON : Nat := 0x200C008
abbrev R.CNT_PWR_THERM_US : Nat := 0x200C010
abbrev R.CNT_PWR_LIMIT_US : Nat := 0x200C018
abbrev R.CNT_PWR_FAST_LIMIT : Nat := 0x200C020
abbrev R.CNT_PWR_ENERGY_MJ : Nat := 0x200C028
abbrev R.CNT_PWR_RAIL_FAULT : Nat := 0x200C030
abbrev R.MG_ELOG_COUNT : Nat := 0x1100
abbrev R.MG_ELOG_SEL : Nat := 0x1108
abbrev R.MG_ELOG_DATA0 : Nat := 0x1110
abbrev R.MG_ELOG_DATA1 : Nat := 0x1118
abbrev R.MG_ELOG_DATA2 : Nat := 0x1120
abbrev R.MG_ELOG_DATA3 : Nat := 0x1128
abbrev R.MG_FENCE_CFG : Nat := 0x2000
abbrev R.MG_FENCE_CTRL : Nat := 0x2008
abbrev R.MG_FENCE_STATE : Nat := 0x2010
abbrev R.MG_FENCED0 : Nat := 0x2018
abbrev R.MG_FENCED1 : Nat := 0x2020
abbrev R.MG_FENCED2 : Nat := 0x2028
abbrev R.MG_FENCE_STATUS : Nat := 0x2030
abbrev R.MG_EPOCH : Nat := 0x2038
abbrev R.MG_LOST_BLOCKS : Nat := 0x2040
def R.MG_Jj_EPOCH (i : Nat) : Nat := 0x2100 + 8 * i
abbrev R.MG_MIG_A : Nat := 0x2200
abbrev R.MG_MIG_B : Nat := 0x2208
abbrev R.MG_MIG_CTRL : Nat := 0x2210
abbrev R.MG_MIG_STATE : Nat := 0x2218
abbrev R.CNT_FENCE : Nat := 0x200D000
abbrev R.CNT_SPARE_USED : Nat := 0x200D008
abbrev R.CNT_CLUSTER_RESET : Nat := 0x200D010
abbrev R.CNT_PART_RESET : Nat := 0x200D018
abbrev R.CNT_EPOCH_STALE : Nat := 0x200D020
abbrev R.CNT_CORE_CE : Nat := 0x200D028
abbrev R.CNT_LNK_LOST_DISCARD : Nat := 0x200D030
abbrev R.CNT_JOB_RESTART : Nat := 0x200D038
abbrev R.CNT_MIG_ROWS : Nat := 0x200D040
abbrev R.MG_SERIAL : Nat := 0x8
abbrev R.MG_FW_VER : Nat := 0x10
abbrev R.MG_BOOT_CTRL : Nat := 0x3000
abbrev R.MG_CFG_CTRL : Nat := 0x3008
abbrev R.MG_CFG_STATUS : Nat := 0x3010
abbrev R.MG_FW_SRC : Nat := 0x3018
abbrev R.MG_FW_CTRL : Nat := 0x3020
abbrev R.MG_FW_STATUS : Nat := 0x3028
abbrev R.MG_TEST_CFG : Nat := 0x3030
abbrev R.SRV_STATE : Nat := 0x680000
abbrev R.SRV_REPAIR_SEL : Nat := 0x680008
abbrev R.SRV_REPAIR_DATA : Nat := 0x680010
def R.SRV_REPORTk_Ww (k w : Nat) : Nat := 0x680100 + 0x40 * (k - 1) + 8 * w
abbrev R.CNT_CFG_APPLY : Nat := 0x200E000
abbrev R.CNT_CFG_FAIL : Nat := 0x200E008
abbrev R.MG_INT_STATUS : Nat := 0x200
abbrev R.MG_INT_MASK : Nat := 0x208
abbrev R.MG_ERR_STATUS : Nat := 0x210
abbrev R.MG_ERR_MASK : Nat := 0x218
abbrev R.MG_EVENT : Nat := 0x220
abbrev R.CNT_CTRL : Nat := 0x2000000
abbrev R.CNT_SNAP_TIME : Nat := 0x2000008
def R.CNT_PMSELi (i : Nat) : Nat := 0x2000100 + 8 * i
def R.CNT_PMCi (i : Nat) : Nat := 0x2000200 + 8 * i
def R.CNT_FLAGS_Cc (i : Nat) : Nat := 0x2010000 + 8 * i
def R.CNT_FLAGS_Uk (i : Nat) : Nat := 0x2010800 + 8 * i
abbrev R.CNT_FLAG_SUM : Nat := 0x2010900
abbrev R.DBG_CTRL : Nat := 0x3000000
abbrev R.DBG_SEL : Nat := 0x3000008
abbrev R.DBG_STATUS : Nat := 0x3000010
abbrev R.DBG_ACC0 : Nat := 0x3000018
abbrev R.DBG_ACC1 : Nat := 0x3000020
abbrev R.DBG_ACC2 : Nat := 0x3000028
abbrev R.DBG_NM_SEL : Nat := 0x3000040
abbrev R.DBG_NM_PAR : Nat := 0x3000048
def R.DBG_NM_DATAi (i : Nat) : Nat := 0x3000080 + 8 * i

abbrev F.MG_IDENT_MINOR : Fld := ⟨0, 8⟩
abbrev F.MG_IDENT_MAJOR : Fld := ⟨8, 8⟩
abbrev F.MG_IDENT_STEP : Fld := ⟨16, 8⟩
abbrev F.MG_IDENT_FAMILY : Fld := ⟨24, 8⟩
abbrev F.MG_IDENT_VENDOR : Fld := ⟨32, 16⟩
abbrev F.CMD_GZ_STATUS_ADM_FULL : Fld := ⟨0, 1⟩
abbrev F.CMD_GZ_STATUS_ADM_OVERFLOW : Fld := ⟨1, 1⟩
abbrev F.CMD_GZ_STATUS_VER_SKEW : Fld := ⟨2, 1⟩
abbrev F.CMD_GZ_STATUS_RETIRED_EVENT : Fld := ⟨3, 1⟩
abbrev F.CMD_GZ_STATUS_JOB_MASK : Fld := ⟨4, 16⟩
abbrev F.MG_VLOG_SEL_INDEX : Fld := ⟨0, 32⟩
abbrev F.CMD_Qj_CFG_ENABLE : Fld := ⟨0, 1⟩
abbrev F.CMD_Qj_CFG_CTX : Fld := ⟨1, 6⟩
abbrev F.CMD_Qj_CFG_JOB_ID : Fld := ⟨7, 8⟩
abbrev F.CMD_Qj_CFG_CART_LOG2 : Fld := ⟨15, 4⟩
abbrev F.CMD_Qj_CFG_PORT_TIMEOUT : Fld := ⟨19, 20⟩
abbrev F.CMD_Qj_CBASE_CART_BASE : Fld := ⟨6, 51⟩
abbrev F.CMD_Qj_CTRL_STOP : Fld := ⟨0, 1⟩
abbrev F.CMD_Qj_CTRL_RESTART : Fld := ⟨1, 1⟩
abbrev F.CMD_Qj_CTRL_ABORT : Fld := ⟨2, 1⟩
abbrev F.CMD_Qj_CTRL_ABORT_SEQ : Fld := ⟨16, 48⟩
abbrev F.CMD_Qj_STATE_QSTATE : Fld := ⟨0, 2⟩
abbrev F.CMD_Qj_STATE_STAGED_WORDS : Fld := ⟨2, 10⟩
abbrev F.CMD_Qj_STATE_NEXT_SEQ : Fld := ⟨16, 48⟩
abbrev F.CMD_Qj_DONE_LAST_SEQ : Fld := ⟨0, 48⟩
abbrev F.CMD_Qj_DONE_LAST_STATUS : Fld := ⟨48, 4⟩
abbrev F.CMD_CPT_STATUS_RB_WAIT : Fld := ⟨0, 1⟩
abbrev F.CMD_CPT_STATUS_PORT_STALL : Fld := ⟨1, 1⟩
abbrev F.CMD_CPT_STATUS_QUEUE_STOPPED : Fld := ⟨2, 1⟩
abbrev F.CMD_CPT_STATUS_VLOG_WRAP : Fld := ⟨3, 1⟩
abbrev F.CMD_CPT_STATUS_QUEUE_MASK : Fld := ⟨4, 16⟩
abbrev F.CMD_LK_STATUS_TAG_WAIT : Fld := ⟨0, 1⟩
abbrev F.CMD_LK_STATUS_SERVE_FULL : Fld := ⟨1, 1⟩
abbrev F.CMD_LK_STATUS_MISSING : Fld := ⟨2, 1⟩
abbrev F.CMD_LK_STATUS_LONG_BAG : Fld := ⟨3, 1⟩
abbrev F.CMD_LK_STATUS_JOB_MASK : Fld := ⟨4, 16⟩
abbrev F.CMD_LK_TAGS_OWN_OUT : Fld := ⟨0, 18⟩
abbrev F.CMD_LK_TAGS_SERVE_OUT : Fld := ⟨18, 16⟩
abbrev F.CMD_LK_TAGS_PF_OUT : Fld := ⟨34, 16⟩
abbrev F.CMD_GS_STATUS_STAGE_FULL : Fld := ⟨0, 1⟩
abbrev F.CMD_GS_STATUS_COAL_FULL : Fld := ⟨1, 1⟩
abbrev F.CMD_GS_STATUS_RES_FULL : Fld := ⟨2, 1⟩
abbrev F.CMD_GS_STATUS_CLAMP : Fld := ⟨3, 1⟩
abbrev F.CMD_GS_STATUS_JOB_MASK : Fld := ⟨4, 16⟩
abbrev F.CMD_GS_ADDCFG_ENABLE : Fld := ⟨0, 1⟩
abbrev F.CMD_GS_ADDCFG_ADD_HOLD : Fld := ⟨1, 11⟩
abbrev F.CMD_GS_Jj_CFG_STAGE_LOG2 : Fld := ⟨0, 5⟩
abbrev F.CMD_GS_Jj_CFG_COAL_LOG2 : Fld := ⟨5, 5⟩
abbrev F.CMD_GS_Jj_CFG_RES_LOG2 : Fld := ⟨10, 5⟩
abbrev F.CMD_GS_Jj_CFG_ADD_EN : Fld := ⟨15, 1⟩
abbrev F.CMD_GS_Jj_STEP_CLOSED : Fld := ⟨0, 48⟩
abbrev F.CMD_GS_Jj_STEP_MSTATE : Fld := ⟨48, 2⟩
abbrev F.CMD_UPD_STATUS_SAT : Fld := ⟨0, 1⟩
abbrev F.CMD_UPD_STATUS_NAN_WRITTEN : Fld := ⟨1, 1⟩
abbrev F.CMD_UPD_STATUS_ROLLED_FORWARD : Fld := ⟨2, 1⟩
abbrev F.CMD_UPD_STATUS_LOST : Fld := ⟨3, 1⟩
abbrev F.CMD_UPD_STATUS_JOB_MASK : Fld := ⟨4, 16⟩
abbrev F.CMD_UPD_LEDGER_LOGGED : Fld := ⟨0, 18⟩
abbrev F.CMD_UPD_LEDGER_RECOVERING : Fld := ⟨18, 1⟩
abbrev F.CMD_UPD_Jj_JOURNAL_STEP : Fld := ⟨0, 48⟩
abbrev F.CMD_UPD_Jj_JOURNAL_OPEN : Fld := ⟨48, 1⟩
abbrev F.CMD_UPD_Jj_JOURNAL_RESUME_PENDING : Fld := ⟨49, 1⟩
abbrev F.CMD_UPD_Jj_JOURNAL_JOB_ID : Fld := ⟨56, 8⟩
abbrev F.NM_CFG_CONTOUR_LOG2 : Fld := ⟨0, 4⟩
abbrev F.NM_CFG_PROMOTE : Fld := ⟨4, 8⟩
abbrev F.NM_CFG_MPROMOTE : Fld := ⟨12, 8⟩
abbrev F.NM_CFG_INSET_T : Fld := ⟨20, 8⟩
abbrev F.NM_CFG_DECAY_LOG2 : Fld := ⟨28, 5⟩
abbrev F.NM_CFG_LEASE : Fld := ⟨33, 12⟩
abbrev F.NM_CFG_VB_EN : Fld := ⟨45, 1⟩
abbrev F.NM_PIN_SETS_PIN_SETS : Fld := ⟨0, 17⟩
abbrev F.NM_STATUS_PARITY : Fld := ⟨0, 1⟩
abbrev F.NM_STATUS_LINE_RETIRED : Fld := ⟨1, 1⟩
abbrev F.NM_STATUS_INSET_DENY : Fld := ⟨2, 1⟩
abbrev F.NM_STATUS_TRIP_EVENT : Fld := ⟨3, 1⟩
abbrev F.NM_STATUS_PURGE : Fld := ⟨4, 1⟩
abbrev F.NM_TEMP_P0_MAX : Fld := ⟨0, 8⟩
abbrev F.NM_TEMP_P1_MAX : Fld := ⟨8, 8⟩
abbrev F.NM_TEMP_P2_MAX : Fld := ⟨16, 8⟩
abbrev F.NM_TEMP_P3_MAX : Fld := ⟨24, 8⟩
abbrev F.NM_TEMP_BLOCK_MAX : Fld := ⟨32, 8⟩
abbrev F.NM_TEMP_REFRESH_16MS : Fld := ⟨40, 1⟩
abbrev F.NM_TEMP_TRIP : Fld := ⟨41, 1⟩
abbrev F.NM_PINk_A_ENABLE : Fld := ⟨0, 1⟩
abbrev F.NM_PINk_A_SLOT : Fld := ⟨1, 4⟩
abbrev F.NM_PINk_A_TABLE_ID : Fld := ⟨5, 12⟩
abbrev F.NM_PINk_A_VERSION : Fld := ⟨17, 16⟩
abbrev F.NM_PINk_A_COUNT : Fld := ⟨33, 31⟩
abbrev F.NM_PINk_B_FIRST : Fld := ⟨0, 40⟩
abbrev F.HBM_STATUS_CE : Fld := ⟨0, 1⟩
abbrev F.HBM_STATUS_UE : Fld := ⟨1, 1⟩
abbrev F.HBM_STATUS_SPILL_CAP : Fld := ⟨2, 1⟩
abbrev F.HBM_STATUS_SPILL_NOUPD : Fld := ⟨3, 1⟩
abbrev F.HBM_STATUS_PORT_MASK : Fld := ⟨4, 8⟩
abbrev F.HBM_SPILL_CFG_RATE : Fld := ⟨0, 6⟩
abbrev F.HBM_Pk_STATUS_TRAINED : Fld := ⟨0, 1⟩
abbrev F.HBM_Pk_STATUS_RATE : Fld := ⟨1, 1⟩
abbrev F.HBM_Pk_STATUS_SELF_REFRESH : Fld := ⟨2, 1⟩
abbrev F.HBM_Pk_STATUS_SPARES_USED : Fld := ⟨3, 8⟩
abbrev F.HBM_Pk_STATUS_STACK_TEMP : Fld := ⟨11, 8⟩
abbrev F.TLB_CFG_FAULT_TIMEOUT : Fld := ⟨0, 16⟩
abbrev F.TLB_CFG_HOT_T : Fld := ⟨16, 16⟩
abbrev F.TLB_CFG_HOT_DECAY : Fld := ⟨32, 5⟩
abbrev F.TLB_STATUS_FQ_PRESSURE : Fld := ⟨0, 1⟩
abbrev F.TLB_STATUS_FATAL : Fld := ⟨1, 1⟩
abbrev F.TLB_STATUS_BAD_TABLE : Fld := ⟨2, 1⟩
abbrev F.TLB_STATUS_KEY_ABSENT : Fld := ⟨3, 1⟩
abbrev F.TLB_STATUS_KEY_REFUSED : Fld := ⟨4, 1⟩
abbrev F.TLB_STATUS_KEY_MISMATCH : Fld := ⟨5, 1⟩
abbrev F.TLB_STATUS_WIN_REFUSED : Fld := ⟨6, 1⟩
abbrev F.TLB_STATUS_HOT : Fld := ⟨7, 1⟩
abbrev F.TLB_FAR_LIMIT_LIMIT : Fld := ⟨0, 40⟩
abbrev F.TLB_FQ_STATE_PENDING : Fld := ⟨0, 13⟩
abbrev F.TLB_FQ_STATE_OLDEST : Fld := ⟨13, 12⟩
abbrev F.TLB_FQ_STATE_NONE : Fld := ⟨25, 1⟩
abbrev F.TLB_FQ_STATE_FULL : Fld := ⟨26, 1⟩
abbrev F.TLB_FQ_SEL_SLOT : Fld := ⟨0, 12⟩
abbrev F.TLB_FQ_RESP_SLOT : Fld := ⟨0, 12⟩
abbrev F.TLB_FQ_RESP_GEN : Fld := ⟨12, 16⟩
abbrev F.TLB_FQ_RESP_ACTION : Fld := ⟨28, 2⟩
abbrev F.TLB_INV_START_START : Fld := ⟨12, 45⟩
abbrev F.TLB_INV_LEN_PAGES_M1 : Fld := ⟨0, 45⟩
abbrev F.TLB_INV_CMD_KIND : Fld := ⟨0, 2⟩
abbrev F.TLB_INV_CMD_ALL : Fld := ⟨2, 1⟩
abbrev F.TLB_INV_CMD_CTX : Fld := ⟨3, 6⟩
abbrev F.TLB_INV_CMD_WIN : Fld := ⟨9, 1⟩
abbrev F.TLB_INV_CMD_SEQ : Fld := ⟨16, 48⟩
abbrev F.TLB_INV_DONE_SEQ : Fld := ⟨0, 48⟩
abbrev F.TLB_INV_DONE_RESULT : Fld := ⟨48, 2⟩
abbrev F.TLB_INV_DONE_BUSY : Fld := ⟨50, 1⟩
abbrev F.TLB_KEY_SEL_SEL : Fld := ⟨0, 6⟩
abbrev F.TLB_KEY_CTRL_LOAD : Fld := ⟨0, 1⟩
abbrev F.TLB_KEY_CTRL_UNLOAD : Fld := ⟨1, 1⟩
abbrev F.TLB_KEY_CTRL_DISCARD_LEDGER : Fld := ⟨2, 1⟩
abbrev F.TLB_KEY_LOADED_LOADED : Fld := ⟨0, 64⟩
abbrev F.TLB_KEY_KCV_KCV : Fld := ⟨0, 32⟩
abbrev F.TLB_KEY_KCV_VALID : Fld := ⟨32, 1⟩
abbrev F.TLB_HOT_COUNT_COUNT : Fld := ⟨0, 64⟩
abbrev F.TLB_HOT_SEL_INDEX : Fld := ⟨0, 32⟩
abbrev F.TLB_HOT_DATA_NOTICE : Fld := ⟨0, 64⟩
abbrev F.TLB_KEY_DATAi_KEY : Fld := ⟨0, 64⟩
abbrev F.TLB_CTXk_ROOT_ENABLE : Fld := ⟨0, 1⟩
abbrev F.TLB_CTXk_ROOT_PENDING : Fld := ⟨1, 1⟩
abbrev F.TLB_CTXk_ROOT_BASE : Fld := ⟨6, 51⟩
abbrev F.TLB_WINw_CFG_ENABLE : Fld := ⟨0, 1⟩
abbrev F.TLB_WINw_CFG_PENDING : Fld := ⟨1, 1⟩
abbrev F.TLB_WINw_CFG_BASE : Fld := ⟨6, 51⟩
abbrev F.TLB_WINw_ALLOW_ALLOW : Fld := ⟨0, 64⟩
abbrev F.LNK_TORUS_BLOCK : Fld := ⟨0, 6⟩
abbrev F.LNK_TORUS_XC : Fld := ⟨6, 2⟩
abbrev F.LNK_TORUS_YC : Fld := ⟨8, 2⟩
abbrev F.LNK_TORUS_ZC : Fld := ⟨10, 2⟩
abbrev F.LNK_TORUS_XD_M1 : Fld := ⟨12, 2⟩
abbrev F.LNK_TORUS_YD_M1 : Fld := ⟨14, 2⟩
abbrev F.LNK_TORUS_ZD_M1 : Fld := ⟨16, 2⟩
abbrev F.LNK_TORUS_COUNT : Fld := ⟨18, 7⟩
abbrev F.LNK_CFG_ROOT_BLOCK : Fld := ⟨0, 6⟩
abbrev F.LNK_CFG_FWD_TIMEOUT : Fld := ⟨6, 10⟩
abbrev F.LNK_CFG_FWD_EVENTS : Fld := ⟨16, 1⟩
abbrev F.LNK_CFG_BG_RETRAIN : Fld := ⟨17, 1⟩
abbrev F.LNK_CFG_ADAPTIVE : Fld := ⟨18, 1⟩
abbrev F.LNK_STATUS_RETRAIN_EVENT : Fld := ⟨0, 1⟩
abbrev F.LNK_STATUS_DEAD_EVENT : Fld := ⟨1, 1⟩
abbrev F.LNK_STATUS_NARROW : Fld := ⟨2, 1⟩
abbrev F.LNK_STATUS_ROUTE_CHANGE : Fld := ⟨3, 1⟩
abbrev F.LNK_STATUS_UNRESPONSIVE : Fld := ⟨4, 1⟩
abbrev F.LNK_STATUS_FWD_TIMEOUT : Fld := ⟨5, 1⟩
abbrev F.LNK_STATUS_PORT_MASK : Fld := ⟨6, 6⟩
abbrev F.LNK_COMPASS_GEN_GEN : Fld := ⟨0, 8⟩
abbrev F.LNK_COMPASS_GEN_MODE : Fld := ⟨8, 1⟩
abbrev F.LNK_COMPASS_GEN_PENDING : Fld := ⟨9, 1⟩
abbrev F.LNK_COMPASS_SEL_DEST : Fld := ⟨0, 6⟩
abbrev F.LNK_COMPASS_DATA_MIN_MASK : Fld := ⟨0, 6⟩
abbrev F.LNK_COMPASS_DATA_ESC_PORT : Fld := ⟨6, 3⟩
abbrev F.LNK_COMPASS_DATA_HOPS : Fld := ⟨9, 6⟩
abbrev F.LNK_EVENT_BLOCKS_BLOCKS : Fld := ⟨0, 64⟩
abbrev F.LNK_Pk_STATUS_STATE : Fld := ⟨0, 3⟩
abbrev F.LNK_Pk_STATUS_TX_WIDTH : Fld := ⟨3, 4⟩
abbrev F.LNK_Pk_STATUS_RX_WIDTH : Fld := ⟨7, 4⟩
abbrev F.LNK_Pk_STATUS_TX_GOOD : Fld := ⟨11, 9⟩
abbrev F.LNK_Pk_STATUS_RX_GOOD : Fld := ⟨20, 9⟩
abbrev F.LNK_Pk_STATUS_PARTNER : Fld := ⟨29, 6⟩
abbrev F.LNK_Pk_STATUS_PARTNER_PORT : Fld := ⟨35, 3⟩
abbrev F.LNK_Pk_STATUS_TRIES : Fld := ⟨38, 2⟩
abbrev F.LNK_Pk_CTRL_RETRAIN : Fld := ⟨0, 1⟩
abbrev F.LNK_Pk_CTRL_DISABLE : Fld := ⟨1, 1⟩
abbrev F.LNK_Pk_CTRL_ENABLE : Fld := ⟨2, 1⟩
abbrev F.HST_CFG_CPL_TIMEOUT : Fld := ⟨0, 16⟩
abbrev F.HST_CFG_RETRAIN_LIMIT : Fld := ⟨16, 8⟩
abbrev F.HST_STATE_LSTATE : Fld := ⟨0, 3⟩
abbrev F.HST_STATE_OUT_READS : Fld := ⟨4, 13⟩
abbrev F.HST_STATE_WR_OUT : Fld := ⟨17, 16⟩
abbrev F.HST_CTRL_RESUME : Fld := ⟨0, 1⟩
abbrev F.HST_CTRL_RETRAIN : Fld := ⟨1, 1⟩
abbrev F.HST_STATUS_HOST_LOST : Fld := ⟨0, 1⟩
abbrev F.HST_STATUS_RETRAIN_EVENT : Fld := ⟨1, 1⟩
abbrev F.HST_STATUS_WIN_FAULT : Fld := ⟨2, 1⟩
abbrev F.HST_STATUS_CPL_ERROR : Fld := ⟨3, 1⟩
abbrev F.HST_STATUS_FLUSH_UNSET : Fld := ⟨4, 1⟩
abbrev F.HST_WIN_CFG_ENABLE : Fld := ⟨0, 1⟩
abbrev F.HST_WIN_CFG_PENDING : Fld := ⟨1, 1⟩
abbrev F.HST_WIN_CFG_CTX : Fld := ⟨2, 6⟩
abbrev F.HST_WIN_CFG_BASE : Fld := ⟨12, 45⟩
abbrev F.HST_WIN_FAULT_OFFSET : Fld := ⟨0, 32⟩
abbrev F.HST_WIN_FAULT_KIND : Fld := ⟨32, 4⟩
abbrev F.HST_WIN_FAULT_WRITE : Fld := ⟨36, 1⟩
abbrev F.HST_WIN_FAULT_VALID : Fld := ⟨37, 1⟩
abbrev F.HST_PATHn_BASE_ENABLE : Fld := ⟨0, 1⟩
abbrev F.HST_PATHn_BASE_TC : Fld := ⟨1, 2⟩
abbrev F.HST_PATHn_BASE_BASE : Fld := ⟨12, 52⟩
abbrev F.HST_PATHn_SIZE_PAGES_M1 : Fld := ⟨0, 52⟩
abbrev F.HST_FLUSHp_VALID : Fld := ⟨0, 1⟩
abbrev F.HST_FLUSHp_ADDR : Fld := ⟨2, 62⟩
abbrev F.MG_PIN_CFG_TPWM_EN : Fld := ⟨0, 1⟩
abbrev F.MG_PIN_CFG_ERR_FORCE : Fld := ⟨1, 1⟩
abbrev F.MG_PIN_CFG_INT_FORCE : Fld := ⟨2, 1⟩
abbrev F.MG_PIN_CFG_WARN_LEVEL : Fld := ⟨3, 8⟩
abbrev F.MG_PIN_STATUS_HST_RST : Fld := ⟨0, 1⟩
abbrev F.MG_PIN_STATUS_CPT_PRST : Fld := ⟨1, 1⟩
abbrev F.MG_PIN_STATUS_WAKE : Fld := ⟨2, 1⟩
abbrev F.MG_PIN_STATUS_STRAP_HOST : Fld := ⟨3, 1⟩
abbrev F.MG_PIN_STATUS_INT_OUT : Fld := ⟨4, 1⟩
abbrev F.MG_PIN_STATUS_ERR_OUT : Fld := ⟨5, 1⟩
abbrev F.MG_PIN_STATUS_WARN_OUT : Fld := ⟨6, 1⟩
abbrev F.MG_PIN_STATUS_TRIP_OUT : Fld := ⟨7, 1⟩
abbrev F.MG_PIN_STATUS_AON_CLK_OK : Fld := ⟨8, 1⟩
abbrev F.MG_PIN_STATUS_HBM_CLK_OK : Fld := ⟨9, 8⟩
abbrev F.MG_PIN_STATUS_PEER_CLK_OK : Fld := ⟨17, 6⟩
abbrev F.MG_PIN_STATUS_CPT_CLK_OK : Fld := ⟨23, 1⟩
abbrev F.MG_PIN_STATUS_HPT_CLK_OK : Fld := ⟨24, 1⟩
abbrev F.CMD_CPT_LINK_MOD_STATE : Fld := ⟨0, 16⟩
abbrev F.CMD_CPT_LINK_UP_COUNT : Fld := ⟨16, 4⟩
abbrev F.CMD_CPT_LINK_PSTATE : Fld := ⟨20, 2⟩
abbrev F.CMD_CPT_LINK_LOST_EVENT : Fld := ⟨22, 1⟩
abbrev F.CMD_CPT_LINK_DROP_EVENT : Fld := ⟨23, 1⟩
abbrev F.CMD_CPT_CTRL_RETRAIN_MASK : Fld := ⟨0, 8⟩
abbrev F.PWR_CFG_NAP_AFTER : Fld := ⟨0, 16⟩
abbrev F.PWR_CFG_DEEP_AFTER : Fld := ⟨16, 16⟩
abbrev F.PWR_CFG_DEEP_EN : Fld := ⟨32, 1⟩
abbrev F.PWR_LATENCY_TOL : Fld := ⟨0, 32⟩
abbrev F.PWR_STATE_STATE : Fld := ⟨0, 2⟩
abbrev F.PWR_STATE_ALLOWED : Fld := ⟨2, 2⟩
abbrev F.PWR_STATE_BLOCKER : Fld := ⟨4, 4⟩
abbrev F.PWR_STATE_LAST_WAKE : Fld := ⟨8, 3⟩
abbrev F.PWR_STATE_WOKE : Fld := ⟨11, 1⟩
abbrev F.PWR_LIMIT_LIMIT : Fld := ⟨0, 10⟩
abbrev F.PWR_RAIL_VIN_MV : Fld := ⟨0, 12⟩
abbrev F.PWR_RAIL_IIN : Fld := ⟨12, 10⟩
abbrev F.PWR_RAIL_POWER : Fld := ⟨22, 10⟩
abbrev F.PWR_STATUS_THERMAL : Fld := ⟨0, 1⟩
abbrev F.PWR_STATUS_POWER : Fld := ⟨1, 1⟩
abbrev F.PWR_STATUS_FAST_LIMIT : Fld := ⟨2, 1⟩
abbrev F.PWR_STATUS_FLOOR : Fld := ⟨3, 1⟩
abbrev F.PWR_STATUS_ABANDON : Fld := ⟨4, 1⟩
abbrev F.PWR_STATUS_RAIL_FAULT : Fld := ⟨5, 1⟩
abbrev F.PWR_STATUS_PART_MASK : Fld := ⟨6, 4⟩
abbrev F.PWR_WAKE_EN_EN : Fld := ⟨0, 8⟩
abbrev F.PWR_WAKE_AT_AT : Fld := ⟨0, 64⟩
abbrev F.PWR_WAKE_STATUS_HIT : Fld := ⟨0, 8⟩
abbrev F.MG_ELOG_COUNT_COUNT : Fld := ⟨0, 64⟩
abbrev F.MG_ELOG_SEL_INDEX : Fld := ⟨0, 32⟩
abbrev F.MG_FENCE_CFG_LOST_TIMEOUT : Fld := ⟨0, 16⟩
abbrev F.MG_FENCE_CFG_MIG_RATE : Fld := ⟨16, 16⟩
abbrev F.MG_FENCE_CTRL_INDEX : Fld := ⟨0, 8⟩
abbrev F.MG_FENCE_CTRL_ACTION : Fld := ⟨8, 2⟩
abbrev F.MG_FENCE_STATE_ENABLED : Fld := ⟨0, 8⟩
abbrev F.MG_FENCE_STATE_BUSY : Fld := ⟨8, 1⟩
abbrev F.MG_FENCE_STATE_LAST_CORE : Fld := ⟨16, 8⟩
abbrev F.MG_FENCE_STATE_LAST_CAUSE : Fld := ⟨24, 4⟩
abbrev F.MG_FENCED0_FENCED : Fld := ⟨0, 64⟩
abbrev F.MG_FENCED1_FENCED : Fld := ⟨0, 64⟩
abbrev F.MG_FENCED2_FENCED : Fld := ⟨0, 64⟩
abbrev F.MG_FENCE_STATUS_FENCE_EVENT : Fld := ⟨0, 1⟩
abbrev F.MG_FENCE_STATUS_RESET_EVENT : Fld := ⟨1, 1⟩
abbrev F.MG_FENCE_STATUS_BLOCK_LOST : Fld := ⟨2, 1⟩
abbrev F.MG_FENCE_STATUS_JOB_HALTED : Fld := ⟨3, 1⟩
abbrev F.MG_FENCE_STATUS_MIG_EVENT : Fld := ⟨4, 1⟩
abbrev F.MG_FENCE_STATUS_ELOG_WRAP : Fld := ⟨5, 1⟩
abbrev F.MG_EPOCH_PLACE : Fld := ⟨0, 32⟩
abbrev F.MG_LOST_BLOCKS_BLOCKS : Fld := ⟨0, 64⟩
abbrev F.MG_Jj_EPOCH_SHEET_EPOCH : Fld := ⟨0, 32⟩
abbrev F.MG_Jj_EPOCH_HELD : Fld := ⟨32, 1⟩
abbrev F.MG_Jj_EPOCH_HALTED : Fld := ⟨33, 1⟩
abbrev F.MG_MIG_A_SLOT : Fld := ⟨0, 4⟩
abbrev F.MG_MIG_A_TABLE_ID : Fld := ⟨4, 12⟩
abbrev F.MG_MIG_A_VERSION : Fld := ⟨16, 16⟩
abbrev F.MG_MIG_A_SHEET_SLOT : Fld := ⟨32, 6⟩
abbrev F.MG_MIG_A_TO_BLOCK : Fld := ⟨38, 6⟩
abbrev F.MG_MIG_B_CUTOVER : Fld := ⟨0, 48⟩
abbrev F.MG_MIG_CTRL_START : Fld := ⟨0, 1⟩
abbrev F.MG_MIG_CTRL_CANCEL : Fld := ⟨1, 1⟩
abbrev F.MG_MIG_STATE_STATE : Fld := ⟨0, 3⟩
abbrev F.MG_MIG_STATE_ROLE : Fld := ⟨4, 2⟩
abbrev F.MG_MIG_STATE_REASON : Fld := ⟨8, 4⟩
abbrev F.MG_MIG_STATE_ROWS_COPIED : Fld := ⟨16, 32⟩
abbrev F.MG_SERIAL_SERIAL : Fld := ⟨0, 64⟩
abbrev F.MG_FW_VER_VERSION : Fld := ⟨0, 32⟩
abbrev F.MG_FW_VER_SEC_VERSION : Fld := ⟨32, 16⟩
abbrev F.MG_BOOT_CTRL_FULL_NEXT : Fld := ⟨0, 1⟩
abbrev F.MG_BOOT_CTRL_CLEAR_FIELD : Fld := ⟨1, 1⟩
abbrev F.MG_CFG_CTRL_CHECK : Fld := ⟨0, 1⟩
abbrev F.MG_CFG_CTRL_APPLY : Fld := ⟨1, 1⟩
abbrev F.MG_CFG_CTRL_DISCARD : Fld := ⟨2, 1⟩
abbrev F.MG_CFG_CTRL_VIEW : Fld := ⟨3, 1⟩
abbrev F.MG_CFG_STATUS_RESULT : Fld := ⟨0, 3⟩
abbrev F.MG_CFG_STATUS_PENDING : Fld := ⟨3, 1⟩
abbrev F.MG_CFG_STATUS_LOCKED_WRITE : Fld := ⟨4, 1⟩
abbrev F.MG_CFG_STATUS_SEQ : Fld := ⟨8, 16⟩
abbrev F.MG_CFG_STATUS_FAIL_OFFSET : Fld := ⟨24, 26⟩
abbrev F.MG_CFG_STATUS_FAIL_BIT : Fld := ⟨50, 6⟩
abbrev F.MG_FW_SRC_ADDR : Fld := ⟨12, 28⟩
abbrev F.MG_FW_SRC_PAGES : Fld := ⟨40, 13⟩
abbrev F.MG_FW_CTRL_UPDATE : Fld := ⟨0, 1⟩
abbrev F.MG_FW_STATUS_RESULT : Fld := ⟨0, 3⟩
abbrev F.MG_FW_STATUS_RUNNING : Fld := ⟨3, 1⟩
abbrev F.MG_FW_STATUS_PREFERRED : Fld := ⟨4, 1⟩
abbrev F.MG_FW_STATUS_VALID : Fld := ⟨5, 2⟩
abbrev F.MG_TEST_CFG_TAP_UNLOCK : Fld := ⟨0, 1⟩
abbrev F.SRV_STATE_STAGE : Fld := ⟨0, 4⟩
abbrev F.SRV_STATE_MODE : Fld := ⟨4, 2⟩
abbrev F.SRV_STATE_KEY_WAIT : Fld := ⟨6, 1⟩
abbrev F.SRV_STATE_DEGRADED : Fld := ⟨7, 1⟩
abbrev F.SRV_STATE_REFUSED_AT : Fld := ⟨8, 4⟩
abbrev F.SRV_STATE_TOTAL_MS : Fld := ⟨12, 32⟩
abbrev F.SRV_REPAIR_SEL_INDEX : Fld := ⟨0, 8⟩
abbrev F.SRV_REPAIR_DATA_FACTORY : Fld := ⟨0, 2⟩
abbrev F.SRV_REPAIR_DATA_FENCED : Fld := ⟨2, 1⟩
abbrev F.SRV_REPAIR_DATA_FENCE_COUNT : Fld := ⟨3, 2⟩
abbrev F.SRV_REPAIR_DATA_PERMANENT : Fld := ⟨5, 1⟩
abbrev F.SRV_REPAIR_DATA_LAST_CAUSE : Fld := ⟨8, 4⟩
abbrev F.SRV_REPAIR_DATA_RETIRED_LINES : Fld := ⟨12, 14⟩
abbrev F.SRV_REPAIR_DATA_DEAD_SETS : Fld := ⟨26, 7⟩
abbrev F.SRV_REPAIR_DATA_FAILED : Fld := ⟨0, 1⟩
abbrev F.MG_INT_STATUS_PENDING : Fld := ⟨0, 18⟩
abbrev F.MG_INT_MASK_ENABLE : Fld := ⟨0, 18⟩
abbrev F.MG_ERR_STATUS_ERRORS : Fld := ⟨0, 9⟩
abbrev F.MG_ERR_MASK_UE_EN : Fld := ⟨0, 1⟩
abbrev F.MG_ERR_MASK_HALT_EN : Fld := ⟨1, 1⟩
abbrev F.MG_EVENT_READY : Fld := ⟨0, 1⟩
abbrev F.MG_EVENT_REFUSED : Fld := ⟨1, 1⟩
abbrev F.MG_EVENT_KEY_WAIT : Fld := ⟨2, 1⟩
abbrev F.CNT_CTRL_SNAP : Fld := ⟨0, 1⟩
abbrev F.CNT_CTRL_VIEW : Fld := ⟨1, 1⟩
abbrev F.CNT_CTRL_SNAP_BUSY : Fld := ⟨2, 1⟩
abbrev F.CNT_SNAP_TIME_TIME : Fld := ⟨0, 64⟩
abbrev F.CNT_PMSELi_EVENT : Fld := ⟨0, 8⟩
abbrev F.CNT_PMSELi_PART_MASK : Fld := ⟨8, 4⟩
abbrev F.CNT_PMSELi_PORT : Fld := ⟨12, 4⟩
abbrev F.CNT_PMSELi_JOB : Fld := ⟨16, 5⟩
abbrev F.CNT_PMSELi_ENABLE : Fld := ⟨21, 1⟩
abbrev F.CNT_PMCi_COUNT : Fld := ⟨0, 64⟩
abbrev F.CNT_FLAGS_Cc_POOL : Fld := ⟨0, 4⟩
abbrev F.CNT_FLAGS_Cc_FOLD : Fld := ⟨4, 4⟩
abbrev F.CNT_FLAGS_Cc_UPDATE : Fld := ⟨8, 4⟩
abbrev F.CNT_FLAGS_Uk_UNIT : Fld := ⟨0, 4⟩
abbrev F.CNT_FLAG_SUM_ANY : Fld := ⟨0, 4⟩
abbrev F.DBG_CTRL_DEBUG_EN : Fld := ⟨0, 1⟩
abbrev F.DBG_CTRL_CAPTURE : Fld := ⟨1, 1⟩
abbrev F.DBG_CTRL_NM_READ : Fld := ⟨2, 1⟩
abbrev F.DBG_SEL_CORE : Fld := ⟨0, 8⟩
abbrev F.DBG_SEL_KIND : Fld := ⟨8, 2⟩
abbrev F.DBG_SEL_TILE : Fld := ⟨10, 2⟩
abbrev F.DBG_SEL_BAG : Fld := ⟨12, 6⟩
abbrev F.DBG_SEL_INDEX : Fld := ⟨18, 10⟩
abbrev F.DBG_STATUS_BUSY : Fld := ⟨0, 1⟩
abbrev F.DBG_STATUS_UNAVAILABLE : Fld := ⟨1, 1⟩
abbrev F.DBG_NM_SEL_CORE : Fld := ⟨0, 8⟩
abbrev F.DBG_NM_SEL_SET : Fld := ⟨8, 17⟩
abbrev F.DBG_NM_SEL_LINE : Fld := ⟨25, 6⟩
abbrev F.DBG_NM_PAR_PARITY : Fld := ⟨0, 32⟩
abbrev F.DBG_NM_DATAi_DATA : Fld := ⟨0, 64⟩

namespace Machine

def regTable0 : List RegRow := [
  ⟨0x0, 0, 1, 0xEDA702000201, 0x0, 0x0, 0x0, 0, 0, 0⟩,
  ⟨0x108000, 0, 1, 0x0, 0x0, 0xF, 0x0, 4, 16, 4⟩,
  ⟨0x2002000, 0, 1, 0x0, 0x0, 0x0, 0x0, 0, 0, 0⟩,
  ⟨0x2002008, 0, 1, 0x0, 0x0, 0x0, 0x0, 0, 0, 0⟩,
  ⟨0x2002010, 0, 1, 0x0, 0x0, 0x0, 0x0, 0, 0, 0⟩,
  ⟨0x2002018, 0, 1, 0x0, 0x0, 0x0, 0x0, 0, 0, 0⟩,
  ⟨0x2002020, 0, 1, 0x0, 0x0, 0x0, 0x0, 0, 0, 0⟩,
  ⟨0x2002028, 0, 1, 0x0, 0x0, 0x0, 0x0, 0, 0, 0⟩,
  ⟨0x2002030, 0, 1, 0x0, 0x0, 0x0, 0x0, 0, 0, 0⟩,
  ⟨0x1000, 0, 1, 0x0, 0x0, 0x0, 0x0, 0, 0, 0⟩,
  ⟨0x1008, 0, 1, 0x0, 0xFFFFFFFF, 0x0, 0x0, 0, 0, 0⟩,
  ⟨0x1010, 0, 1, 0x0, 0x0, 0x0, 0x0, 0, 0, 0⟩,
  ⟨0x1018, 0, 1, 0x0, 0x0, 0x0, 0x0, 0, 0, 0⟩,
  ⟨0x1020, 0, 1, 0x0, 0x0, 0x0, 0x0, 0, 0, 0⟩,
  ⟨0x1028, 0, 1, 0x0, 0x0, 0x0, 0x0, 0, 0, 0⟩,
  ⟨0x100000, 64, 16, 0x0, 0x0, 0x0, 0x7FFFFFFFFF, 0, 0, 0⟩,
  ⟨0x100008, 64, 16, 0x0, 0x0, 0x0, 0x1FFFFFFFFFFFFC0, 0, 0, 0⟩,
  ⟨0x100010, 64, 16, 0x0, 0x0, 0x0, 0x0, 0, 0, 0⟩,
  ⟨0x100018, 64, 16, 0x0, 0x0, 0x0, 0x0, 0, 0, 0⟩,
  ⟨0x100020, 64, 16, 0x0, 0x0, 0x0, 0x0, 0, 0, 0⟩,
  ⟨0x100800, 0, 1, 0x0, 0x0, 0xF, 0x0, 4, 16, 4⟩,
  ⟨0x2003000, 0, 1, 0x0, 0x0, 0x0, 0x0, 0, 0, 0⟩,
  ⟨0x2003008, 0, 1, 0x0, 0x0, 0x0, 0x0, 0, 0, 0⟩,
  ⟨0x2003010, 0, 1, 0x0, 0x0, 0x0, 0x0, 0, 0, 0⟩,
  ⟨0x2003018, 0, 1, 0x0, 0x0, 0x0, 0x0, 0, 0, 0⟩,
  ⟨0x2003020, 0, 1, 0x0, 0x0, 0x0, 0x0, 0, 0, 0⟩,
  ⟨0x108010, 0, 1, 0x0, 0x0, 0xF, 0x0, 4, 16, 4⟩,
  ⟨0x108018, 0, 1, 0x0, 0x0, 0x0, 0x0, 0, 0, 0⟩,
  ⟨0x2004000, 0, 1, 0x0, 0x0, 0x0, 0x0, 0, 0, 0⟩,
  ⟨0x2004008, 0, 1, 0x0, 0x0, 0x0, 0x0, 0, 0, 0⟩,
  ⟨0x2004010, 0, 1, 0x0, 0x0, 0x0, 0x0, 0, 0, 0⟩,
  ⟨0x2004018, 0, 1, 0x0, 0x0, 0x0, 0x0, 0, 0, 0⟩,
  ⟨0x2004020, 0, 1, 0x0, 0x0, 0x0, 0x0, 0, 0, 0⟩,
  ⟨0x2004028, 0, 1, 0x0, 0x0, 0x0, 0x0, 0, 0, 0⟩,
  ⟨0x2004030, 0, 1, 0x0, 0x0, 0x0, 0x0, 0, 0, 0⟩,
  ⟨0x2004038, 0, 1, 0x0, 0x0, 0x0, 0x0, 0, 0, 0⟩,
  ⟨0x2004040, 0, 1, 0x0, 0x0, 0x0, 0x0, 0, 0, 0⟩,
  ⟨0x2004048, 0, 1, 0x0, 0x0, 0x0, 0x0, 0, 0, 0⟩,
  ⟨0x2004050, 0, 1, 0x0, 0x0, 0x0, 0x0, 0, 0, 0⟩,
  ⟨0x2004058, 0, 1, 0x0, 0x0, 0x0, 0x0, 0, 0, 0⟩,
  ⟨0x2004060, 0, 1, 0x0, 0x0, 0x0, 0x0, 0, 0, 0⟩,
  ⟨0x2004068, 0, 1, 0x0, 0x0, 0x0, 0x0, 0, 0, 0⟩,
  ⟨0x2004070, 0, 1, 0x0, 0x0, 0x0, 0x0, 0, 0, 0⟩,
  ⟨0x2004078, 0, 1, 0x0, 0x0, 0x0, 0x0, 0, 0, 0⟩,
  ⟨0x2004080, 0, 1, 0x0, 0x0, 0x0, 0x0, 0, 0, 0⟩,
  ⟨0x2004088, 0, 1, 0x0, 0x0, 0x0, 0x0, 0, 0, 0⟩,
  ⟨0x2004090, 0, 1, 0x0, 0x0, 0x0, 0x0, 0, 0, 0⟩,
  ⟨0x2004098, 0, 1, 0x0, 0x0, 0x0, 0x0, 0, 0, 0⟩,
  ⟨0x20040A0, 0, 1, 0x0, 0x0, 0x0, 0x0, 0, 0, 0⟩,
  ⟨0x108020, 0, 1, 0x0, 0x0, 0xF, 0x0, 4, 16, 4⟩,
  ⟨0x108028, 0, 1, 0x191, 0xFFF, 0x0, 0x0, 0, 0, 0⟩,
  ⟨0x108100, 16, 16, 0x0, 0x0, 0x0, 0xFFFF, 0, 0, 0⟩,
  ⟨0x108108, 16, 16, 0x0, 0x0, 0x0, 0x0, 0, 0, 0⟩,
  ⟨0x2005000, 0, 1, 0x0, 0x0, 0x0, 0x0, 0, 0, 0⟩,
  ⟨0x2005008, 0, 1, 0x0, 0x0, 0x0, 0x0, 0, 0, 0⟩,
  ⟨0x2005010, 0, 1, 0x0, 0x0, 0x0, 0x0, 0, 0, 0⟩,
  ⟨0x2005018, 0, 1, 0x0, 0x0, 0x0, 0x0, 0, 0, 0⟩,
  ⟨0x2005020, 0, 1, 0x0, 0x0, 0x0, 0x0, 0, 0, 0⟩,
  ⟨0x2005028, 0, 1, 0x0, 0x0, 0x0, 0x0, 0, 0, 0⟩,
  ⟨0x2005030, 0, 1, 0x0, 0x0, 0x0, 0x0, 0, 0, 0⟩]

def regTable1 : List RegRow := [
  ⟨0x2005038, 0, 1, 0x0, 0x0, 0x0, 0x0, 0, 0, 0⟩,
  ⟨0x2005040, 0, 1, 0x0, 0x0, 0x0, 0x0, 0, 0, 0⟩,
  ⟨0x2005048, 0, 1, 0x0, 0x0, 0x0, 0x0, 0, 0, 0⟩,
  ⟨0x2005050, 0, 1, 0x0, 0x0, 0x0, 0x0, 0, 0, 0⟩,
  ⟨0x2005058, 0, 1, 0x0, 0x0, 0x0, 0x0, 0, 0, 0⟩,
  ⟨0x2005060, 0, 1, 0x0, 0x0, 0x0, 0x0, 0, 0, 0⟩,
  ⟨0x2005068, 0, 1, 0x0, 0x0, 0x0, 0x0, 0, 0, 0⟩,
  ⟨0x2005070, 0, 1, 0x0, 0x0, 0x0, 0x0, 0, 0, 0⟩,
  ⟨0x2005078, 0, 1, 0x0, 0x0, 0x0, 0x0, 0, 0, 0⟩,
  ⟨0x2005080, 0, 1, 0x0, 0x0, 0x0, 0x0, 0, 0, 0⟩,
  ⟨0x108030, 0, 1, 0x0, 0x0, 0xF, 0x0, 4, 16, 4⟩,
  ⟨0x108038, 0, 1, 0x0, 0x0, 0x0, 0x0, 0, 0, 0⟩,
  ⟨0x108200, 16, 16, 0x0, 0x0, 0x0, 0x0, 0, 0, 0⟩,
  ⟨0x2006000, 0, 1, 0x0, 0x0, 0x0, 0x0, 0, 0, 0⟩,
  ⟨0x2006008, 0, 1, 0x0, 0x0, 0x0, 0x0, 0, 0, 0⟩,
  ⟨0x2006010, 0, 1, 0x0, 0x0, 0x0, 0x0, 0, 0, 0⟩,
  ⟨0x2006018, 0, 1, 0x0, 0x0, 0x0, 0x0, 0, 0, 0⟩,
  ⟨0x2006020, 0, 1, 0x0, 0x0, 0x0, 0x0, 0, 0, 0⟩,
  ⟨0x2006028, 0, 1, 0x0, 0x0, 0x0, 0x0, 0, 0, 0⟩,
  ⟨0x2006030, 0, 1, 0x0, 0x0, 0x0, 0x0, 0, 0, 0⟩,
  ⟨0x2006038, 0, 1, 0x0, 0x0, 0x0, 0x0, 0, 0, 0⟩,
  ⟨0x2006040, 0, 1, 0x0, 0x0, 0x0, 0x0, 0, 0, 0⟩,
  ⟨0x2006048, 0, 1, 0x0, 0x0, 0x0, 0x0, 0, 0, 0⟩,
  ⟨0x2006050, 0, 1, 0x0, 0x0, 0x0, 0x0, 0, 0, 0⟩,
  ⟨0x2006058, 0, 1, 0x0, 0x0, 0x0, 0x0, 0, 0, 0⟩,
  ⟨0x2006060, 0, 1, 0x0, 0x0, 0x0, 0x0, 0, 0, 0⟩,
  ⟨0x400000, 0, 1, 0x2080A4010026, 0x0, 0x0, 0x3FFFFFFFFFFF, 0, 0, 0⟩,
  ⟨0x400008, 0, 1, 0x0, 0x0, 0x0, 0x1FFFF, 0, 0, 0⟩,
  ⟨0x400010, 0, 1, 0x0, 0x0, 0x1F, 0x0, 0, 0, 0⟩,
  ⟨0x400018, 0, 1, 0x0, 0x0, 0x0, 0x0, 0, 0, 0⟩,
  ⟨0x400020, 0, 1, 0x0, 0x0, 0x0, 0x0, 0, 0, 0⟩,
  ⟨0x400100, 16, 16, 0x0, 0x0, 0x0, 0xFFFFFFFFFFFFFFFF, 0, 0, 0⟩,
  ⟨0x400108, 16, 16, 0x0, 0x0, 0x0, 0xFFFFFFFFFF, 0, 0, 0⟩,
  ⟨0x480000, 0, 1, 0x0, 0x0, 0xF, 0x0, 4, 8, 4⟩,
  ⟨0x480008, 0, 1, 0x4, 0x3F, 0x0, 0x0, 0, 0, 0⟩,
  ⟨0x480100, 16, 8, 0x0, 0x0, 0x0, 0x0, 0, 0, 0⟩,
  ⟨0x2007000, 0, 1, 0x0, 0x0, 0x0, 0x0, 0, 0, 0⟩,
  ⟨0x2007008, 0, 1, 0x0, 0x0, 0x0, 0x0, 0, 0, 0⟩,
  ⟨0x2007010, 0, 1, 0x0, 0x0, 0x0, 0x0, 0, 0, 0⟩,
  ⟨0x2007018, 0, 1, 0x0, 0x0, 0x0, 0x0, 0, 0, 0⟩,
  ⟨0x2007020, 0, 1, 0x0, 0x0, 0x0, 0x0, 0, 0, 0⟩,
  ⟨0x2007028, 0, 1, 0x0, 0x0, 0x0, 0x0, 0, 0, 0⟩,
  ⟨0x2007030, 0, 1, 0x0, 0x0, 0x0, 0x0, 0, 0, 0⟩,
  ⟨0x2007038, 0, 1, 0x0, 0x0, 0x0, 0x0, 0, 0, 0⟩,
  ⟨0x2007040, 0, 1, 0x0, 0x0, 0x0, 0x0, 0, 0, 0⟩,
  ⟨0x2007048, 0, 1, 0x0, 0x0, 0x0, 0x0, 0, 0, 0⟩,
  ⟨0x2007050, 0, 1, 0x0, 0x0, 0x0, 0x0, 0, 0, 0⟩,
  ⟨0x2007058, 0, 1, 0x0, 0x0, 0x0, 0x0, 0, 0, 0⟩,
  ⟨0x2007060, 0, 1, 0x0, 0x0, 0x0, 0x0, 0, 0, 0⟩,
  ⟨0x2007068, 0, 1, 0x0, 0x0, 0x0, 0x0, 0, 0, 0⟩,
  ⟨0x2007070, 0, 1, 0x0, 0x0, 0x0, 0x0, 0, 0, 0⟩,
  ⟨0x2007078, 0, 1, 0x0, 0x0, 0x0, 0x0, 0, 0, 0⟩,
  ⟨0x2007080, 0, 1, 0x0, 0x0, 0x0, 0x0, 0, 0, 0⟩,
  ⟨0x2007088, 0, 1, 0x0, 0x0, 0x0, 0x0, 0, 0, 0⟩,
  ⟨0x200000, 0, 1, 0xA00400000, 0x0, 0x0, 0x1FFFFFFFFF, 0, 0, 0⟩,
  ⟨0x200008, 0, 1, 0x0, 0x0, 0xFF, 0x0, 0, 0, 0⟩,
  ⟨0x200010, 0, 1, 0x0, 0x0, 0x0, 0x0, 0, 0, 0⟩,
  ⟨0x200018, 0, 1, 0x2000000, 0x0, 0x0, 0x0, 0, 0, 0⟩,
  ⟨0x200020, 0, 1, 0x0, 0xFFF, 0x0, 0x0, 0, 0, 0⟩,
  ⟨0x200028, 0, 1, 0x0, 0x0, 0x0, 0x0, 0, 0, 0⟩]

def regTable2 : List RegRow := [
  ⟨0x200030, 0, 1, 0x0, 0x0, 0x0, 0x0, 0, 0, 0⟩,
  ⟨0x200038, 0, 1, 0x0, 0x0, 0x0, 0x0, 0, 0, 0⟩,
  ⟨0x200040, 0, 1, 0x0, 0x0, 0x0, 0x0, 0, 0, 0⟩,
  ⟨0x200048, 0, 1, 0x0, 0x0, 0x0, 0x0, 0, 0, 0⟩,
  ⟨0x200050, 0, 1, 0x0, 0x1FFFFFFFFFFF000, 0x0, 0x0, 0, 0, 0⟩,
  ⟨0x200058, 0, 1, 0x0, 0x1FFFFFFFFFFF, 0x0, 0x0, 0, 0, 0⟩,
  ⟨0x200060, 0, 1, 0x0, 0x0, 0x0, 0x0, 0, 0, 0⟩,
  ⟨0x200068, 0, 1, 0x0, 0x0, 0x0, 0x0, 0, 0, 0⟩,
  ⟨0x200070, 0, 1, 0x0, 0x3F, 0x0, 0x0, 0, 0, 0⟩,
  ⟨0x200078, 0, 1, 0x0, 0x0, 0x0, 0x0, 0, 0, 0⟩,
  ⟨0x200080, 0, 1, 0x0, 0x0, 0x0, 0x0, 0, 0, 0⟩,
  ⟨0x200088, 0, 1, 0x0, 0x0, 0x0, 0x0, 0, 0, 0⟩,
  ⟨0x200090, 0, 1, 0x0, 0x0, 0x0, 0x0, 0, 0, 0⟩,
  ⟨0x200098, 0, 1, 0x0, 0xFFFFFFFF, 0x0, 0x0, 0, 0, 0⟩,
  ⟨0x2000A0, 0, 1, 0x0, 0x0, 0x0, 0x0, 0, 0, 0⟩,
  ⟨0x2000C0, 8, 8, 0x0, 0x0, 0x0, 0x0, 0, 0, 0⟩,
  ⟨0x201000, 8, 64, 0x0, 0x1FFFFFFFFFFFFC1, 0x0, 0x0, 0, 0, 0⟩,
  ⟨0x201200, 16, 16, 0x0, 0x1FFFFFFFFFFFFC1, 0x0, 0x0, 0, 0, 0⟩,
  ⟨0x201208, 16, 16, 0x0, 0xFFFFFFFFFFFFFFFF, 0x0, 0x0, 0, 0, 0⟩,
  ⟨0x2008000, 0, 1, 0x0, 0x0, 0x0, 0x0, 0, 0, 0⟩,
  ⟨0x2008008, 0, 1, 0x0, 0x0, 0x0, 0x0, 0, 0, 0⟩,
  ⟨0x2008010, 0, 1, 0x0, 0x0, 0x0, 0x0, 0, 0, 0⟩,
  ⟨0x2008018, 0, 1, 0x0, 0x0, 0x0, 0x0, 0, 0, 0⟩,
  ⟨0x2008020, 0, 1, 0x0, 0x0, 0x0, 0x0, 0, 0, 0⟩,
  ⟨0x2008028, 0, 1, 0x0, 0x0, 0x0, 0x0, 0, 0, 0⟩,
  ⟨0x2008030, 0, 1, 0x0, 0x0, 0x0, 0x0, 0, 0, 0⟩,
  ⟨0x2008038, 0, 1, 0x0, 0x0, 0x0, 0x0, 0, 0, 0⟩,
  ⟨0x2008040, 0, 1, 0x0, 0x0, 0x0, 0x0, 0, 0, 0⟩,
  ⟨0x2008048, 0, 1, 0x0, 0x0, 0x0, 0x0, 0, 0, 0⟩,
  ⟨0x2008050, 0, 1, 0x0, 0x0, 0x0, 0x0, 0, 0, 0⟩,
  ⟨0x2008058, 0, 1, 0x0, 0x0, 0x0, 0x0, 0, 0, 0⟩,
  ⟨0x2008060, 0, 1, 0x0, 0x0, 0x0, 0x0, 0, 0, 0⟩,
  ⟨0x2008068, 0, 1, 0x0, 0x0, 0x0, 0x0, 0, 0, 0⟩,
  ⟨0x2008070, 0, 1, 0x0, 0x0, 0x0, 0x0, 0, 0, 0⟩,
  ⟨0x2008078, 0, 1, 0x0, 0x0, 0x0, 0x0, 0, 0, 0⟩,
  ⟨0x500000, 0, 1, 0x0, 0x0, 0x0, 0x0, 0, 0, 0⟩,
  ⟨0x500008, 0, 1, 0x7FA00, 0x0, 0x0, 0x7FFFF, 0, 0, 0⟩,
  ⟨0x500010, 0, 1, 0x0, 0x0, 0x3F, 0x0, 6, 6, 6⟩,
  ⟨0x500018, 0, 1, 0x0, 0x0, 0x0, 0x0, 0, 0, 0⟩,
  ⟨0x500020, 0, 1, 0x0, 0x3F, 0x0, 0x0, 0, 0, 0⟩,
  ⟨0x500028, 0, 1, 0x0, 0x0, 0x0, 0x0, 0, 0, 0⟩,
  ⟨0x500030, 0, 1, 0x0, 0x0, 0xFFFFFFFFFFFFFFFF, 0x0, 0, 0, 0⟩,
  ⟨0x500100, 16, 6, 0x0, 0x0, 0x0, 0x0, 0, 0, 0⟩,
  ⟨0x500108, 16, 6, 0x0, 0x0, 0x0, 0x0, 0, 0, 0⟩,
  ⟨0x2009000, 32, 6, 0x0, 0x0, 0x0, 0x0, 0, 0, 0⟩,
  ⟨0x2009008, 32, 6, 0x0, 0x0, 0x0, 0x0, 0, 0, 0⟩,
  ⟨0x2009010, 32, 6, 0x0, 0x0, 0x0, 0x0, 0, 0, 0⟩,
  ⟨0x2009018, 32, 6, 0x0, 0x0, 0x0, 0x0, 0, 0, 0⟩,
  ⟨0x2009100, 0, 1, 0x0, 0x0, 0x0, 0x0, 0, 0, 0⟩,
  ⟨0x2009108, 0, 1, 0x0, 0x0, 0x0, 0x0, 0, 0, 0⟩,
  ⟨0x2009110, 0, 1, 0x0, 0x0, 0x0, 0x0, 0, 0, 0⟩,
  ⟨0x2009118, 0, 1, 0x0, 0x0, 0x0, 0x0, 0, 0, 0⟩,
  ⟨0x2009120, 0, 1, 0x0, 0x0, 0x0, 0x0, 0, 0, 0⟩,
  ⟨0x2009128, 0, 1, 0x0, 0x0, 0x0, 0x0, 0, 0, 0⟩,
  ⟨0x2009130, 0, 1, 0x0, 0x0, 0x0, 0x0, 0, 0, 0⟩,
  ⟨0x2009138, 0, 1, 0x0, 0x0, 0x0, 0x0, 0, 0, 0⟩,
  ⟨0x2009140, 0, 1, 0x0, 0x0, 0x0, 0x0, 0, 0, 0⟩,
  ⟨0x580000, 0, 1, 0x322710, 0x0, 0x0, 0xFFFFFF, 0, 0, 0⟩,
  ⟨0x580008, 0, 1, 0x0, 0x0, 0x0, 0x0, 0, 0, 0⟩,
  ⟨0x580010, 0, 1, 0x0, 0x0, 0x0, 0x0, 0, 0, 0⟩]

def regTable3 : List RegRow := [
  ⟨0x580018, 0, 1, 0x0, 0x0, 0x1F, 0x0, 0, 0, 0⟩,
  ⟨0x580020, 0, 1, 0x0, 0x1FFFFFFFFFFF0FD, 0x0, 0x0, 0, 0, 0⟩,
  ⟨0x580028, 0, 1, 0x0, 0x0, 0x0, 0x0, 0, 0, 0⟩,
  ⟨0x580100, 16, 8, 0x0, 0x0, 0x0, 0xFFFFFFFFFFFFF007, 0, 0, 0⟩,
  ⟨0x580108, 16, 8, 0x0, 0x0, 0x0, 0xFFFFFFFFFFFFF, 0, 0, 0⟩,
  ⟨0x580200, 8, 4, 0x0, 0x0, 0x0, 0xFFFFFFFFFFFFFFFD, 0, 0, 0⟩,
  ⟨0x200A000, 0, 1, 0x0, 0x0, 0x0, 0x0, 0, 0, 0⟩,
  ⟨0x200A008, 0, 1, 0x0, 0x0, 0x0, 0x0, 0, 0, 0⟩,
  ⟨0x200A010, 0, 1, 0x0, 0x0, 0x0, 0x0, 0, 0, 0⟩,
  ⟨0x200A018, 0, 1, 0x0, 0x0, 0x0, 0x0, 0, 0, 0⟩,
  ⟨0x200A020, 0, 1, 0x0, 0x0, 0x0, 0x0, 0, 0, 0⟩,
  ⟨0x200A028, 0, 1, 0x0, 0x0, 0x0, 0x0, 0, 0, 0⟩,
  ⟨0x200A030, 0, 1, 0x0, 0x0, 0x0, 0x0, 0, 0, 0⟩,
  ⟨0x200A038, 0, 1, 0x0, 0x0, 0x0, 0x0, 0, 0, 0⟩,
  ⟨0x200A040, 0, 1, 0x0, 0x0, 0x0, 0x0, 0, 0, 0⟩,
  ⟨0x200A048, 0, 1, 0x0, 0x0, 0x0, 0x0, 0, 0, 0⟩,
  ⟨0x200A050, 0, 1, 0x0, 0x0, 0x0, 0x0, 0, 0, 0⟩,
  ⟨0x200A058, 0, 1, 0x0, 0x0, 0x0, 0x0, 0, 0, 0⟩,
  ⟨0x200A060, 0, 1, 0x0, 0x0, 0x0, 0x0, 0, 0, 0⟩,
  ⟨0x200A068, 0, 1, 0x0, 0x0, 0x0, 0x0, 0, 0, 0⟩,
  ⟨0x100, 0, 1, 0x2F9, 0x7FF, 0x0, 0x0, 0, 0, 0⟩,
  ⟨0x108, 0, 1, 0x0, 0x0, 0x0, 0x0, 0, 0, 0⟩,
  ⟨0x100808, 0, 1, 0x0, 0x0, 0xC00000, 0x0, 0, 0, 0⟩,
  ⟨0x100810, 0, 1, 0x0, 0x0, 0x0, 0x0, 0, 0, 0⟩,
  ⟨0x200B000, 0, 1, 0x0, 0x0, 0x0, 0x0, 0, 0, 0⟩,
  ⟨0x200B008, 0, 1, 0x0, 0x0, 0x0, 0x0, 0, 0, 0⟩,
  ⟨0x200B010, 0, 1, 0x0, 0x0, 0x0, 0x0, 0, 0, 0⟩,
  ⟨0x200B018, 0, 1, 0x0, 0x0, 0x0, 0x0, 0, 0, 0⟩,
  ⟨0x600000, 0, 1, 0x3E800C8, 0x0, 0x0, 0x1FFFFFFFF, 0, 0, 0⟩,
  ⟨0x600008, 0, 1, 0x0, 0xFFFFFFFF, 0x0, 0x0, 0, 0, 0⟩,
  ⟨0x600010, 0, 1, 0x0, 0x0, 0x0, 0x0, 0, 0, 0⟩,
  ⟨0x600018, 0, 1, 0x2EE02EE02EE02EE, 0x0, 0x0, 0x3FF03FF03FF03FF, 0, 0, 0⟩,
  ⟨0x600020, 0, 1, 0x0, 0x0, 0x0, 0x0, 0, 0, 0⟩,
  ⟨0x600028, 0, 1, 0x0, 0x0, 0x0, 0x0, 0, 0, 0⟩,
  ⟨0x600030, 0, 1, 0x258, 0x3FF, 0x0, 0x0, 0, 0, 0⟩,
  ⟨0x600038, 0, 1, 0x0, 0x0, 0x0, 0x0, 0, 0, 0⟩,
  ⟨0x600040, 0, 1, 0x0, 0x0, 0x3F, 0x0, 6, 4, 6⟩,
  ⟨0x600048, 0, 1, 0x3F, 0xFF, 0x0, 0x0, 0, 0, 0⟩,
  ⟨0x600050, 0, 1, 0x0, 0xFFFFFFFFFFFFFFFF, 0x0, 0x0, 0, 0, 0⟩,
  ⟨0x600058, 0, 1, 0x0, 0x0, 0xFF, 0x0, 0, 0, 0⟩,
  ⟨0x600060, 0, 1, 0x0, 0x0, 0x0, 0x0, 0, 0, 0⟩,
  ⟨0x600068, 0, 1, 0x0, 0x0, 0x0, 0x0, 0, 0, 0⟩,
  ⟨0x200C000, 0, 1, 0x0, 0x0, 0x0, 0x0, 0, 0, 0⟩,
  ⟨0x200C008, 0, 1, 0x0, 0x0, 0x0, 0x0, 0, 0, 0⟩,
  ⟨0x200C010, 0, 1, 0x0, 0x0, 0x0, 0x0, 0, 0, 0⟩,
  ⟨0x200C018, 0, 1, 0x0, 0x0, 0x0, 0x0, 0, 0, 0⟩,
  ⟨0x200C020, 0, 1, 0x0, 0x0, 0x0, 0x0, 0, 0, 0⟩,
  ⟨0x200C028, 0, 1, 0x0, 0x0, 0x0, 0x0, 0, 0, 0⟩,
  ⟨0x200C030, 0, 1, 0x0, 0x0, 0x0, 0x0, 0, 0, 0⟩,
  ⟨0x1100, 0, 1, 0x0, 0x0, 0x0, 0x0, 0, 0, 0⟩,
  ⟨0x1108, 0, 1, 0x0, 0xFFFFFFFF, 0x0, 0x0, 0, 0, 0⟩,
  ⟨0x1110, 0, 1, 0x0, 0x0, 0x0, 0x0, 0, 0, 0⟩,
  ⟨0x1118, 0, 1, 0x0, 0x0, 0x0, 0x0, 0, 0, 0⟩,
  ⟨0x1120, 0, 1, 0x0, 0x0, 0x0, 0x0, 0, 0, 0⟩,
  ⟨0x1128, 0, 1, 0x0, 0x0, 0x0, 0x0, 0, 0, 0⟩,
  ⟨0x2000, 0, 1, 0x401388, 0x0, 0x0, 0xFFFFFFFF, 0, 0, 0⟩,
  ⟨0x2008, 0, 1, 0x0, 0x0, 0x0, 0x0, 0, 0, 0⟩,
  ⟨0x2010, 0, 1, 0x0, 0x0, 0x0, 0x0, 0, 0, 0⟩,
  ⟨0x2018, 0, 1, 0x0, 0x0, 0x0, 0x0, 0, 0, 0⟩,
  ⟨0x2020, 0, 1, 0x0, 0x0, 0x0, 0x0, 0, 0, 0⟩]

def regTable4 : List RegRow := [
  ⟨0x2028, 0, 1, 0x0, 0x0, 0x0, 0x0, 0, 0, 0⟩,
  ⟨0x2030, 0, 1, 0x0, 0x0, 0x3F, 0x0, 0, 0, 0⟩,
  ⟨0x2038, 0, 1, 0x0, 0x0, 0x0, 0x0, 0, 0, 0⟩,
  ⟨0x2040, 0, 1, 0x0, 0x0, 0x0, 0x0, 0, 0, 0⟩,
  ⟨0x2100, 8, 16, 0x0, 0x0, 0x0, 0x0, 0, 0, 0⟩,
  ⟨0x2200, 0, 1, 0x0, 0x0, 0x0, 0xFFFFFFFFFFF, 0, 0, 0⟩,
  ⟨0x2208, 0, 1, 0x0, 0x0, 0x0, 0xFFFFFFFFFFFF, 0, 0, 0⟩,
  ⟨0x2210, 0, 1, 0x0, 0x0, 0x0, 0x0, 0, 0, 0⟩,
  ⟨0x2218, 0, 1, 0x0, 0x0, 0x0, 0x0, 0, 0, 0⟩,
  ⟨0x200D000, 0, 1, 0x0, 0x0, 0x0, 0x0, 0, 0, 0⟩,
  ⟨0x200D008, 0, 1, 0x0, 0x0, 0x0, 0x0, 0, 0, 0⟩,
  ⟨0x200D010, 0, 1, 0x0, 0x0, 0x0, 0x0, 0, 0, 0⟩,
  ⟨0x200D018, 0, 1, 0x0, 0x0, 0x0, 0x0, 0, 0, 0⟩,
  ⟨0x200D020, 0, 1, 0x0, 0x0, 0x0, 0x0, 0, 0, 0⟩,
  ⟨0x200D028, 0, 1, 0x0, 0x0, 0x0, 0x0, 0, 0, 0⟩,
  ⟨0x200D030, 0, 1, 0x0, 0x0, 0x0, 0x0, 0, 0, 0⟩,
  ⟨0x200D038, 0, 1, 0x0, 0x0, 0x0, 0x0, 0, 0, 0⟩,
  ⟨0x200D040, 0, 1, 0x0, 0x0, 0x0, 0x0, 0, 0, 0⟩,
  ⟨0x8, 0, 1, 0x0, 0x0, 0x0, 0x0, 0, 0, 0⟩,
  ⟨0x10, 0, 1, 0x0, 0x0, 0x0, 0x0, 0, 0, 0⟩,
  ⟨0x3000, 0, 1, 0x0, 0x0, 0x0, 0x0, 0, 0, 0⟩,
  ⟨0x3008, 0, 1, 0x0, 0x8, 0x0, 0x0, 0, 0, 0⟩,
  ⟨0x3010, 0, 1, 0x0, 0x0, 0x10, 0x0, 0, 0, 0⟩,
  ⟨0x3018, 0, 1, 0x0, 0x1FFFFFFFFFF000, 0x0, 0x0, 0, 0, 0⟩,
  ⟨0x3020, 0, 1, 0x0, 0x0, 0x0, 0x0, 0, 0, 0⟩,
  ⟨0x3028, 0, 1, 0x0, 0x0, 0x0, 0x0, 0, 0, 0⟩,
  ⟨0x3030, 0, 1, 0x0, 0x1, 0x0, 0x0, 0, 0, 0⟩,
  ⟨0x680000, 0, 1, 0x0, 0x0, 0x0, 0x0, 0, 0, 0⟩,
  ⟨0x680008, 0, 1, 0x0, 0xFF, 0x0, 0x0, 0, 0, 0⟩,
  ⟨0x680010, 0, 1, 0x0, 0x0, 0x0, 0x0, 0, 0, 0⟩,
  ⟨0x680100, 8, 64, 0x0, 0x0, 0x0, 0x0, 0, 0, 0⟩,
  ⟨0x200E000, 0, 1, 0x0, 0x0, 0x0, 0x0, 0, 0, 0⟩,
  ⟨0x200E008, 0, 1, 0x0, 0x0, 0x0, 0x0, 0, 0, 0⟩,
  ⟨0x200, 0, 1, 0x0, 0x0, 0x0, 0x0, 0, 0, 0⟩,
  ⟨0x208, 0, 1, 0x1FF, 0x3FFFF, 0x0, 0x0, 0, 0, 0⟩,
  ⟨0x210, 0, 1, 0x0, 0x0, 0x1FF, 0x0, 0, 0, 0⟩,
  ⟨0x218, 0, 1, 0x0, 0x3, 0x0, 0x0, 0, 0, 0⟩,
  ⟨0x220, 0, 1, 0x0, 0x0, 0x7, 0x0, 0, 0, 0⟩,
  ⟨0x2000000, 0, 1, 0x0, 0x2, 0x0, 0x0, 0, 0, 0⟩,
  ⟨0x2000008, 0, 1, 0x0, 0x0, 0x0, 0x0, 0, 0, 0⟩,
  ⟨0x2000100, 8, 8, 0x0, 0x3FFFFF, 0x0, 0x0, 0, 0, 0⟩,
  ⟨0x2000200, 8, 8, 0x0, 0x0, 0x0, 0x0, 0, 0, 0⟩,
  ⟨0x2010000, 8, 144, 0x0, 0x0, 0xFFF, 0x0, 0, 0, 0⟩,
  ⟨0x2010800, 8, 8, 0x0, 0x0, 0xF, 0x0, 0, 0, 0⟩,
  ⟨0x2010900, 0, 1, 0x0, 0x0, 0xF, 0x0, 0, 0, 0⟩,
  ⟨0x3000000, 0, 1, 0x0, 0x1, 0x0, 0x0, 0, 0, 0⟩,
  ⟨0x3000008, 0, 1, 0x0, 0xFFFFFFF, 0x0, 0x0, 0, 0, 0⟩,
  ⟨0x3000010, 0, 1, 0x0, 0x0, 0x0, 0x0, 0, 0, 0⟩,
  ⟨0x3000018, 0, 1, 0x0, 0x0, 0x0, 0x0, 0, 0, 0⟩,
  ⟨0x3000020, 0, 1, 0x0, 0x0, 0x0, 0x0, 0, 0, 0⟩,
  ⟨0x3000028, 0, 1, 0x0, 0x0, 0x0, 0x0, 0, 0, 0⟩,
  ⟨0x3000040, 0, 1, 0x0, 0x7FFFFFFF, 0x0, 0x0, 0, 0, 0⟩,
  ⟨0x3000048, 0, 1, 0x0, 0x0, 0x0, 0x0, 0, 0, 0⟩,
  ⟨0x3000080, 8, 8, 0x0, 0x0, 0x0, 0x0, 0, 0, 0⟩]

/-- Every register of the block. -/
def regTable : List RegRow := regTable0 ++ regTable1 ++ regTable2 ++ regTable3 ++ regTable4

/-- The registers whose reset value is not zero: offset and value. -/
def resetTable : List (Nat × Nat) := [
  (0x0, 0xEDA702000201),
  (0x100, 0x2F9),
  (0x208, 0x1FF),
  (0x2000, 0x401388),
  (0x108028, 0x191),
  (0x200000, 0xA00400000),
  (0x200018, 0x2000000),
  (0x400000, 0x2080A4010026),
  (0x480008, 0x4),
  (0x500008, 0x7FA00),
  (0x580000, 0x322710),
  (0x600000, 0x3E800C8),
  (0x600018, 0x2EE02EE02EE02EE),
  (0x600030, 0x258),
  (0x600048, 0x3F)]

end Machine

end Sys2Proof
end

