-- ==== Sys2Proof/Machine/State.lean ====
section
/-! DEFINITION. The state of the block: every register, queue, store, buffer and pin the manual gives it, as plain data, and the state after reset. -/

namespace Sys2Proof.Machine

/-- Reasons the machine stops. No command of this block stops it: `unreachable` is raised by nobody, and is safe. -/
inductive Fault where
  | unreachable
deriving DecidableEq, Repr

/-- Refused commands. `notModelled` is the answer of an arm without a meaning, and is safe; no arm of this model uses it. -/
inductive Refusal where
  | notModelled (mnemonic : String)
deriving DecidableEq, Repr

/-- What the block drives out of its ports, in order (03 R57, 10 R278, 11 R295, 12 R316). -/
inductive Out where
  | cpt (w0 w1 : Word) (body : List Word)
  | flit (port lane : Nat) (hdr : Word) (payload : Bytes) (crc : Nat)
  | partner (port : Nat) (p : PartnerId)
  | hostWrite (path : Nat) (addr : Nat) (data : Bytes)
  | hostRead (tag : Nat) (path : Nat) (addr len : Nat)
  | hostCpl (tc : Nat) (status : CplStatus) (data : Bytes)
  | regValue (value : Word)
  | instrument (inst : Instrument) (port : PortName) (position : Nat) (data : List Word)
deriving DecidableEq, Repr

/-- A descriptor in the gazetteer, in its 32 words (02 Table 2.1), with the last step of a DRAINING version (R43, R45), the blocks whose release notice is held, and whether this block has released it (R48). -/
structure Desc where
  words : List Word
  lastStep : Nat := 0
  notices : Nat := 0
  released : Bool := false
deriving DecidableEq, Repr

/-! ### Lookups and scatters -/

/-- One segment of a bag (04 R82, R86): bag index, table, COUNT of the bag, segment number and count, and its entries: identifier and weight pattern. -/
structure BagSeg where
  bag : Nat
  table : Nat
  count : Nat
  seg : Nat
  nseg : Nat
  entries : List (Nat × Nat)
deriving DecidableEq, Repr

/-- Where a row or a partial pool of a tile stands (04 R88 to R93, R112). A row this block holds waits for its own meridian of the step before (07 R199). -/
inductive RowSt where
  | need
  | waitStep
  | waitTag
  | waitFault
  | fetching (tag : Nat)
  | have (copy : Bytes)
  | missing
  | notAdmitted
deriving DecidableEq, Repr

/-- Accumulation of one column (05 R126 to R134): the staging accumulator and its steps, the grid accumulator and its carry count, the sum with overflowing terms clamped, terms counted, special terms seen (zinf a 0 × ∞ product of the pool engine, zfold one of the fold array), and the extremes. -/
structure ColAcc where
  stage : BitVec 20 := 0
  steps : Nat := 0
  acc : BitVec 96 := 0
  carry : BitVec 32 := 0
  clamp : Int := 0
  n : Nat := 0
  termOvf : Bool := false
  nan : Bool := false
  pinf : Bool := false
  ninf : Bool := false
  zinf : Bool := false
  zfold : Bool := false
  remote : Bool := false
  best : Option Val := none
deriving DecidableEq, Repr

/-- A partial pool requested from an owner (04 R100 to R103). -/
inductive PartSt where
  | need
  | waitTag
  | sent (tag : Nat)
  | have (cols : List ColAcc) (missing notAdm : Nat)
  | whole
deriving DecidableEq, Repr

structure PartReq where
  owner : Nat
  bag : Nat
  table : Nat
  entries : List (Nat × Nat)
  st : PartSt
deriving DecidableEq, Repr

/-- What the entries of a segment came to on a pass: the columns, flags, entries pooled as the default row, as zero, and missing, and identifiers not admitted; the missing entries that partial pools of the segment's table and of its component report; and the operations of pool lanes and multiply-adds of the fold array that a pass takes. -/
structure Tally where
  accs : List ColAcc
  flags : Flags := {}
  dflt : Nat := 0
  zero : Nat := 0
  miss : Nat := 0
  notAdm : Nat := 0
  missA : Nat := 0
  missB : Nat := 0
  lanes : Nat := 0
  macs : Nat := 0
  pass : Nat := 0
deriving DecidableEq, Repr

/-- A tile (04 R85 to R87): core and its tile slot, epoch of its dispatch, pass, its segments, its rows by table·2^64 + identifier, the rows that this block's directory has given its identifiers in this pass, the raw identifiers whose occurrences have been named, by bag and key (02 R40), the keys whose contours it has raised (08 R212), its partial pools, and its finished bags, whose results leave when the whole tile completes (14 R367). -/
structure Tile where
  id : Nat
  core : Nat
  tslot : Nat := 0
  epoch : Nat
  pass : Nat
  segs : List BagSeg
  rows : List (Nat × RowSt)
  found : List (Nat × Nat)
  named : List (Nat × Nat) := []
  touched : List Nat := []
  parts : List PartReq
  kept : List (Nat × Tally) := []
  accs : List (Nat × List ColAcc)
deriving DecidableEq, Repr

/-- Who uses what a fetch returns. -/
inductive Dest where
  | tile (id key : Nat)
  | part (id : Nat) (owner bag table : Nat)
  | prefetch (queue seq table row : Nat)
  | serve (id key : Nat)
  | opLine (queue seq va : Nat)
  | opWrite (queue seq wid : Nat)
  | window (rid piece : Nat)
  | pin (region entry : Nat)
  | nobody
deriving DecidableEq, Repr

/-- Pool a tag belongs to (04 R92). -/
inductive Pool where
  | own
  | prefetch
  | service
deriving DecidableEq, Repr

/-- Source an outstanding fetch reads, or the translation it still waits for (09 R256). -/
inductive Src where
  | far
  | host
  | peer (block : Nat)
  | window (block : Nat)
  | translation
deriving DecidableEq, Repr

/-- One outstanding fetch (04 R92): its tag, pool, epoch, source, the row it reads, the lines read and their key selectors, and whether the home controller has since replaced the row (08 R214). -/
structure Fetch where
  tag : Nat
  pool : Pool
  epoch : Nat
  src : Src
  dest : Dest
  slot : Nat
  table : Nat
  version : Nat
  row : Nat
  step : Nat
  lines : List (Nat × Nat)
  stale : Bool
  repeated : Bool
deriving DecidableEq, Repr

/-- A fetch whose tag an epoch raise has freed, and whose response is still to come (14 R372): tag, epoch, the block that answers it (none is this block's memory), and the operation that issued it. -/
structure Late where
  tag : Nat
  epoch : Nat
  src : Option Nat
  queue : Nat
  seq : Nat
deriving DecidableEq, Repr

/-- A write an operation has yet to make or have acknowledged: identity, device address, bytes, whether it is outstanding (03 R66); block, window and offset of a line of a remote window, once the whole write has translated (09 R241). -/
structure WLine where
  wid : Nat
  va : Nat
  data : Bytes
  out : Bool
  what : Nat
  remote : Option (Nat × Nat × Nat)
deriving DecidableEq, Repr

inductive OpPlace where
  | issued
  | running
  | aside
  | ended
deriving DecidableEq, Repr

/-- Progress of a started operation: reading its inputs, waiting for its bank, running, waiting for its writes, flushing host paths, publishing, delivering. -/
inductive OpPhase where
  | fresh
  | bank
  | run
  | drain
  | flush
  | publish
  | deliver
deriving DecidableEq, Repr

/-- An operation that is issued, running, standing aside, or ended and waiting for its cartouche (03 R62 to R75). A scatter keeps its sums by table·2^64 + target (06 R157), the gradients of its entry weights by bag, and those of its projections by table (06 R156). An abort that finds it running in a group that is not abortable is recorded (03 R74). It holds a copy of each bound descriptor, by table, from its start (02 R26). -/
structure Op where
  queue : Nat
  seq : Nat
  words : List Word
  place : OpPlace
  phase : OpPhase
  cond : Nat
  vlogs : Nat
  firstVlog : Nat
  bound : List (Nat × Nat)
  descs : List (Nat × Desc)
  effectDue : Bool
  endNow : Bool
  lines : List (Nat × Bytes)
  reads : List Nat
  writes : List WLine
  nextWid : Nat
  units : List (Nat × Bytes)
  lastUnit : Option Nat
  cut : Nat
  nTiles : Nat
  queueTiles : List Tile
  tiles : List Tile
  status : List (Nat × Nat)
  rowAt : Nat
  results : List (Nat × Bytes × Bool)
  resultsDone : Bool
  bank : Nat
  waitRb : Bool
  bags : Nat
  flagged : Nat
  stale : Nat
  counted : Nat
  settled : Nat
  lastIn : Nat
  stalled : Bool
  paths : Nat
  flushes : Nat
  sums : List (Nat × List Int)
  wgrad : List (Nat × Bytes)
  pgrad : List (Nat × List Val)
  pos : Nat
  pubMem : Bool
  abortNoted : Bool
  cart : List Word
deriving DecidableEq, Repr

/-- A numbered message that arrived early (03 R58). -/
structure Early where
  w0 : Word
  w1 : Word
  body : List Word
deriving DecidableEq, Repr

/-- A staged command: its SEQ, its QWORDs, what has already decided its end, and the violation log entries made for it. -/
structure Staged where
  seq : Nat
  words : List Word
  aborted : Bool
  violated : Bool
  vlogs : Nat
  firstVlog : Nat
deriving DecidableEq, Repr

/-- Data of one operation still in the queue's staging: units by OFFSET, the number of units at LAST, and the data credit its messages took. -/
structure Stream where
  units : List (Nat × Bytes)
  last : Option Nat
  n : Nat := 0
deriving DecidableEq, Repr

/-- A command queue (03 R55, R57 to R62, R78). State 0 DISABLED, 1 RUNNING, 2 STOPPED. A SEQ not yet assigned that a breach of its data has named is doomed to end VIOLATION: its SEQ, its violation log entries, the first of them (03 Table 3.13). -/
structure Queue where
  state : Nat := 0
  nextSeq : Nat := 0
  staged : List Staged := []
  data : List (Nat × Stream) := []
  rxNext : Nat := 0
  txNext : Nat := 0
  early : List (Nat × Early) := []
  cmdGrant : Nat := 0
  cmdUsed : Nat := 0
  dataGrant : Nat := 0
  dataUsed : Nat := 0
  resGrant : Nat := 0
  resUsed : Nat := 0
  anyIssued : Bool := false
  lastStep : Nat := 0
  gsStep : Nat := 0
  gsCount : Nat := 0
  merAny : Bool := false
  merStep : Nat := 0
  maxStep : Nat := 0
  doomed : List (Nat × Nat × Nat) := []
  nextCart : Nat := 1
  renotice : Bool := false
deriving DecidableEq, Repr

/-! ### Serving peers -/

/-- A request an owner serves (04 R90, R101): where its answer goes, whether an earlier request has named its occurrences, the coarse legend once read, the identifiers it names in their order, where each one's row stands, the row of an admitted identifier, and, for a partial pool, its entries as identifier, FP32 weight and multiplicity. -/
structure Serve where
  id : Nat
  part : Bool
  src : Nat
  jobId : Nat
  slot : Nat
  table : Nat
  version : Nat
  step : Nat
  epoch : Nat
  tag : Nat
  raw : Bool
  again : Bool
  held : Bool
  legend : Option Bytes
  order : List Nat
  rows : List (Nat × RowSt)
  found : List (Nat × Nat)
  inset : List Nat
  entries : List (Nat × Nat × Nat)
  mode : Nat
  grid : Int
deriving DecidableEq, Repr

/-! ### Near memory -/

/-- A piece of a cached entry (08 R210, Table 8.1): vault, set, first line, lines. -/
structure Piece where
  vault : Nat
  set : Nat
  first : Nat
  lines : Nat
deriving DecidableEq, Repr

/-- An entry of the cache band (08 R210): its key, kind, lock, the selector its lines are stored under, bytes and pieces; CONTENT_STEP and EXPIRY of an inset (R225). -/
structure NEntry where
  slot : Nat
  table : Nat
  version : Nat
  row : Nat
  kind : Nat
  lock : Bool
  key : Nat
  data : Bytes
  content : Nat
  expiry : Nat
  pieces : List Piece
deriving DecidableEq, Repr

/-- Lines retired of a set, by their number in the set, and its DEAD bit: data line l of a cache set is line 4 + l (08 R210, R230). -/
structure VSet where
  retired : Nat := 0
  dead : Bool := false
deriving DecidableEq, Repr

/-- An entry of the side prefetch buffer (08 R217, 04 R115). -/
structure PfEntry where
  queue : Nat
  seq : Nat
  slot : Nat
  table : Nat
  version : Nat
  row : Nat
  m : Nat
  data : Bytes
  usable : Bool
  used : Bool
deriving DecidableEq, Repr

/-- An entry of the inset directory (08 R209, R224). -/
structure IDir where
  slot : Nat
  table : Nat
  version : Nat
  row : Nat
  vault : Nat
  set : Nat
  holders : Nat
  expiry : Nat
deriving DecidableEq, Repr

/-- A slot of the pin band (08 R222): whether it is valid, its row, the selector its lines are stored under, and its copy. -/
structure PinSlot where
  valid : Bool
  row : Nat
  key : Nat
  data : Bytes
deriving DecidableEq, Repr

/-- A withdrawal or purge waiting for acknowledgements (08 R226, R227): the block and ESEQ of each packet still owed one, and what waits: 0 a GZ_ROWMODE, 1 an invalidation, 2 a migration, 3 grants of insets. -/
structure Await where
  owed : List (Nat × Nat)
  what : Nat
deriving DecidableEq, Repr

/-! ### Translation -/

/-- A buffered range entry or hole (09 R248). typ 0 is a hole; 1 FAR, 2 HOST, 3 REMOTE, 4 POISON. ctx carries 64 + w for window w. -/
structure TEnt where
  ctx : Nat
  lo : Nat
  hi : Nat
  typ : Nat
  rd : Bool
  wr : Bool
  acct : Bool
  key : Nat
  target : Nat
  fatal : Bool
deriving DecidableEq, Repr

/-- A request that waits on a fault, or is parked (09 R255, R256). -/
inductive Waiter where
  | tileRow (queue seq tile key : Nat)
  | serveRow (id key : Nat)
  | opRead (queue seq va : Nat)
  | opWrite (queue seq wid : Nat)
  | update (slot key : Nat)
  | winReq (src : Nat) (p : Packet)
  | probe
deriving DecidableEq, Repr

structure TReq where
  client : Nat
  ctx : Nat
  va : Nat
  write : Bool
  source : Nat
  who : Waiter
deriving DecidableEq, Repr

/-- A faulting request that found no slot: the kind and range of its fault (09 R255). -/
structure Parked where
  kind : Nat
  lo : Nat
  hi : Nat
  req : TReq
deriving DecidableEq, Repr

/-- A pending slot of the fault queue (09 Table 9.7), its place in the order of arrival, and the requests that wait on it. -/
structure FqSlot where
  gen : Nat
  kind : Nat
  ctx : Nat
  write : Bool
  source : Nat
  merged : Nat
  addr : Nat
  lo : Nat
  hi : Nat
  order : Nat
  waiters : List TReq
deriving DecidableEq, Repr

/-- An invalidation in progress (09 R260 to R262). -/
structure Inval where
  range : Bool
  all : Bool
  ctx : Nat
  lo : Nat
  hi : Nat
  seq : Nat
deriving DecidableEq, Repr

/-! ### Gradients, updates -/

/-- A residual (06 R162, R164): the step that last wrote it, whether it is in the pending layer, and whether a MERIDIAN's flush wrote it there. A pending one of zeros stands for a consumed one. -/
structure Resid where
  table : Nat
  version : Nat
  target : Nat
  step : Nat
  pending : Bool
  flush : Bool
  vals : List Int
deriving DecidableEq, Repr

/-- One block of a gradient record (06 Table 6.4): form, exponent, integers. -/
structure GBlock where
  form : Nat
  s : Int
  codes : List Int
deriving DecidableEq, Repr

/-- A gradient record (06 Table 6.3). -/
structure GRec where
  jobId : Nat
  table : Nat
  version : Nat
  digest : Nat
  step : Nat
  epoch : Nat
  target : Nat
  count : Nat
  combine : Bool
  blocks : List GBlock
deriving DecidableEq, Repr

/-- A record held in staging until its step's meridian completes (06 R177; 14 R380): destination; 0 a scatter's, 1 a correction of a flush, 2 one that was forwarded. -/
structure Sent where
  dest : Nat
  kind : Nat
  r : GRec
deriving DecidableEq, Repr

/-- A total at the owner (06 R165): the step of the records merged, their COUNT, one integer per element, and whether its row's part in the meridian is over; it is cleared with the others (06 R174, item 3). -/
structure Total where
  table : Nat
  version : Nat
  row : Nat
  step : Nat
  count : Nat
  vals : List Int
  done : Bool := false
deriving DecidableEq, Repr

/-- A phase marker held (06 R173): sender, closed-through step, COUNT. -/
structure Marker where
  src : Nat
  step : Nat
  count : Nat
deriving DecidableEq, Repr

/-- An admission pass under way (02 R41, R42; 07 R204): the sheets left, by table and version, of which the head is being passed; the buckets left of it, once its sweep cursor is read; and of the bucket at their head, once its BUCKET entry is logged, the entry's ledger slot and the admitted rows whose parts are yet to be written, by identifier and local index. It may wait on a fault. -/
structure PassAt where
  sheets : List (Nat × Nat)
  buckets : Option (List Nat) := none
  entry : Option Nat := none
  rows : List (Nat × Nat) := []
  waits : Bool := false
deriving DecidableEq, Repr

/-- A job's meridian on this block (06 R173, R174; CMD_GS_Jj_STEP.MSTATE): its step and phase, the rows yet to be dispatched, the conditions of its updates, whether its refresh markers are out, whether phase 1 is due again with a new sheet epoch (14 R380), whether it is completed after a warm restart (07 R206), and its admission pass once begun. -/
structure Mer where
  step : Nat
  phase : Nat
  todo : List Nat
  cond : Nat
  marksSent : Bool
  redo : Bool
  resume : Bool
  pass : Option PassAt := none
deriving DecidableEq, Repr

/-- The gradient side of a job slot (06 R162 to R174): phase markers held; COUNTs sent and forwarded by block since the last marker; COUNTs received by step; records and markers held in staging; residuals; totals; occurrences of the step (02 R40); records that wait; conditions a step's MERIDIAN will carry, by step. -/
structure Job where
  mark1 : List Marker := []
  mark2 : List Marker := []
  sentTo : List (Nat × Nat) := []
  fwdTo : List (Nat × Nat) := []
  recv : List (Nat × Nat) := []
  fwdRecv : List (Nat × Nat) := []
  sentRecs : List Sent := []
  sentMarks : List (Nat × Nat × Nat × Nat) := []
  resid : List Resid := []
  totals : List Total := []
  occ : List (Nat × Nat) := []
  occDrop : List Nat := []
  held : List (Nat × Packet × Bool) := []
  refreshed : List (Nat × Nat) := []
  mer : Option Mer := none
  merNext : List Nat := []
  conds : List (Nat × Nat) := []
  closedAny : Bool := false
deriving DecidableEq, Repr

/-- A ledger slot as it stands in far memory (07 Table 7.4): STATE 1 LOGGED, 2 RETIRED; absent is FREE. Beside the manual's fields, an entry of a PRECOND row holds where the lines of P stood: recovery has no other way to P (DESIGN CHOICE, log 14). -/
structure LSlot where
  row : Nat
  table : Nat
  state : Nat
  bucket : Bool
  slot : Nat
  step : Nat
  version : Nat
  engine : Nat
  widthCode : Nat
  rule : Nat
  addrs : List Nat
  keys : List Nat
  payload : List Nat
  check : Nat
  prec : List (Nat × Nat) := []
deriving DecidableEq, Repr

/-- An update in flight (07 R196): which unit is unacknowledged, the bytes of its parts, and the working copy derived from them where the legend was at hand. stage 0 entry, 1 state record, 2 weight part, 3 retirement. -/
structure Flight where
  ledger : Nat
  stage : Nat
  entry : LSlot
  job : Nat
  state : Bytes
  weight : Bytes
  copy : Option Bytes
  core : Option Nat
  satur : Bool
  nanw : Bool
  desc : Desc
deriving DecidableEq, Repr

/-- What a job slot's line of the journal page says (15 Table 15.1). -/
structure Journal where
  step : Nat := 0
  isOpen : Bool := false
  jobId : Nat := 0
  admTable : Nat := 0
  admBucket : Nat := 0
  base : Nat := 0
  storeCfg : Nat := 0
  ctx : Nat := 0
  sheetEpoch : Nat := 0
deriving DecidableEq, Repr

/-! ### Peer links -/

/-- A packet, or a link message of one flit, that an output port sends and keeps in its replay buffer (10 R274, R275): the packet and its VC, or the message's payload; and the absolute sequence numbers of its flits sent so far. -/
structure Replay where
  pkt : Option Packet
  link : Bytes
  vc : Nat
  seqs : List Nat
deriving DecidableEq, Repr

/-- What a peer port holds beside LNK_Pk_STATUS (10 R271 to R289): training step, sequence numbers as absolute counts (FSEQ is their low 12 bits), replay buffer, NAKs received in succession for one flit, the last NAK sent with its time, flits received and not yet acknowledged, credits in use and credits to return by 3 × CLASS + VC, flits sent since flit lock, the one of REQ and GRAD served last (R276), flits of packets not yet whole, whether a HANDOFF is awaited, whether one is still to be sent, and the last flit of the last whole packet accepted. -/
structure PortSt where
  step : Nat := 0
  txSeq : Nat := 0
  rxSeq : Nat := 0
  acked : Nat := 0
  replay : List Replay := []
  naks : Nat := 0
  nakFor : Nat := 0
  nakSent : Option (Nat × Nat) := none
  owed : Nat := 0
  used : List (Nat × Nat) := []
  freed : List (Nat × Nat) := []
  flits : Nat := 0
  turn : Nat := 2
  part : List (Nat × List Bytes) := []
  handoff : Bool := false
  owes : Bool := false
  lastPkt : Option Nat := none
deriving DecidableEq, Repr

/-- A compass entry (10 R282): minimal ports, escape port (6 this block, 7 unreachable), hops. -/
structure CEnt where
  minMask : Nat
  esc : Nat
  hops : Nat
deriving DecidableEq, Repr

/-- A record of the link-state map (10 R281). -/
structure LinkRec where
  state : Nat
  width : Nat
  version : Nat
deriving DecidableEq, Repr

/-- An ordered stream with a peer (10 R285): next ESEQ to send, packets unacknowledged, packets beyond the limit of 16 KiB, next ESEQ expected, packets that came early with their ports, and packets delivered and not yet acknowledged. -/
structure OStream where
  tx : Nat := 0
  unacked : List (Nat × Packet) := []
  waiting : List (Nat × Packet) := []
  rx : Nat := 0
  early : List (Nat × Nat × Packet) := []
  owed : Nat := 0
deriving DecidableEq, Repr

/-- A packet that has come whole out of its flits: port, VC, flits it holds in its receive buffer, packet (10 R276, R277). -/
structure Arrival where
  port : Nat
  vc : Nat
  n : Nat
  p : Packet
deriving DecidableEq, Repr

/-- A record held by an in-link adder (06 R170). -/
structure AddHold where
  port : Nat
  dest : Nat
  p : Packet
  r : GRec
deriving DecidableEq, Repr

/-- A forwarded register access outstanding at the root (10 R290). -/
structure FwdAcc where
  reqId : Nat
  target : Nat
  write : Bool
  width : Nat
  tc : Nat
deriving DecidableEq, Repr

/-! ### Host port -/

/-- A read of host memory outstanding, or waiting to be issued (11 R303): its tag, path, address, length, user; the context, device address and selector that it was translated under. flush reads carry Dest.nobody and their operation, and were translated under nothing. -/
structure HRead where
  tag : Nat
  path : Nat
  addr : Nat
  len : Nat
  dest : Dest
  opq : Nat
  opseq : Nat
  flush : Bool
  issued : Bool
  got : Option Bytes
  ctx : Nat := 0
  va : Nat := 0
  key : Nat := 0
  /-- Its place in the order of what leaves by the port. -/
  seq : Nat
deriving DecidableEq, Repr

/-- A host write in the retry buffer (sent, not yet acknowledged) or queued behind a retrain (11 R309); the context, device address and selector it was translated under. -/
structure HWrite where
  path : Nat
  addr : Nat
  ctx : Nat
  va : Nat
  key : Nat
  data : Bytes
  opq : Nat
  opseq : Nat
  sent : Bool
  /-- Its place in the order of what leaves by the port. -/
  seq : Nat
deriving DecidableEq, Repr

/-- A completion that waits behind a retrain of the host port (11 R309): its place in the order, path, status and data. -/
structure HCpl where
  seq : Nat
  tc : Nat
  status : CplStatus
  data : Bytes
deriving DecidableEq, Repr

/-- A request of the host as it arrives: traffic class, host-port address, length, data of a write (11 R297); or a breach of protocol, with the first bytes of its header (11 R313). -/
structure HostReq where
  tc : Nat
  write : Bool
  addr : Nat
  len : Nat
  data : Bytes
  bad : Option (BadRequest × Word) := none
deriving DecidableEq, Repr

/-- What a crossing holds while its partition is in reset (13 R345, R347; 14 R375, Table 14.5): a message, a host request, a completion of a host read, a packet for this block, or one that passes through. -/
inductive Crossed where
  | message (w0 w1 : Word) (body : List Word)
  | host (q : HostReq)
  | completion (tag : Nat) (status : CplStatus) (data : Bytes)
  | packet (kind port : Nat) (p : Packet)
  | passing (port : Nat) (p : Packet)
deriving DecidableEq, Repr

/-- States of the TAP controller (12 R335; IEEE 1149.1). -/
inductive TapState where
  | testLogicReset
  | runTestIdle
  | selectDr
  | captureDr
  | shiftDr
  | exit1Dr
  | pauseDr
  | exit2Dr
  | updateDr
  | selectIr
  | captureIr
  | shiftIr
  | exit1Ir
  | pauseIr
  | exit2Ir
  | updateIr
deriving DecidableEq, Repr

/-- A piece of a window request: its place in the request, its bytes, and the window of another block, or the physical address and key, that it reaches (11 R301). far pieces are carried out when the rest is done. -/
structure WinPiece where
  pos : Nat
  n : Nat
  far : Bool
  block : Nat
  win : Nat
  off : Nat
  key : Nat
  data : Bytes
  done : Bool
deriving DecidableEq, Repr

/-- A host window request in progress (11 R301): its context, device address and window offset, its pieces, and whether HST_WIN_CFG has been written since (R302). -/
structure WinReq where
  rid : Nat
  ctx : Nat
  va : Nat
  tc : Nat
  write : Bool
  off : Nat
  len : Nat
  pieces : List WinPiece
  old : Bool
deriving DecidableEq, Repr

/-! ### Power, fences, bring-up -/

/-- A fence in progress (14 R369): physical core, cause, and the position of the spare in test. -/
structure Fence where
  core : Nat
  cause : Nat
  spare : Nat
deriving DecidableEq, Repr

/-- A reset of a cluster or partition in progress (14 R375). -/
structure Scope where
  partition : Bool
  index : Nat
deriving DecidableEq, Repr

/-- A migration in progress (14 R383 to R386): the sheet, its two owners and the cutover step; and at the old owner the copy cursors in rows and buckets, the local indices and buckets to send again, the always-on time before which no further part leaves, the messages of a part yet to be acknowledged, and how far the last steps have come, the new owner's MIG_READY among them. -/
structure Mig where
  slot : Nat
  table : Nat
  version : Nat
  sheet : Nat
  owner : Nat
  dest : Nat
  step : Nat
  next : Nat
  dirNext : Nat
  again : List Nat
  againDir : List Nat
  notBefore : Nat
  out : Nat
  last : Bool
  withdrawn : Bool
  cut : Bool
  ready : Bool := false
deriving DecidableEq, Repr

/-- A firmware image slot (15 R404, R405): whether its image is whole, and the image. -/
structure FwSlot where
  whole : Bool
  image : Bytes
deriving DecidableEq, Repr

/-- Physical state of a core position (01 R15, 14 R366, 17 R444). mark 0 disabled, 1 enabled, 2 spare. -/
structure Pos where
  mark : Nat
  logical : Nat
  fenced : Bool
  isolated : Bool
deriving DecidableEq, Repr

/-- A violation or error log entry: four words. -/
structure LogEnt where
  w0 : Nat
  w1 : Nat
  w2 : Nat
  w3 : Nat
deriving DecidableEq, Repr

set_option maxRecDepth 2000 in
/-- The whole block, and the queue of commands that wait for it. -/
structure State where
  pending : List Instr
  fresh : Nat
  out : List Out
  -- registers by offset; absent is the reset value
  regs : List (Nat × Word)
  staged : List (Nat × Word)
  aon : Nat
  -- pins, straps, power
  vin : Bool
  pwrGood : Bool
  blkRst : Bool
  hstRst : Bool
  cptPrst : Bool
  -- BLK_RST_N is high: the levels of the straps
  rstHigh : Option Straps
  -- a release of BLK_RST_N that has yet to take effect: earlier than 1 ms after the rise of PWR_GOOD (12 R326)
  released : Option Straps
  hbmReleased : Nat
  selfRefresh : Nat
  straps : Straps
  clocksBad : Nat
  powered : Bool
  -- 0 running, 1 NAP, 2 DEEP, 3 entering DEEP, 4 entering NAP, 5 entering DEEP with its ports out of service (13 R357 to R361)
  pmode : Nat
  -- the time at which the last step of an entry is reached
  modeAt : Nat
  therm : List Nat
  pwrCeil : Nat
  volts : List Nat
  temps : List (Nat × Int)
  energy : Nat
  fast : Bool
  contourDue : Nat
  tagNs : Nat
  -- ports out of service for DEEP, and those of them whose HANDOFF has not come
  deepOff : List Nat
  deepWait : List Nat
  -- bring-up
  stage : Nat
  startMode : Nat
  keyWait : Bool
  ledgerGone : Bool
  /-- Lines 0 and 1 of the journal page, and the lines of its job slots, as stored (15 R390, Table 15.1). -/
  page : Bytes
  journal : List (Nat × Bytes)
  /-- The job slots whose journal lines a warm restart has found, and that are not enabled again yet (07 R206). -/
  resuming : List Nat
  stackId : List Word
  factory : List Nat
  fieldRepair : List (Nat × Nat)
  repairList : List (Nat × VSet)
  fwSlots : List FwSlot
  fwRun : Nat
  fwPref : Nat
  fwBusy : Bool
  -- cores
  pos : List Pos
  fence : Option Fence
  fenceQ : List (Nat × Nat)
  scopes : List Scope
  -- operations
  queues : List Queue
  rr : Nat
  ops : List Op
  elog : List (Nat × LogEnt)
  vlog : List (Nat × LogEnt)
  gaz : List (Nat × Desc)
  fetches : List Fetch
  late : List Late
  tagWait : List (Pool × Dest)
  /-- Those of them that wait for the limits on fills of spilled rows, and the time from which the next such fill may start (08 R238). -/
  spillWait : List Dest
  spillAt : Nat
  serves : List Serve
  serveHeld : List (Nat × Packet)
  nextId : Nat
  -- near memory
  near : List NEntry
  vsets : List (Nat × VSet)
  /-- Places of the pinned regions in the pin band (08 R222): region, base line, lines of a slot. -/
  pinPlan : List (Nat × Nat × Nat)
  /-- Retired lines of the pin band that the last check excluded (08 R230): vault * 2^23 + line of the band, rising. -/
  pinSkip : List Nat
  /-- Lines of near memory that have shown a parity error (08 R230): vault * 2^23 + set * 64 + line. -/
  nmErrs : List Nat
  victim : List (Nat × NEntry)
  prefetched : List PfEntry
  contours : List (Nat × Nat)
  idir : List IDir
  markerM : List (Nat × Nat)
  pins : List (Nat × PinSlot)
  awaits : List Await
  -- far memory
  far : List Host.Cell
  /-- How often far memory has lost its contents, by a test or with its supply (15 R396). -/
  farGen : Nat
  /-- The HBM ports that are FAILED (12 R323). -/
  hbmDown : Nat
  lineKey : List (Nat × Nat)
  ueLines : List Nat
  ledger : List (Nat × LSlot)
  flights : List (Nat × Flight)
  jobs : List Job
  stores : List (Nat × Nat)
  -- translation
  l1 : List (Nat × List TEnt)
  l2 : List TEnt
  fq : List (Nat × FqSlot)
  fqGen : List (Nat × Nat)
  parked : List Parked
  /-- Requests their clients hold back until a parked request of the same context is queued (09 R255). -/
  unissued : List TReq
  /-- The waiting request that an answer issues again (09 R257). -/
  reissued : Option Waiter
  keys : List (Nat × Nat)
  /-- The key under which the block-private regions are written (09 R250). -/
  privKey : Nat
  keyData : List Nat
  keyPend : List (Nat × Option Nat)
  hot : List (Nat × Nat)
  hotHeld : List Nat
  hotRing : List (Nat × Word)
  inval : Option Inval
  -- links
  ports : List PortSt
  linkMap : List (Nat × LinkRec)
  compass : List (Nat × CEnt)
  oldEsc : List (Nat × Nat × List (Nat × Nat))
  sendQ : List (Option Nat × Packet)
  ostreams : List (Nat × OStream)
  holds : List AddHold
  fwd : List FwdAcc
  nextReq : Nat
  unreach : List Nat
  arrived : List Arrival
  kept : List Arrival
  -- host and compute ports
  hreads : List HRead
  hwrites : List HWrite
  hostCpls : List HCpl
  /-- The next place in the order of what leaves by the host port. -/
  hostSeq : Nat
  hostHeld : List HostReq
  /-- The host port was HELD when its retrain began (11 R309, R310). -/
  hstHeld : Bool
  winReqs : List WinReq
  cptMods : List Nat
  /-- The last messages that each module has carried, the oldest first, and the messages that wait for a module (12 R320). -/
  cptSent : List (Nat × Out)
  cptHeld : List Out
  crossing : List Crossed
  tap : TapState
  -- fencing, migration
  lost : List Nat
  restart : List (Nat × Nat)
  replies : List (Nat × Nat)
  mig : Option Mig
  migHeld : List Packet
  -- management
  snap : List (Nat × Word)
  snapBusy : Bool
  halves : List (Nat × Word)
  capBusy : Bool
  /-- DBG_SEL as a CAPTURE found it, and DBG_NM_SEL of an NM_READ that waits for that capture (17 R446, R448). -/
  capSel : Word
  nmDue : Option Word
  lastAcc : List (Nat × Nat)
deriving DecidableEq, Repr

/-- Factory marks of the 144 positions: eight enabled and one spare in each cluster (DESIGN CHOICE, log 4). -/
def State.factoryMarks : List Nat := (List.range 144).map fun i => if i % 9 = 8 then 2 else 1

/-- The machine right after reset: VIN and PWR_GOOD up, BLK_RST_N asserted, every register at its reset value, nothing in any store (12 R326, R329; DESIGN CHOICE, log 4). -/
def State.reset : State where
  pending := []
  fresh := 0
  out := []
  regs := []
  staged := []
  aon := 0
  vin := true
  pwrGood := true
  blkRst := true
  hstRst := true
  rstHigh := none
  released := none
  cptPrst := true
  hbmReleased := 0
  selfRefresh := 0
  straps := { xc := 0, yc := 0, zc := 0, xd := 1, yd := 1, zd := 1, host := true }
  clocksBad := 0
  powered := true
  pmode := 0
  modeAt := 0
  therm := [750, 750, 750, 750]
  pwrCeil := 900
  volts := [0, 0, 0, 0]
  temps := []
  energy := 0
  fast := false
  contourDue := 0
  tagNs := 0
  deepOff := []
  deepWait := []
  stage := 0
  startMode := 0
  keyWait := false
  ledgerGone := false
  page := []
  journal := []
  resuming := []
  stackId := []
  factory := State.factoryMarks
  fieldRepair := []
  repairList := []
  fwSlots := [{ whole := true, image := [] }, { whole := false, image := [] }]
  fwRun := 0
  fwPref := 0
  fwBusy := false
  pos := List.replicate 144 { mark := 0, logical := 0, fenced := false, isolated := false }
  fence := none
  fenceQ := []
  scopes := []
  queues := List.replicate 16 {}
  rr := 0
  ops := []
  elog := []
  vlog := []
  gaz := []
  fetches := []
  late := []
  tagWait := []
  spillWait := []
  spillAt := 0
  serves := []
  serveHeld := []
  nextId := 0
  near := []
  vsets := []
  pinPlan := []
  pinSkip := []
  nmErrs := []
  victim := []
  prefetched := []
  contours := []
  idir := []
  markerM := []
  pins := []
  awaits := []
  far := []
  farGen := 0
  hbmDown := 0
  lineKey := []
  ueLines := []
  ledger := []
  flights := []
  jobs := List.replicate 16 {}
  stores := []
  l1 := []
  l2 := []
  fq := []
  fqGen := []
  parked := []
  unissued := []
  reissued := none
  keys := []
  privKey := 0
  keyData := [0, 0, 0, 0, 0, 0, 0, 0]
  keyPend := []
  hot := []
  hotHeld := []
  hotRing := []
  inval := none
  ports := List.replicate 6 {}
  linkMap := []
  compass := []
  oldEsc := []
  sendQ := []
  ostreams := []
  holds := []
  fwd := []
  nextReq := 0
  unreach := []
  arrived := []
  kept := []
  hreads := []
  hwrites := []
  hostCpls := []
  hostSeq := 0
  hostHeld := []
  hstHeld := false
  winReqs := []
  cptMods := [0, 0, 0, 0, 0, 0, 0, 0]
  cptSent := []
  cptHeld := []
  crossing := []
  tap := .testLogicReset
  lost := []
  restart := []
  replies := []
  mig := none
  migHeld := []
  snap := []
  snapBusy := false
  halves := []
  capBusy := false
  capSel := 0
  nmDue := none
  lastAcc := []

end Sys2Proof.Machine
end

