-- ==== Sys2Proof/Machine/Ops.lean ====
section
/-! DEFINITION. The shared operations over State: registers and counters, logs, outputs, job slots, far memory and its keys. -/

namespace Sys2Proof.Machine

/-! ### Registers -/

/-- Reset value of a register (the tables of chapters 00 to 17). -/
def resetReg (off : Nat) : Word := word (mgetD off 0 resetTable)

/-- A register as last written, or its reset value. -/
def rget (s : State) (off : Nat) : Word := (mfind off s.regs).getD (resetReg off)

def rset (off : Nat) (w : Word) (s : State) : State := { s with regs := mput off w s.regs }

/-- A field of a register. -/
def fget (s : State) (off : Nat) (f : Fld) : Nat := wbits (rget s off) f.lo f.n

/-- A field of a register's value. -/
def wfield (w : Word) (f : Fld) : Nat := wbits w f.lo f.n

def fset (off : Nat) (f : Fld) (v : Nat) (s : State) : State := rset off (wset (rget s off) f.lo f.n v) s

def fbit (s : State) (off : Nat) (f : Fld) : Bool := fget s off f == 1

/-- Raise a counter, stopping at 2^64 - 1 (17 R440). -/
def bump (off n : Nat) (s : State) : State := rset off (word (sat 64 ((rget s off).toNat + n))) s

def bump1 (off : Nat) (s : State) : State := bump off 1 s

/-- Set an event bit of a W1C register whose event names no slot, queue, port or partition. -/
def setBit (off bit : Nat) (s : State) : State := rset off (wset (rget s off) bit 1 1) s

/-- Set an event bit, and the bit i of the register's mask field, which begins at mlo (00 R449). -/
def setBitFor (off bit mlo i : Nat) (s : State) : State :=
  rset off (wset (wset (rget s off) bit 1 1) (mlo + i) 1 1) s

/-- Apply a change where a condition holds. -/
def when (c : Bool) (f : State → State) (s : State) : State := if c then f s else s

/-- Apply a change for each member of a list. -/
def each {α : Type} (l : List α) (f : α → State → State) (s : State) : State := l.foldl (fun s x => f x s) s

/-! ### The block is up -/

/-- The block answers its ports: power is good, block reset released, and it is not in DEEP (12 R329, 13 R358). -/
def State.up (s : State) : Bool := s.powered && !s.blkRst && s.pmode != 2

def emit (o : Out) (s : State) : State := { s with out := s.out ++ [o] }

/-! ### Programmable counters (17 R442, Table 17.4) -/

def PMC.poolLane : Nat := 0x01
def PMC.foldMac : Nat := 0x02
def PMC.nmRead : Nat := 0x03
def PMC.nmWrite : Nat := 0x04
def PMC.farRead : Nat := 0x05
def PMC.farWrite : Nat := 0x06
def PMC.peerTx : Nat := 0x07
def PMC.peerRx : Nat := 0x08
def PMC.cptTx : Nat := 0x09
def PMC.cptRx : Nat := 0x0A
def PMC.hstTx : Nat := 0x0B
def PMC.hstRx : Nat := 0x0C
def PMC.tiles : Nat := 0x0D
def PMC.coreBusy : Nat := 0x0E
def PMC.opRun : Nat := 0x0F
def PMC.meridian : Nat := 0x10
def PMC.tagUs : Nat := 0x11
def PMC.pace : Nat := 0x12

/-- Whether programmable counter i counts an event with these filters (17 R442); none is an event the filter does not apply to. -/
def pmcOn (s : State) (i ev : Nat) (part port job : Option Nat) : Bool :=
  let w := rget s (R.CNT_PMSELi i)
  wbit w 21 && wbits w 0 8 == ev
  && (match part with
      | some p => wbits w 8 4 == 0 || maskBit (wbits w 8 4) p
      | none => true)
  && (match port with
      | some p => wbits w 12 4 == 15 || wbits w 12 4 == p
      | none => true)
  && (match job with
      | some j => wbits w 16 5 == 31 || wbits w 16 5 == j
      | none => true)

/-- n events of a kind, counted by every programmable counter that selects it. -/
def pmc (ev : Nat) (part port job : Option Nat) (n : Nat) (s : State) : State :=
  each (List.range 8) (fun i s => if pmcOn s i ev part port job then bump (R.CNT_PMCi i) n s else s) s

/-- A fresh free value (log 2). -/
def freeNat (s : State) : Nat × State := (Config.freeValue s.fresh, { s with fresh := s.fresh + 1 })

/-- Next identity of a service, window request or forwarded access. -/
def newId (s : State) : Nat × State := (s.nextId, { s with nextId := s.nextId + 1 })

/-! ### Logs -/

def VK.badMessage : Nat := 0x01
def VK.queueDisabled : Nat := 0x02
def VK.cmdLength : Nat := 0x03
def VK.seqMismatch : Nat := 0x04
def VK.queueOverrun : Nat := 0x05
def VK.dataOverrun : Nat := 0x06
def VK.staleData : Nat := 0x07
def VK.dataAfterLast : Nat := 0x08
def VK.streamGap : Nat := 0x09
def VK.portTimeout : Nat := 0x0A
def VK.creditExcess : Nat := 0x0B
def VK.badOpcode : Nat := 0x10
def VK.badOperand : Nat := 0x11
def VK.stepOrder : Nat := 0x12
def VK.regAccess : Nat := 0x18
def VK.descriptor : Nat := 0x20
def VK.tableState : Nat := 0x21
def VK.rowNotOwned : Nat := 0x22
def VK.digestMismatch : Nat := 0x23

/-- Make an entry of the violation log (03 R76); each entry whose index is 1,024 or more sets VLOG_WRAP. -/
def vlog (kind source queue seq w1 w2 : Nat) (s : State) : State :=
  let i := (rget s R.MG_VLOG_COUNT).toNat
  let e : LogEnt := { w0 := fld 0 8 kind + fld 8 4 source + fld 12 4 queue + fld 16 48 seq, w1 := w1 % 2 ^ 64, w2 := w2 % 2 ^ 64, w3 := s.aon }
  let s := { s with vlog := mput (i % 1024) e s.vlog }
  let s := rset R.MG_VLOG_COUNT (word (i + 1)) s
  if 1024 ≤ i then setBit R.CMD_CPT_STATUS 3 s else s

/-! ### Job slots, queues, operations -/

def queue (s : State) (j : Nat) : Queue := s.queues.getD j {}

def updQueue (j : Nat) (f : Queue → Queue) (s : State) : State := { s with queues := s.queues.modify j f }

def job (s : State) (j : Nat) : Job := s.jobs.getD j {}

def updJob (j : Nat) (f : Job → Job) (s : State) : State := { s with jobs := s.jobs.modify j f }

/-- Whether slot j is enabled (03 R53). -/
def slotOn (s : State) (j : Nat) : Bool := fbit s (R.CMD_Qj_CFG j) F.CMD_Qj_CFG_ENABLE && decide (j < 16)

def slotCtx (s : State) (j : Nat) : Nat := fget s (R.CMD_Qj_CFG j) F.CMD_Qj_CFG_CTX

def slotJobId (s : State) (j : Nat) : Nat := fget s (R.CMD_Qj_CFG j) F.CMD_Qj_CFG_JOB_ID

/-- The enabled slot that carries a JOB_ID. -/
def slotOfJob (s : State) (jobId : Nat) : Option Nat := firstBelow (fun j => slotOn s j && slotJobId s j == jobId) 16

def Op.is (o : Op) (q seq : Nat) : Bool := o.queue == q && o.seq == seq

def findOp (s : State) (q seq : Nat) : Option Op := s.ops.find? (fun o => o.is q seq)

def updOp (q seq : Nat) (f : Op → Op) (s : State) : State := { s with ops := updWhere (fun o => o.is q seq) f s.ops }

def running (s : State) : Option Op := s.ops.find? (fun o => o.place == .running)

def issued (s : State) : Option Op := s.ops.find? (fun o => o.place == .issued)

/-- QWORD i of an operation's command. -/
def Op.qw (o : Op) (i : Nat) : Word := o.words.getD i 0

def Op.opcode (o : Op) : Nat := wbits (o.qw 0) 0 8
def Op.npay (o : Op) : Nat := wbits (o.qw 0) 8 3
def Op.order (o : Op) : Nat := wbits (o.qw 0) 11 2
def Op.anyPath (o : Op) : Bool := wbit (o.qw 0) 13
def Op.cartPort (o : Op) : Bool := wbit (o.qw 0) 14
def Op.cartMem (o : Op) : Bool := wbit (o.qw 0) 15
def Op.step (o : Op) : Nat := wbits (o.qw 0) 16 48

/-- Status codes (00 Table 0.4). -/
def SC.ok : Nat := 0
def SC.partialMissing : Nat := 1
def SC.faultFatal : Nat := 2
def SC.hostLost : Nat := 3
def SC.epochStale : Nat := 4
def SC.saturated : Nat := 5
def SC.violation : Nat := 6
def SC.aborted : Nat := 7
def SC.tableRetired : Nat := 8
def SC.capacity : Nat := 9

/-- The ranking of 00 R13. -/
def statusRank : List Nat := [7, 6, 2, 3, 8, 9, 1, 5, 4]

/-- The status of a condition mask: the applicable code that ranks first. -/
def statusOf (mask : Nat) : Nat := (statusRank.find? (maskBit mask)).getD SC.ok

/-- Whether an operation's status is fixed: from step 3 of its completion on, in which the result buffer takes it (03 R66, R73, R75; DEDUCED, log 65). -/
def Op.fixed (o : Op) : Bool := o.phase == .publish || o.phase == .deliver

/-- Record that a code applies to an operation whose status is not yet fixed. -/
def opCond (q seq code : Nat) (s : State) : State :=
  updOp q seq (fun o => if o.fixed then o else { o with cond := maskSet o.cond code }) s

/-- A violation log entry made for an operation (03 Table 3.8, w1 and w5). -/
def opVlog (q seq kind source w1 w2 : Nat) (s : State) : State :=
  let i := (rget s R.MG_VLOG_COUNT).toNat
  let s := vlog kind source q seq w1 w2 s
  updOp q seq (fun o => { o with vlogs := sat 16 (o.vlogs + 1), firstVlog := if o.vlogs == 0 then i % 2 ^ 32 else o.firstVlog }) s

/-- End an operation with a status whose occurrence stops its work (00 R13): its own code, then draining of its writes. -/
def opEnd (q seq code : Nat) (s : State) : State :=
  updOp q seq (fun o => if o.fixed then o else { o with cond := maskSet o.cond code, endNow := true }) s

def opViolation (q seq kind source w1 w2 : Nat) (s : State) : State :=
  opEnd q seq SC.violation (opVlog q seq kind source w1 w2 s)

/-- The codes whose occurrence leaves results unusable and stops the work (03 Table 3.10). -/
def stopsWork (mask : Nat) : Bool :=
  maskBit mask SC.aborted || maskBit mask SC.violation || maskBit mask SC.faultFatal || maskBit mask SC.tableRetired || maskBit mask SC.capacity

/-- Status and mask bits of CMD_LK_STATUS, CMD_GS_STATUS, CMD_UPD_STATUS and CMD_GZ_STATUS for a job slot. -/
def jobBit (off bit slot : Nat) (s : State) : State := setBitFor off bit 4 slot s

/-! ### This block in the torus -/

/-- Torus sizes as sampled from the straps (12 Table 12.5): a size strap of 0 counts as 1. -/
def strapBlocks (t : Straps) : Nat := t.xd * t.yd * t.zd

def strapNumber (t : Straps) : Nat := t.xc + t.xd * t.yc + t.xd * t.yd * t.zc

/-- The number of this block (01 R24). -/
def self (s : State) : Nat := strapNumber s.straps

def nblocks (s : State) : Nat := strapBlocks s.straps

/-- Every other block of the torus. -/
def others (s : State) : List Nat := (List.range (nblocks s)).filter (fun b => b != self s)

/-- The blocks of a job (03 R54, 14 R382): every block of the torus that is not lost. A block that is only unreachable is waited for. -/
def jobBlocks (s : State) : List Nat :=
  (List.range (nblocks s)).filter (fun b => !s.lost.contains b)

def jobOthers (s : State) : List Nat := (jobBlocks s).filter (fun b => b != self s)

/-- Physical positions whose core runs work, ascending by logical number (01 R15). -/
def enabledCores (s : State) : List (Nat × Nat) :=
  sortBy (fun x => x.2) ((List.range s.pos.length).filterMap fun i =>
    match s.pos[i]? with
    | some p => if p.mark == 1 && !p.fenced && !p.isolated then some (i, p.logical) else none
    | none => none)

/-- Enabled core count n (00 R3); a core that is isolated for a fence or a reset still counts (14 R368, R375). -/
def coreCount (s : State) : Nat := (s.pos.filter fun p => p.mark == 1 && !p.fenced).length

/-- Physical index of the core in service under a logical number. -/
def physOf (s : State) (l : Nat) : Option Nat := ((enabledCores s).find? (fun x => x.2 == l)).map (·.1)

def partitionOf (phys : Nat) : Nat := phys / 36

/-- Whether a partition is in reset: its crossings hold their items (13 R347; 14 R375). -/
def partReset (s : State) (p : Nat) : Bool := s.scopes.contains { partition := true, index := p }

/-- The partitions of the crossings of the host port, of a compute module and of a peer port (13 Table 13.2). -/
def hostPart : Nat := 0
def modPart (m : Nat) : Nat := m / 2
def portPart (k : Nat) : Nat := if k < 4 then k / 2 else k - 2

/-- Bit of a clock of Table 12.3 among the clock bits of MG_PIN_STATUS. -/
def clockBit (c : Nat) : Nat := if c == 0 then 0 else if c == 1 then 15 else if c == 2 then 16 else c - 2

/-- Whether a reference clock is missing (12 R328). -/
def clockBad (s : State) (c : Nat) : Bool := maskBit s.clocksBad (clockBit c)

/-- Sticky flags of a core position (17 R444): CNT_FLAGS_Cc, in the engine's four bits at lo. -/
def coreFlags (phys lo : Nat) (f : Flags) (s : State) : State :=
  if f.mask == 0 then s else rset (R.CNT_FLAGS_Cc phys) (rget s (R.CNT_FLAGS_Cc phys) ||| word (f.mask <<< lo)) s

/-- Sticky flags of an HBM update unit. -/
def unitFlags (k : Nat) (f : Flags) (s : State) : State :=
  if f.mask == 0 then s else rset (R.CNT_FLAGS_Uk k) (rget s (R.CNT_FLAGS_Uk k) ||| word f.mask) s

/-! ### Far memory -/

/-- lim of 08 R231: 72 GiB - 114 MiB. -/
def farLim : Nat := 73614 * 2 ^ 20

def mib (n : Nat) : Nat := n * 2 ^ 20

/-- 576 GiB. -/
def farSize : Nat := 576 * 2 ^ 30

/-- The stack that serves a physical address (08 R231). -/
def stackOf (pa : Nat) : Nat :=
  if pa < 8 * farLim then (bits pa 8 3) ^^^ (bits pa 17 3) ^^^ (bits pa 26 3)
  else (pa - 8 * farLim) / mib 114

/-- A byte of far memory; one that nothing has written since the contents were last lost is a free value (15 R396; log 3). -/
def farByte (s : State) (pa : Nat) : Byte := mgetD pa (Config.farFresh s.farGen pa) s.far

def farPut (pa : Nat) (b : Byte) (m : List Host.Cell) : List Host.Cell := mput pa b m

def farPutBytes : Nat → Bytes → List Host.Cell → List Host.Cell
  | _, [], m => m
  | pa, b :: r, m => farPutBytes (pa + 1) r (farPut pa b m)

/-- The key of a selector, as a 512-bit number (09 R249). -/
def keyOf (s : State) (sel : Nat) : Nat := mgetD sel 0 s.keys

def keyLoaded (s : State) (sel : Nat) : Bool := wbit (rget s R.TLB_KEY_LOADED) sel

/-- Whether a line reads under a key as it was written: the key it was last written under is that key. A line nothing has written reads as its free bytes under every key. -/
def lineReads (s : State) (key pa : Nat) : Bool :=
  match mfind (pa / 64) s.lineKey with
  | some k => k == key
  | none => true

/-- The line at an address written under another key, as it decrypts under this one: the tweak is the line's number (09 R250). -/
def farOther (s : State) (key pa : Nat) : Bytes :=
  xtsOther (mgetD (pa / 64) 0 s.lineKey) key (pa / 64) ((List.range 64).map fun i => farByte s (pa / 64 * 64 + i))

/-- One byte read under a key. -/
def farReadByte (s : State) (key pa : Nat) : Byte := if lineReads s key pa then farByte s pa else (farOther s key pa).getD (pa % 64) 0

def farRead (s : State) (key pa n : Nat) : Bytes := (List.range n).map fun i => farReadByte s key (pa + i)

/-- Whether an HBM port is FAILED: until block reset, whatever becomes of its mark in the repair map (12 R323; 15 R403). -/
def hbmFailed (s : State) (k : Nat) : Bool := maskBit s.hbmDown k

/-- A byte string cut where the lines of 64 bytes end: address and bytes of each piece. -/
def lineCut : Nat → Nat → Bytes → List (Nat × Bytes)
  | 0, _, _ => []
  | f + 1, a, d =>
    if d.isEmpty then [] else
    let n := 64 - a % 64
    (a, d.take n) :: lineCut f (a + n) (d.drop n)

/-- Write a piece of one line under a key: a line of which part is written is read, merged and written as a whole (09 R249; 11 R301). The line carries that key from now on, and is no longer uncorrectable where it is written whole (08 R234). A write to a FAILED port is discarded (12 R323), and a write of part of an uncorrectable line is not made (08 R234). -/
def farWriteLine (key : Nat) (p : Nat × Bytes) (s : State) : State :=
  if hbmFailed s (stackOf p.1) || (p.2.length != 64 && s.ueLines.contains (p.1 / 64)) then s else
  pmc PMC.farWrite none (some (stackOf p.1)) none 1 { s with
    far := farPutBytes p.1 p.2 (if p.2.length == 64 || lineReads s key p.1 then s.far else farPutBytes (p.1 / 64 * 64) (farOther s key p.1) s.far)
    lineKey := mput (p.1 / 64) key s.lineKey
    ueLines := if p.2.length == 64 then s.ueLines.filter (fun l => l != p.1 / 64) else s.ueLines }

/-- Write bytes under a key, line by line. -/
def farWrite (key pa : Nat) (data : Bytes) (s : State) : State := each (lineCut (data.length + 1) pa data) (farWriteLine key) s

/-- Whether any line of a span is uncorrectable, a line of a FAILED port among them (08 R234, 12 R323). -/
def farUE (s : State) (pa n : Nat) : Bool :=
  (s.ueLines.any fun l => decide (pa / 64 ≤ l) && decide (l ≤ (pa + n - 1) / 64))
  || (s.hbmDown != 0 && (List.range ((pa + n - 1) / 64 + 1 - pa / 64)).any fun i => hbmFailed s (stackOf ((pa / 64 + i) * 64)))

/-- The first uncorrectable line of a span. -/
def firstUE (s : State) (pa n : Nat) : Option Nat := ((List.range ((pa + n - 1) / 64 + 1 - pa / 64)).map fun i => (pa / 64 + i) * 64).find? fun a => farUE s a 64

/-- Units of an error log entry (14 R387). -/
def EU.block : Nat := 0
def EU.core : Nat := 1
def EU.cluster : Nat := 2
def EU.partition : Nat := 3
def EU.vault : Nat := 4
def EU.hbm : Nat := 5
def EU.port : Nat := 6
def EU.supply : Nat := 7
def EU.clock : Nat := 8
def EU.slot : Nat := 9
def EU.table : Nat := 10

/-- Make an entry of the error log (14 R387, Table 14.7). -/
def elog (cls unit index detail w1 w2 : Nat) (s : State) : State :=
  let i := (rget s R.MG_ELOG_COUNT).toNat
  let e : LogEnt := { w0 := fld 0 8 cls + fld 8 8 unit + fld 16 16 index + fld 32 32 detail, w1 := w1 % 2 ^ 64, w2 := w2 % 2 ^ 64, w3 := s.aon }
  let s := rset R.MG_ELOG_COUNT (word (i + 1)) { s with elog := mput (i % 512) e s.elog }
  if 512 ≤ i then setBit R.MG_FENCE_STATUS 5 s else s

/-- Set a bit of the error summary (17 R439). -/
def errBit (b : Nat) (s : State) : State := setBit R.MG_ERR_STATUS b s

/-- An uncorrectable far-memory read is counted, shown and logged (08 R234; class HBM_UE; 17 Table 17.3 bit 7). -/
def hbmUE (pa : Nat) (s : State) : State :=
  let k := stackOf pa
  errBit 7 (elog 0x07 EU.hbm k 0 pa 0 (setBitFor R.HBM_STATUS 1 4 k (bump1 R.CNT_HBM_UE s)))

/-- A corrected far-memory error (08 R234). -/
def hbmCE (pa : Nat) (s : State) : State := setBitFor R.HBM_STATUS 0 4 (stackOf pa) (bump1 R.CNT_HBM_CE s)

end Sys2Proof.Machine
end

