-- ==== Sys2Proof/Machine/Journal.lean ====
section
/-! DEFINITION. The journal page: its lines 0 and 1, and the line of each job slot, laid out as they are stored (07 R193; 15 R389 to R391, Table 15.1). -/

namespace Sys2Proof.Machine

/-! ### Lines of the job slots -/

/-- A line with its CHECK, a CRC-32 over its bytes 0 to 55, in w7 (03 Table 3.8; 15 R390). -/
def withCheck (ws : List Word) : Bytes := let b := wordsBytes (ws.take 7); b ++ leBytes 8 (crc32 b)

/-- The line of a job slot. -/
def jobLine (j : Journal) : Bytes := withCheck [
  word (fld 0 48 j.step + fld 48 1 (natOfBool j.isOpen) + fld 56 8 j.jobId), word (fld 0 12 j.admTable + fld 12 32 j.admBucket), word (fld 0 32 j.sheetEpoch),
  word (fld 0 6 j.ctx), word (fld 0 16 j.storeCfg), word (fld 0 40 j.base), 0]

/-- What a line of zeros, or one that was written, says. -/
def readJobLine (b : Bytes) : Journal :=
  let w := fun (i : Nat) => leAt b (8 * i) 8
  { step := bits (w 0) 0 48, isOpen := bits (w 0) 48 1 == 1, jobId := bits (w 0) 56 8, admTable := bits (w 1) 0 12, admBucket := bits (w 1) 12 32
    sheetEpoch := bits (w 2) 0 32, ctx := bits (w 3) 0 6, storeCfg := bits (w 4) 0 16, base := bits (w 5) 0 40 }

def journalOf (s : State) (slot : Nat) : Journal := readJobLine (mgetD slot [] s.journal)
def setJournal (slot : Nat) (j : Journal) (s : State) : State := { s with journal := mput slot (jobLine j) s.journal }

/-- Whether a warm restart has found a slot's line and the slot is not enabled again yet (07 R206). -/
def isResuming (s : State) (slot : Nat) : Bool := s.resuming.contains slot

/-- A slot's line is taken up or discarded. -/
def endResuming (slot : Nat) (s : State) : State := { s with resuming := s.resuming.filter fun j => j != slot }

/-! ### Lines 0 and 1 -/

/-- MAJOR and MINOR of MG_IDENT. -/
def identMajor (s : State) : Nat := fget s R.MG_IDENT F.MG_IDENT_MAJOR
def identMinor (s : State) : Nat := fget s R.MG_IDENT F.MG_IDENT_MINOR

/-- Lines 0 and 1 as they stand under a CHECK: over bytes 0 to 55 of line 0 and all of line 1 (15 R390). -/
def pageLines (w0 kcv place : Nat) (ids : Bytes) : Bytes :=
  let b := leBytes 8 w0 ++ leBytes 8 kcv ++ leBytes 8 place ++ zeros 32
  b ++ leBytes 8 (crc32 (b ++ ids)) ++ ids

def pageWord (s : State) (i : Nat) : Nat := leAt s.page (8 * i) 8

/-- Whether line 0 has FORMAT 1 and its CHECK matches (15 R389, item 1). -/
def pageValid (s : State) : Bool := bits (pageWord s 0) 0 8 == 1 && pageWord s 7 == crc32 (slice s.page 0 56 ++ slice s.page 64 64)

def pageFull (s : State) : Bool := bits (pageWord s 0) 8 1 == 1
def pageMajor (s : State) : Nat := bits (pageWord s 0) 16 8
def pageKcv (s : State) : Nat := bits (pageWord s 1) 0 32
def pagePlace (s : State) : Nat := bits (pageWord s 2) 0 32
def pageStack (s : State) (k : Nat) : Nat := pageWord s (8 + k)

/-- Write lines 0 and 1 anew: FORMAT 1, FULL_REQ, MAJOR and MINOR, KCV0, PLACE, the eight stack identities (15 R390, R398). -/
def writePage (full : Bool) (kcv place : Nat) (s : State) : State :=
  { s with page := pageLines (fld 0 8 1 + fld 8 1 (natOfBool full) + fld 16 8 (identMajor s) + fld 24 8 (identMinor s)) (fld 0 32 kcv) (fld 0 32 place)
             ((List.range 8).flatMap fun k => leBytes 8 (s.stackId.getD k 0).toNat) }

/-- Write lines 0 and 1 again with another value. A page that is not valid stays so: stage 8 has yet to write it. -/
def rewritePage (full : Bool) (kcv place : Nat) (s : State) : State := if pageValid s then writePage full kcv place s else s

/-- KCV0 and PLACE as they change in service (15 R390). -/
def recordKcv (kcv : Nat) (s : State) : State := rewritePage (pageFull s) kcv (pagePlace s) s
def recordPlace (place : Nat) (s : State) : State := rewritePage (pageFull s) (pageKcv s) place s

end Sys2Proof.Machine
end

