-- ==== Sys2Proof/Machine/Net.lean ====
section
/-! DEFINITION. The torus, the compass and the sending of packets on the peer links (01 R24, 10 R274 to R285). -/

namespace Sys2Proof.Machine

/-! ### The torus -/

/-- Size of dimension d. -/
def dimSize (t : Straps) (d : Nat) : Nat := if d == 0 then t.xd else if d == 1 then t.yd else t.zd

/-- Coordinate of block b in dimension d (01 R24). -/
def coord (t : Straps) (b d : Nat) : Nat :=
  if d == 0 then b % t.xd else if d == 1 then b / t.xd % t.yd else b / (t.xd * t.yd)

/-- The neighbour of block b on port k, or none in a dimension of size 1. -/
def neighbour (t : Straps) (b k : Nat) : Option Nat :=
  let d := k / 2
  let n := dimSize t d
  if n ≤ 1 then none else
  let c := coord t b d
  let c' := if k % 2 == 0 then (c + 1) % n else (c + n - 1) % n
  let m := if d == 0 then 1 else if d == 1 then t.xd else t.xd * t.yd
  some (b - c * m + c' * m)

/-- The opposite port (10 R270). -/
def mate (k : Nat) : Nat := if k % 2 == 0 then k + 1 else k - 1

def portState (s : State) (k : Nat) : Nat := fget s (R.LNK_Pk_STATUS k) F.LNK_Pk_STATUS_STATE

def setPortState (k v : Nat) (s : State) : State := fset (R.LNK_Pk_STATUS k) F.LNK_Pk_STATUS_STATE v s

/-- STATE values of LNK_Pk_STATUS. -/
def PS.off : Nat := 0
def PS.training : Nat := 1
def PS.up : Nat := 2
def PS.retrain : Nat := 3
def PS.dead : Nat := 4
def PS.mismatch : Nat := 5
def PS.disabled : Nat := 6

def port (s : State) (k : Nat) : PortSt := s.ports.getD k {}

def updPort (k : Nat) (f : PortSt → PortSt) (s : State) : State := { s with ports := s.ports.modify k f }

/-! ### The compass -/

def linkUp (m : List (Nat × LinkRec)) (b k : Nat) : Bool :=
  match mfind (b * 8 + k) m with
  | some r => r.state == PS.up
  | none => false

/-- Whether the link of port k of block b is UP at both ends (10 R282). -/
def live (t : Straps) (m : List (Nat × LinkRec)) (b k : Nat) : Bool :=
  match neighbour t b k with
  | some n => linkUp m b k && linkUp m n (mate k)
  | none => false

/-- Live neighbours of a block: port and block. -/
def liveNbrs (t : Straps) (m : List (Nat × LinkRec)) (b : Nat) : List (Nat × Nat) :=
  (List.range 6).filterMap fun k => if live t m b k then (neighbour t b k).map (fun n => (k, n)) else none

/-- Distances from a root by breadth: one round per fuel; 64 means unreached. -/
def bfs (adj : List (List (Nat × Nat))) : Nat → List Nat → List Nat
  | 0, d => d
  | f + 1, d =>
    bfs adj f ((List.range d.length).map fun b =>
      ((adj.getD b []).map (fun x => d.getD x.2 64 + 1)).foldl min (d.getD b 64))

def distances (t : Straps) (adj : List (List (Nat × Nat))) (root : Nat) : List Nat :=
  let n := strapBlocks t
  bfs adj n ((List.range n).map fun b => if b == root then 0 else 64)

/-- Whether every port that R24 connects is UP (10 R282: DIMENSION mode). -/
def allUp (t : Straps) (m : List (Nat × LinkRec)) : Bool :=
  (List.range (strapBlocks t)).all fun b => (List.range 6).all fun k => (neighbour t b k).isNone || live t m b k

/-- Escape port in DIMENSION mode: X, then Y, then Z, by fewer hops and toward + on a tie. -/
def dimEsc (t : Straps) (b dst : Nat) : Nat :=
  let go := fun d =>
    let n := dimSize t d
    let fwd := (coord t dst d + n - coord t b d) % n
    if fwd == 0 then none else some (2 * d + (if 2 * fwd ≤ n then 0 else 1))
  match go 0 with
  | some p => p
  | none =>
    match go 1 with
    | some p => p
    | none => (go 2).getD 6

/-- Parent in the breadth-first tree: the lowest-numbered neighbour one level nearer the root. -/
def treeParent (adj : List (List (Nat × Nat))) (lvl : List Nat) (b : Nat) : Option Nat :=
  let c := ((adj.getD b []).filter fun x => lvl.getD x.2 64 + 1 == lvl.getD b 64).map (·.2)
  match c with
  | [] => none
  | x :: r => some (r.foldl min x)

/-- The child of b on the tree path down to x, if b is an ancestor of x. -/
def treeChild (adj : List (List (Nat × Nat))) (lvl : List Nat) (b : Nat) : Nat → Nat → Option Nat
  | 0, _ => none
  | f + 1, x =>
    match treeParent adj lvl x with
    | none => none
    | some p => if p == b then some x else treeChild adj lvl b f p

def portTo (adj : List (List (Nat × Nat))) (b n : Nat) : Nat :=
  (((adj.getD b []).find? fun x => x.2 == n).map (·.1)).getD 7

/-- Escape port in TREE mode: along the spanning tree of the reachable blocks (10 R282). -/
def treeEsc (t : Straps) (adj : List (List (Nat × Nat))) (b dst : Nat) : Nat :=
  let n := strapBlocks t
  let reach := distances t adj b
  let root := (firstBelow (fun x => decide (reach.getD x 64 < 64)) n).getD b
  let lvl := distances t adj root
  match treeChild adj lvl b n dst with
  | some c => portTo adj b c
  | none =>
    match treeParent adj lvl b with
    | some p => portTo adj b p
    | none => 7

/-- The compass of a block from the link-state map (10 R282): mode (0 DIMENSION, 1 TREE) and entries. -/
def computeCompass (t : Straps) (m : List (Nat × LinkRec)) (b : Nat) : Nat × List (Nat × CEnt) :=
  let n := strapBlocks t
  let adj := (List.range n).map (liveNbrs t m)
  let dim := allUp t m
  let from_ := distances t adj b
  let ents := (List.range n).map fun d =>
    if d == b then (d, { minMask := 0, esc := 6, hops := 0 : CEnt })
    else if 64 ≤ from_.getD d 64 then (d, { minMask := 0, esc := 7, hops := 0 })
    else
      let dd := distances t adj d
      let h := from_.getD d 64
      let mask := (liveNbrs t m b).foldl (fun a x => if dd.getD x.2 64 + 1 == h then maskSet a x.1 else a) 0
      (d, { minMask := mask, esc := if dim then dimEsc t b d else treeEsc t adj b d, hops := h })
  (if dim then 0 else 1, ents)

def compassOf (s : State) (d : Nat) : CEnt :=
  if d == self s then { minMask := 0, esc := 6, hops := 0 } else (mfind d s.compass).getD { minMask := 0, esc := 7, hops := 0 }

/-- Whether a block has a route, and has not been declared unreachable (10 R282, 14 R379). -/
def reachable (s : State) (d : Nat) : Bool := (compassOf s d).esc != 7 && !s.unreach.contains d

def compassGen (s : State) : Nat := fget s R.LNK_COMPASS_GEN F.LNK_COMPASS_GEN_GEN

/-! ### Packets -/

def CL.req : Nat := 0
def CL.rsp : Nat := 1
def CL.grad : Nat := 2
def CL.sync : Nat := 3
def CL.ctrl : Nat := 4

/-- Flits of a packet with a body of n bytes (10 R278). -/
def flitsOf (n : Nat) : Nat := ceilDiv (16 + n) 116

def mkPacket (s : State) (dest cls kind jobId : Nat) (body : Bytes) : Packet :=
  { dest := dest, src := self s, cls := cls, lenM1 := flitsOf body.length - 1, kind := kind, jobId := jobId,
    gen := compassGen s, escaped := false, bodyBytes := body.length, eseq := 0, body := body }

/-- The 16-byte header of a packet (10 Table 10.5). -/
def packetHeader (p : Packet) : Bytes :=
  leBytes 8 (fld 0 6 p.dest + fld 6 6 p.src + fld 12 3 p.cls + fld 15 7 p.lenM1 + fld 22 8 p.kind + fld 30 8 p.jobId + fld 38 8 p.gen + fld 46 1 (natOfBool p.escaped))
  ++ leBytes 8 (fld 0 14 p.bodyBytes + fld 16 32 p.eseq)

/-- A packet read from the bytes of its flits. -/
def parsePacket (b : Bytes) : Packet :=
  let w0 := leAt b 0 8
  let w1 := leAt b 8 8
  { dest := bits w0 0 6, src := bits w0 6 6, cls := bits w0 12 3, lenM1 := bits w0 15 7, kind := bits w0 22 8, jobId := bits w0 30 8,
    gen := bits w0 38 8, escaped := bits w0 46 1 == 1, bodyBytes := bits w1 0 14, eseq := bits w1 16 32, body := slice b 16 (bits w1 0 14) }

/-- Credit of an output buffer: 256 flits adaptive, 32 escape (10 R276). -/
def vcCap (vc : Nat) : Nat := if vc == 0 then 256 else 32

def credit (s : State) (k cls vc : Nat) : Nat := vcCap vc - mgetD (3 * cls + vc) 0 (port s k).used

/-- Whether a port may send one more sequenced flit (10 R275, item 4). -/
def replayRoom (s : State) (k : Nat) : Bool := decide ((port s k).txSeq - (port s k).acked < 2048)

/-- Width of a direction with the good lanes of a mask (10 R273). -/
def widthOf (good : Nat) : Nat :=
  let n := maskCount 9 good
  if 8 ≤ n then 8 else if 4 ≤ n then 4 else if 2 ≤ n then 2 else n

/-- The physical lane of logical lane i: the i-th good one in ascending order (10 R273). -/
def laneOf (good i : Nat) : Nat := (maskList 9 good).getD i 0

/-- Send one flit: on logical lane i mod w for the i-th flit of the direction, with its CRC-32 (10 R274). -/
def emitFlit (k : Nat) (hdr : Word) (payload : Bytes) (s : State) : State :=
  let good := fget s (R.LNK_Pk_STATUS k) F.LNK_Pk_STATUS_TX_GOOD
  let lane := laneOf good ((port s k).flits % max 1 (widthOf good))
  emit (.flit k lane hdr payload (crc32 (leBytes 8 hdr.toNat ++ payload))) (updPort k (fun q => { q with flits := q.flits + 1 }) s)

/-- Header of a sequenced flit; it carries no acknowledgement and returns no credit, which IDLE flits do (10 Table 10.3; DESIGN CHOICE, log 21). -/
def seqHeader (ty cls vc seq : Nat) : Word := word (fld 0 2 ty + fld 2 3 cls + fld 5 2 vc + fld 7 12 (seq % 4096) + fld 33 4 15)

/-- Payload of the i-th flit of a packet (10 R278). -/
def flitPayload (p : Packet) (i : Nat) : Bytes := padTo 116 (slice (packetHeader p ++ p.body) (116 * i) 116)

/-- Flits of an entry of a replay buffer. -/
def Replay.total (e : Replay) : Nat := match e.pkt with
  | some p => p.lenM1 + 1
  | none => 1

/-- Whether flits of an entry are still to be sent. -/
def Replay.open_ (e : Replay) : Bool := decide (e.seqs.length < e.total)

/-- The i-th flit of an entry, under its sequence number: header and payload. -/
def Replay.flit (e : Replay) (i seq : Nat) : Word × Bytes := match e.pkt with
  | some p => (seqHeader (if i == 0 then 1 else 2) p.cls e.vc seq, flitPayload p i)
  | none => (seqHeader 3 0 0 seq, e.link)

/-- Send the next flit of entry i of a port, where credit and the replay buffer allow it; a link message needs no credit (10 R275, R276). -/
def pushFlit (k i : Nat) (s : State) : Option State :=
  match (port s k).replay[i]? with
  | none => none
  | some e =>
    if !e.open_ || !replayRoom s k || (match e.pkt with
        | some p => credit s k p.cls e.vc == 0
        | none => false) then none
    else
      let seq := (port s k).txSeq
      let f := e.flit e.seqs.length seq
      let s := updPort k (fun q => { q with
        replay := q.replay.set i { e with seqs := e.seqs ++ [seq] }
        txSeq := seq + 1
        used := match e.pkt with
          | some p => mput (3 * p.cls + e.vc) (mgetD (3 * p.cls + e.vc) 0 q.used + 1) q.used
          | none => q.used }) s
      some (emitFlit k f.1 f.2 (pmc PMC.peerTx none (some k) none 1 s))

/-- Send up to n more flits of an entry. -/
def pushFlits (k i : Nat) : Nat → State → State
  | 0, s => s
  | n + 1, s => match pushFlit k i s with
    | some s => pushFlits k i n s
    | none => s

/-- Order in which an output serves the classes (10 R276): RSP, SYNC, CTRL, then REQ and GRAD. -/
def classOrder (c : Nat) : Nat := if c == 1 then 0 else if c == 3 then 1 else if c == 4 then 2 else 3

/-- Send what a port has begun as far as it goes: link messages, then the packets by class (10 R274 to R276). -/
def pumpPort (k : Nat) (s : State) : State :=
  if portState s k != PS.up then s else
  let l := (port s k).replay.zipIdx.filter fun x => x.1.open_
  let order := sortBy (fun (x : Replay × Nat) => match x.1.pkt with
    | some p => 1 + classOrder p.cls
    | none => 0) l
  each order (fun x s => pushFlits k x.2 (x.1.total - x.1.seqs.length) s) s

/-- Whether a packet is being sent on a VC of a port: two packets on one VC are never interleaved (10 R274). -/
def vcBusy (s : State) (k cls vc : Nat) : Bool := (port s k).replay.any fun e => e.open_ && e.vc == vc && match e.pkt with
  | some p => p.cls == cls
  | none => false

/-- Begin to send a packet on a port and VC. -/
def transmit (k vc : Nat) (p : Packet) (s : State) : State :=
  pumpPort k (updPort k (fun q => { q with
    replay := q.replay ++ [{ pkt := some p, link := [], vc := vc, seqs := [] }]
    turn := if p.cls == CL.req || p.cls == CL.grad then p.cls else q.turn }) s)

/-- Send a link message (10 R274). -/
def sendLink (k : Nat) (payload : Bytes) (s : State) : State :=
  pumpPort k (updPort k (fun q => { q with replay := q.replay ++ [{ pkt := none, link := padTo 116 payload, vc := 0, seqs := [] }] }) s)

/-- Whether the hop by which a packet reached this block on port a crossed from one end of the dimension to the other (10 R283). -/
def crossed (s : State) (a : Nat) : Bool :=
  let d := a / 2
  let c := coord s.straps (self s) d
  if a % 2 == 0 then c + 1 == dimSize s.straps d else c == 0

/-- Escape VC on output port k of a packet that arrived on port a, if any, under a table of a mode (10 R283). -/
def escVc (s : State) (a : Option Nat) (p : Packet) (k mode : Nat) : Nat :=
  match a with
  | none => 1
  | some i =>
    if mode == 0 && p.escaped && mate i == k && crossed s i then 2 else 1

/-- Whether a port takes packets: it is UP, and its crossing does not hold what would leave by it (13 R347; 14 R375). -/
def portTakes (s : State) (k : Nat) : Bool := decide (k < 6) && portState s k == PS.up && !partReset s (portPart k)

/-- Ports an unescaped packet may take now: minimal, UP, with credit for the whole packet. -/
def adaptivePorts (s : State) (p : Packet) : List Nat :=
  (maskList 6 (compassOf s p.dest).minMask).filter fun k =>
    portTakes s k && !vcBusy s k p.cls 0 && decide (p.lenM1 + 1 ≤ credit s k p.cls 0) && replayRoom s k

/-- Pick one of the ports in proportion to its weight, its transmit width, by a free value where there is a choice (10 R283). -/
def pickPort (l : List Nat) (s : State) : Nat × State :=
  match l with
  | [] => (7, s)
  | [k] => (k, s)
  | l =>
    let w := l.map fun k => (k, max 1 (fget s (R.LNK_Pk_STATUS k) F.LNK_Pk_STATUS_TX_WIDTH))
    let (v, s) := freeNat s
    let r := v % sumNat (w.map (·.2))
    let rec go : List (Nat × Nat) → Nat → Nat
      | [], _ => 7
      | (k, x) :: t, r => if r < x then k else go t (r - x)
    (go w r, s)

/-- Escape route of a packet that is ESCAPED, or takes it now (10 R283, items 2 and 4): port, generation and mode of the table it follows: that of its own GEN while that is held and its port UP, else the newest; none where the packet's GEN is newer than the block's, so that a GEN only rises. -/
def escRoute (s : State) (p : Packet) : Option (Nat × Nat × Nat) :=
  let g := compassGen s
  let newest := some ((compassOf s p.dest).esc, g, fget s R.LNK_COMPASS_GEN F.LNK_COMPASS_GEN_MODE)
  if p.gen == g then newest
  else match mfind p.gen s.oldEsc with
    | some (mode, t) =>
      let k := mgetD p.dest 7 t
      if decide (k < 6) && portState s k == PS.up then some (k, p.gen, mode) else newest
    | none => if decide ((p.gen + 256 - g) % 256 < 128) then none else newest

/-- Route one packet now, or say that it must wait (10 R283). -/
def tryRoute (a : Option Nat) (p : Packet) (s : State) : Option State :=
  let ad := if p.escaped || fget s R.LNK_CFG F.LNK_CFG_ADAPTIVE == 0 then [] else adaptivePorts s p
  if !ad.isEmpty then
    let (k, s) := pickPort ad s
    some (transmit k 0 p s)
  else
    match escRoute s p with
    | none => none
    | some (k, g, mode) =>
      let vc := escVc s a p k mode
      if portTakes s k && !vcBusy s k p.cls vc && decide (1 ≤ credit s k p.cls vc) && replayRoom s k then
        let s := if p.escaped then s else bump1 R.CNT_LNK_ESCAPE s
        some (transmit k vc { p with escaped := true, gen := g } s)
      else none

/-- Route a packet, or leave it waiting for credit, a port or a generation. -/
def routePacket (a : Option Nat) (p : Packet) (s : State) : State :=
  match tryRoute a p s with
  | some s => s
  | none => { s with sendQ := s.sendQ ++ [(a, p)] }

/-- The port a waiting packet asks for first. -/
def wants (s : State) (p : Packet) : Nat :=
  match (if p.escaped then [] else maskList 6 (compassOf s p.dest).minMask) with
  | k :: _ => k
  | [] => ((escRoute s p).map (·.1)).getD 7

/-- REQ and GRAD packets in turn, after the class served last (10 R276). -/
def inTurn {α : Type} : Nat → Nat → List α → List α → List α
  | n + 1, last, r :: rs, g :: gs => if last == CL.req then g :: inTurn n CL.grad (r :: rs) gs else r :: inTurn n CL.req rs (g :: gs)
  | _, _, rs, gs => rs ++ gs

/-- The order in which waiting packets are tried. -/
def sendOrder (s : State) : List (Option Nat × Packet) :=
  let of := fun (k c : Nat) => s.sendQ.filter fun x => x.2.cls == c && wants s x.2 == k
  sortBy (fun x => classOrder x.2.cls) (s.sendQ.filter fun x => x.2.cls != CL.req && x.2.cls != CL.grad)
    ++ (List.range 8).flatMap fun k => inTurn s.sendQ.length (port s k).turn (of k CL.req) (of k CL.grad)

/-- Go on with what has been begun, and try again every packet that waits. -/
def pumpNet (s : State) : State :=
  let s := each (List.range 6) pumpPort s
  (sendOrder s).foldl (fun s x => routePacket x.1 x.2 s) { s with sendQ := [] }

/-! ### Receive buffers (10 R276, R277) -/

/-- Return credit for n flits of a buffer. -/
def freeCredit (k b n : Nat) (s : State) : State :=
  if n == 0 || decide (15 ≤ b) then s else updPort k (fun q => { q with freed := mput b (mgetD b 0 q.freed + n) q.freed }) s

def ostream (s : State) (peer cls : Nat) : OStream := (mfind (peer * 8 + cls) s.ostreams).getD {}

def setOStream (peer cls : Nat) (o : OStream) (s : State) : State := { s with ostreams := mput (peer * 8 + cls) o s.ostreams }

/-- Whether a packet fits beside the unacknowledged ones of its stream (10 R285, item 3). -/
def streamRoom (o : OStream) (p : Packet) : Bool :=
  o.unacked.isEmpty || decide (sumNat (o.unacked.map fun x => 16 + x.2.body.length) + 16 + p.body.length ≤ 16384)

/-- Inject a packet (10 R284, R285): ordered classes take the stream's next ESEQ and are kept until acknowledged. -/
def sendPacket (dest cls kind jobId : Nat) (body : Bytes) (s : State) : State :=
  let p := mkPacket s dest cls kind jobId body
  if cls == CL.sync || cls == CL.ctrl then
    let o := ostream s dest cls
    let p := { p with eseq := o.tx % 2 ^ 32 }
    if o.waiting.isEmpty && streamRoom o p then
      routePacket none p (setOStream dest cls { o with tx := o.tx + 1, unacked := o.unacked ++ [(o.tx, p)] } s)
    else setOStream dest cls { o with tx := o.tx + 1, waiting := o.waiting ++ [(o.tx, p)] } s
  else routePacket none p s

/-! ### Kinds (10 Table 10.7, 14 Tables 14.4 and 14.6) -/

def K.rowReq : Nat := 0x01
def K.partReq : Nat := 0x02
def K.winRead : Nat := 0x03
def K.winWrite : Nat := 0x04
def K.rowRsp : Nat := 0x21
def K.partRsp : Nat := 0x22
def K.winData : Nat := 0x23
def K.winAck : Nat := 0x24
def K.ack : Nat := 0x25
def K.error : Nat := 0x2F
def K.gradRec : Nat := 0x41
def K.mark1 : Nat := 0x42
def K.mark2 : Nat := 0x43
def K.refresh : Nat := 0x61
def K.refreshMark : Nat := 0x62
def K.withdraw : Nat := 0x63
def K.purge : Nat := 0x64
def K.release : Nat := 0x65
def K.handoff : Nat := 0x66
def K.restart : Nat := 0x68
def K.regRead : Nat := 0x81
def K.regWrite : Nat := 0x82
def K.regRsp : Nat := 0x83
def K.event : Nat := 0x84

/-- Error codes (10 Table 10.8). -/
def EC.noRoute : Nat := 1
def EC.jobAbsent : Nat := 2
def EC.digest : Nat := 3
def EC.retired : Nat := 4
def EC.stepPassed : Nat := 5
def EC.farUE : Nat := 6
def EC.winRefused : Nat := 7
def EC.winFatal : Nat := 8
def EC.badPacket : Nat := 9
def EC.inputFault : Nat := 10

/-- Violation kinds of the peer links (10 Table 10.10). -/
def VK.badPacket : Nat := 0x40
def VK.creditOverrun : Nat := 0x41
def VK.fseqBad : Nat := 0x42
def VK.torusMismatch : Nat := 0x43
def VK.noRoute : Nat := 0x44
def VK.jobAbsent : Nat := 0x45
def VK.stepPassed : Nat := 0x46
def VK.gradRefused : Nat := 0x47
def VK.eseqDup : Nat := 0x48
def VK.fwdSource : Nat := 0x49
def VK.fwdTimeout : Nat := 0x4A
def VK.unsolicited : Nat := 0x4B

/-- Answer a request with ERROR (10 R280, Table 10.7): its TAG, a code, and the low 16 bits of the epoch the request carried (14 R371; DESIGN CHOICE, log 11). -/
def sendError (dest jobId tag code echo : Nat) (s : State) : State :=
  sendPacket dest CL.rsp K.error jobId (leBytes 8 (fld 0 18 tag + fld 24 8 code + fld 32 16 echo)) s

/-- SOURCE of an entry that an arriving packet prompts (10 R292). -/
def portSource (k : Nat) : Nat := 8 + k

/-- SOURCE of an entry that no packet prompts: the escape port toward the other block (10 R292). -/
def escSource (s : State) (b : Nat) : Nat := let e := (compassOf s b).esc; if e < 6 then 8 + e else 8

end Sys2Proof.Machine
end

