-- ==== Sys2Proof/Machine/Events.lean ====
section
/-! DEFINITION. The interrupt and error summaries, the EVENT that a block sends its root, and the frame of every command's effect (17 R437 to R439; 10 R291). -/

namespace Sys2Proof.Machine

/-! ### Summaries (17 R437 to R439) -/

/-- Whether any of the bits of a mask is set in a register. -/
def anyBit (s : State) (off mask : Nat) : Bool := (rget s off).toNat &&& mask != 0

/-- The error summary: bits 0 to 6, and bits 7 and 8 where MG_ERR_MASK enables them. -/
def errorSummary (s : State) : Bool :=
  anyBit s R.MG_ERR_STATUS (0x7F + (if fbit s R.MG_ERR_MASK F.MG_ERR_MASK_UE_EN then 0x80 else 0) + (if fbit s R.MG_ERR_MASK F.MG_ERR_MASK_HALT_EN then 0x100 else 0))

/-- CNT_FLAG_SUM: each flag, or-ed over every engine (17 R444). -/
def flagSum (s : State) : Nat :=
  s.regs.foldl (fun a x =>
    if decide (0x2010000 ≤ x.1) && decide (x.1 < 0x2010900) then a ||| wbits x.2 0 4 ||| wbits x.2 4 4 ||| wbits x.2 8 4 else a) 0

/-- Sources of Table 17.2 that are pending, bit 0 first. -/
def intSources (s : State) : List Bool :=
  [anyBit s R.CMD_CPT_STATUS 4,
   anyBit s R.CMD_CPT_LINK 0xC00000,
   anyBit s R.CMD_GZ_STATUS 8,
   !s.fq.isEmpty,
   anyBit s R.HST_STATUS 1,
   anyBit s R.MG_FENCE_STATUS 0x3F,
   rget s R.LNK_EVENT_BLOCKS != 0,
   anyBit s R.MG_EVENT 7,
   errorSummary s,
   anyBit s R.CMD_CPT_STATUS 0xB || anyBit s R.CMD_GZ_STATUS 0xF || anyBit s R.CMD_LK_STATUS 0xF || anyBit s R.CMD_GS_STATUS 0xF || anyBit s R.CMD_UPD_STATUS 0xF,
   anyBit s R.TLB_STATUS 0xFF,
   anyBit s R.NM_STATUS 0x1F,
   anyBit s R.HBM_STATUS 0xF,
   anyBit s R.LNK_STATUS 0x3F,
   anyBit s R.HST_STATUS 0x1E,
   anyBit s R.PWR_STATUS 0x3F,
   anyBit s R.MG_CFG_STATUS 0x10,
   flagSum s != 0]

/-- MG_INT_STATUS. -/
def intStatus (s : State) : Nat := (intSources s).zipIdx.foldl (fun a x => if x.1 then a + 2 ^ x.2 else a) 0

/-- Whether the management interrupt is raised: an enabled source is pending. -/
def interrupt (s : State) : Bool := intStatus s &&& (rget s R.MG_INT_MASK).toNat != 0

/-- Whether INT_N, and ERROR_N, is asserted (12 R332; 13 R364). -/
def intPin (s : State) : Bool := s.up && (interrupt s || fbit s R.MG_PIN_CFG F.MG_PIN_CFG_INT_FORCE)
def errPin (s : State) : Bool :=
  if s.pmode == 2 then s.powered && !s.blkRst && wbit (rget s R.PWR_WAKE_STATUS) 5
  else s.up && (errorSummary s || fbit s R.MG_PIN_CFG F.MG_PIN_CFG_ERR_FORCE)

/-! ### EVENT (10 R291) -/

def rootBlock (s : State) : Nat := fget s R.LNK_CFG F.LNK_CFG_ROOT_BLOCK

/-- Whether this block reports its interrupt to a root. -/
def reports (s : State) : Bool := fbit s R.LNK_CFG F.LNK_CFG_FWD_EVENTS && rootBlock s != self s

/-- Put EVENT for the root on its ordered stream; it leaves with the packets that wait. -/
def queueEvent (s : State) : State :=
  let r := rootBlock s
  let o := ostream s r CL.ctrl
  let p := { mkPacket s r CL.ctrl K.event 0 [] with eseq := o.tx % 2 ^ 32 }
  if o.waiting.isEmpty && streamRoom o p then
    setOStream r CL.ctrl { o with tx := o.tx + 1, unacked := o.unacked ++ [(o.tx, p)] } { s with sendQ := s.sendQ ++ [(none, p)] }
  else setOStream r CL.ctrl { o with tx := o.tx + 1, waiting := o.waiting ++ [(o.tx, p)] } s

/-- EVENT for an interrupt that has risen between two states. -/
def raiseEvent (s t : State) : State := if s.up && t.up && reports t && !interrupt s && interrupt t then queueEvent t else t

/-! ### Commands -/

/-- A state with the queue, the supplies, the reset pin and the straps of another: what the work of the block never changes. -/
def holdInputs (s t : State) : State :=
  { t with
    pending := s.pending
    vin := s.vin
    pwrGood := s.pwrGood
    powered := s.powered
    blkRst := s.blkRst
    straps := s.straps }

/-- A command's effect while the block is up; otherwise nothing (DESIGN CHOICE, log 1). -/
def act (s : State) (f : State → State) : Host.Outcome State Fault Refusal := .next (if s.up then holdInputs s (raiseEvent s (f s)) else s)

/-- A command's effect whatever the block's state of reset. -/
def actAlways (s : State) (f : State → State) : Host.Outcome State Fault Refusal := .next { raiseEvent s (f s) with pending := s.pending }

/-- The effect of an input that also reaches a block that is not up: what it does to a block that is up, and to one that is not. -/
def actInput (s : State) (up down : State → State) : Host.Outcome State Fault Refusal := if s.up then act s up else actAlways s down

end Sys2Proof.Machine
end

