-- ==== Sys2Proof/Machine/Gazetteer.lean ====
section
/-! DEFINITION. The gazetteer: descriptors, sheets, row layouts, admission hash, versions and their binding (chapter 02). -/

namespace Sys2Proof.Machine

/-! ### Descriptor fields (02 Table 2.1) -/

def Desc.w (d : Desc) (i : Nat) : Word := d.words.getD i 0
def Desc.tableId (d : Desc) : Nat := wbits (d.w 0) 0 12
def Desc.version (d : Desc) : Nat := wbits (d.w 0) 12 16
/-- 0 EMPTY, 1 READY, 2 SERVING, 3 DRAINING. -/
def Desc.state (d : Desc) : Nat := wbits (d.w 0) 28 3
def Desc.rowmode (d : Desc) : Bool := wbit (d.w 0) 31
def Desc.widthCode (d : Desc) : Nat := wbits (d.w 0) 32 8
def Desc.width (d : Desc) : Nat := 4 * (d.widthCode + 1)
def Desc.wfmt (d : Desc) : Nat := wbits (d.w 0) 40 4
def Desc.wsigned (d : Desc) : Bool := wbit (d.w 0) 44
def Desc.e1 (d : Desc) : Bool := wbit (d.w 0) 45
def Desc.nWide (d : Desc) : Nat := wbits (d.w 0) 46 5
def Desc.admits (d : Desc) : Bool := wbit (d.w 0) 51
def Desc.mfmt (d : Desc) : Nat := wbits (d.w 0) 52 2
def Desc.ofmt (d : Desc) : Nat := wbits (d.w 0) 54 2
def Desc.rule (d : Desc) : Nat := wbits (d.w 0) 56 4
def Desc.rows (d : Desc) : Nat := wbits (d.w 1) 0 40 + 1
def Desc.gran (d : Desc) : Nat := wbits (d.w 1) 40 5
def Desc.sheets (d : Desc) : Nat := wbits (d.w 1) 45 7
def Desc.sheetMap (d : Desc) (i : Nat) : Nat := wbits (d.w (2 + i / 8)) (8 * (i % 8)) 6
def Desc.masterBase (d : Desc) : Nat := wbits (d.w 10) 0 57
def Desc.stateBase (d : Desc) : Nat := wbits (d.w 11) 0 57
def Desc.legendBase (d : Desc) : Nat := wbits (d.w 12) 0 57
def Desc.dirBase (d : Desc) : Nat := wbits (d.w 13) 0 57
def Desc.defaultRow (d : Desc) : Nat := wbits (d.w 14) 0 40
def Desc.defaultValid (d : Desc) : Bool := wbit (d.w 14) 40
def Desc.dirLog2 (d : Desc) : Nat := wbits (d.w 15) 0 6
def Desc.admitCount (d : Desc) : Nat := wbits (d.w 15) 6 4
def Desc.ttl (d : Desc) : Nat := wbits (d.w 15) 10 17
def Desc.init (d : Desc) : Nat := wbits (d.w 15) 27 2
def Desc.initExp (d : Desc) : Int := signed 8 (wbits (d.w 15) 29 8)
def Desc.hashSeed (d : Desc) : Nat := (d.w 16).toNat
def Desc.horizon (d : Desc) : Nat := wbits (d.w 17) 0 16
def Desc.wideCol (d : Desc) (j : Nat) : Nat := wbits (d.w (18 + j / 6)) (10 * (j % 6)) 10
def Desc.effStep (d : Desc) : Nat := wbits (d.w 21) 0 48
def Desc.digest (d : Desc) : Nat := wbits (d.w 22) 0 32
def Desc.gradGrid (d : Desc) : Int := signed 8 (wbits (d.w 24) 0 8)
def Desc.clipMode (d : Desc) : Nat := wbits (d.w 24) 8 2
def Desc.decayMode (d : Desc) : Nat := wbits (d.w 24) 10 2
def Desc.biasCorr (d : Desc) : Bool := wbit (d.w 24) 12
def Desc.precGrid (d : Desc) : Int := signed 8 (wbits (d.w 24) 13 8)
def Desc.lr (d : Desc) : Nat := wbits (d.w 24) 32 32
def Desc.b1 (d : Desc) : Nat := wbits (d.w 25) 0 32
def Desc.b2 (d : Desc) : Nat := wbits (d.w 25) 32 32
def Desc.eps (d : Desc) : Nat := wbits (d.w 26) 0 32
def Desc.decay (d : Desc) : Nat := wbits (d.w 26) 32 32
def Desc.clip (d : Desc) : Nat := wbits (d.w 27) 0 32
def Desc.trustMax (d : Desc) : Nat := wbits (d.w 27) 32 32
def Desc.l1 (d : Desc) : Nat := wbits (d.w 28) 0 32
def Desc.l2 (d : Desc) : Nat := wbits (d.w 28) 32 32
def Desc.ftrlBeta (d : Desc) : Nat := wbits (d.w 29) 0 32
def Desc.precBase (d : Desc) : Nat := wbits (d.w 30) 0 57
def Desc.origin (d : Desc) : Nat := wbits (d.w 31) 0 48

def Desc.setW (d : Desc) (i lo n v : Nat) : Desc := { d with words := d.words.modify i fun w => wset w lo n v }
def Desc.setState (d : Desc) (v : Nat) : Desc := d.setW 0 28 3 v
def Desc.setRowmode (d : Desc) (b : Bool) : Desc := d.setW 0 31 1 (natOfBool b)

/-- The wide slot of a column, if the column is wide (02 R36). -/
def Desc.wideSlot (d : Desc) (c : Nat) : Option Nat := firstBelow (fun j => d.wideCol j == c) d.nWide

/-- CRC-32 of the 256 bytes with STATE, ROWMODE, EFFECTIVE_STEP and DIGEST taken as zero (02 Table 2.1). -/
def Desc.computeDigest (d : Desc) : Nat :=
  crc32 (wordsBytes (((d.setW 0 28 4 0).setW 21 0 48 0).setW 22 0 32 0).words)

/-! ### Sheets (02 R30) -/

def Desc.ownerSlot (d : Desc) (r : Nat) : Nat := (r >>> d.gran) % d.sheets
def Desc.localIndex (d : Desc) (r : Nat) : Nat := ((r >>> d.gran) / d.sheets) * 2 ^ d.gran + r % 2 ^ d.gran
def Desc.rowOf (d : Desc) (slot i : Nat) : Nat := ((i >>> d.gran) * d.sheets + slot) * 2 ^ d.gran + i % 2 ^ d.gran
def Desc.owner (d : Desc) (r : Nat) : Nat := d.sheetMap (d.ownerSlot r)

/-- The sheet slot a block holds, if any. -/
def Desc.sheetOf (d : Desc) (b : Nat) : Option Nat := firstBelow (fun i => d.sheetMap i == b) d.sheets

/-! ### Layouts (02 R31 to R34, 07 R182) -/

def Desc.mstride (d : Desc) : Nat := roundUp (16 + 4 * d.width) 64
def Desc.masterAddr (d : Desc) (r : Nat) : Nat := d.masterBase + d.localIndex r * d.mstride

/-- Fine legend bytes of a working copy (02 R34). -/
def Desc.nFine (d : Desc) : Nat := if d.wfmt ≤ 3 && !d.e1 then ceilDiv d.width 32 else 0
def Desc.nCode (d : Desc) : Nat := d.width * codeBits d.wfmt / 8
def Desc.copyLen (d : Desc) : Nat := roundUp (4 + d.nFine + d.nCode + 2 * d.nWide) 8
/-- Whether the coarse legend scales this version's codes (05 R119). -/
def Desc.usesLegend (d : Desc) : Bool := d.wfmt ≤ 3 && !d.e1

/-- The state parts a rule keeps: PART number and whether it is scalar (07 Table 7.1). -/
def ruleParts (rule : Nat) : List (Nat × Bool) := match rule with
  | 1 => [(1, false)]
  | 2 => [(2, false)]
  | 3 => [(2, true)]
  | 4 => [(1, false), (2, false)]
  | 5 => [(1, false), (2, true)]
  | 6 => [(1, false), (2, false)]
  | 7 => [(1, false), (2, true)]
  | 8 => [(1, false), (2, false)]
  | 9 => [(1, false), (2, false)]
  | 10 => [(1, false), (3, true)]
  | _ => []

/-- Bytes of the payload of a state part (07 R182). -/
def partPayload (ofmt width : Nat) (scalar : Bool) : Nat :=
  if scalar then 4 else if ofmt == 0 then 4 * width else if ofmt == 1 then 2 * width else ceilDiv width 32 + width

def partLen (ofmt width : Nat) (scalar : Bool) : Nat := roundUp (16 + partPayload ofmt width scalar) 64

def Desc.sstride (d : Desc) : Nat := sumNat ((ruleParts d.rule).map fun p => partLen d.ofmt d.width p.2)
def Desc.stateAddr (d : Desc) (r : Nat) : Nat := d.stateBase + d.localIndex r * d.sstride

/-- A master part header (02 Table 2.2). -/
def partHeader (row table part stamp version : Nat) : Bytes :=
  leBytes 8 (fld 0 40 row + fld 40 12 table + fld 52 4 part) ++ leBytes 8 (fld 0 48 stamp + fld 48 16 version)

def hdrRow (b : Bytes) : Nat := bits (leAt b 0 8) 0 40
def hdrTable (b : Bytes) : Nat := bits (leAt b 0 8) 40 12
def hdrPart (b : Bytes) : Nat := bits (leAt b 0 8) 52 4
def hdrStamp (b : Bytes) : Nat := bits (leAt b 8 8) 0 48
def hdrVersion (b : Bytes) : Nat := bits (leAt b 8 8) 48 16

/-- A weight part from its elements (02 R33): the bytes past the elements are zero. -/
def weightPart (d : Desc) (row stamp version : Nat) (els : Bytes) : Bytes :=
  padTo d.mstride (partHeader row d.tableId 0 stamp version ++ els.take (4 * d.width))

/-- A state record of zeros under a stamp (02 R50, 07 R182). -/
def zeroState (d : Desc) (row stamp version : Nat) : Bytes :=
  ((ruleParts d.rule).map fun p => padTo (partLen d.ofmt d.width p.2) (partHeader row d.tableId p.1 stamp version)).flatten

/-! ### Working copies (05 R119, R122 to R124; 07 R198) -/

/-- The coarse exponent of column c from the legend bytes. -/
def coarse (legend : Bytes) (c : Nat) : Int := signed 8 (leAt legend c 1)

/-- Derive a working copy from a weight part and the coarse legend, with the flags the derivation raises. -/
def deriveCopy (d : Desc) (legend part : Bytes) : Bytes × Flags :=
  let w := d.width
  let val := fun e => masterVal d.mfmt (leAt part (16 + 4 * e) 4)
  let wide := fun e => (d.wideSlot e).isSome
  let elems := List.range w
  let (e1exp, fines) : Int × List Int :=
    if 4 ≤ d.wfmt then (0, [])
    else if d.e1 then (fineExp d.wfmt d.wsigned (elems.map fun e => (val e, 0)), [])
    else (0, (List.range d.nFine).map fun b =>
      fineExp d.wfmt d.wsigned (((elems.drop (32 * b)).take 32).filterMap fun e => if wide e then none else some (val e, coarse legend e)))
  let one := fun e =>
    if wide e then (0, ({} : Flags))
    else if 4 ≤ d.wfmt then codeOne d.wfmt d.wsigned (val e) 0
    else if d.e1 then codeOne d.wfmt d.wsigned (val e) e1exp
    else codeOne d.wfmt d.wsigned (val e) (coarse legend e + fines.getD (e / 32) 0)
  let codes := elems.map one
  let wides := (List.range d.nWide).map fun j => codeOne 4 d.wsigned (val (d.wideCol j)) 0
  let flags := (codes.map (·.2) ++ wides.map (·.2)).foldl Flags.or {}
  let codeBytes := if d.wfmt == 0 then
      (List.range (w / 2)).map fun j => BitVec.ofNat 8 ((codes.getD (2 * j) (0, {})).1 % 16 + 16 * ((codes.getD (2 * j + 1) (0, {})).1 % 16))
    else (codes.map fun c => leBytes (codeBits d.wfmt / 8) c.1).flatten
  let hdr := leBytes 4 (fld 0 16 (hdrStamp part) + fld 16 8 (hdrVersion part) + fld 24 8 (pattern 8 e1exp))
  (padTo d.copyLen (hdr ++ (fines.map fun f => leBytes 1 (pattern 8 f)).flatten ++ codeBytes ++ (wides.map fun x => leBytes 2 x.1).flatten), flags)

/-- The value of column c of a working copy (05 R119). -/
def copyVal (d : Desc) (legend copy : Bytes) (c : Nat) : Val :=
  match d.wideSlot c with
  | some j => bf16.dec (leAt copy (4 + d.nFine + d.nCode + 2 * j) 2)
  | none =>
    let base := 4 + d.nFine
    let code := if d.wfmt == 0 then bits (leAt copy (base + c / 2) 1) (4 * (c % 2)) 4 else leAt copy (base + c * (codeBits d.wfmt / 8)) (codeBits d.wfmt / 8)
    let v := codeVal d.wfmt d.wsigned code
    if 4 ≤ d.wfmt then v
    else if d.e1 then v.scale (signed 8 (leAt copy 3 1))
    else v.scale (coarse legend c + signed 8 (leAt copy (4 + c / 32) 1))

/-! ### Live descriptors -/

def gazKey (slot table version : Nat) : Nat := (slot * 4096 + table) * 65536 + version

def findDesc (s : State) (slot table version : Nat) : Option Desc := mfind (gazKey slot table version) s.gaz

/-- Every live descriptor of a table. -/
def liveDescs (s : State) (slot table : Nat) : List Desc :=
  (s.gaz.filter fun x => x.1 / 65536 == slot * 4096 + table).map (·.2)

def slotDescs (s : State) (slot : Nat) : List Desc := (s.gaz.filter fun x => x.1 / (65536 * 4096) == slot).map (·.2)

def putDesc (slot : Nat) (d : Desc) (s : State) : State := { s with gaz := mput (gazKey slot d.tableId d.version) d s.gaz }

def delDesc (slot table version : Nat) (s : State) : State := { s with gaz := mdel (gazKey slot table version) s.gaz }

/-- Whether a migration moves a sheet of this version from a step on (14 R385). -/
def Mig.moves (m : Mig) (slot table version step : Nat) : Bool := m.slot == slot && m.table == table && m.version == version && decide (m.step ≤ step)

/-- Whether this block is the new owner of a sheet that is on its way here, and that a step finds here (14 R385). -/
def migComing (s : State) (slot table version step : Nat) : Bool := match s.mig with
  | some m => m.dest == self s && m.moves slot table version step
  | none => false

/-- The descriptor as it is in force for a step: an active migration changes its sheet's owner from the cutover step on, and the DIGEST with it (14 R385). -/
def atStep (s : State) (slot step : Nat) (d : Desc) : Desc :=
  match s.mig with
  | some m =>
    if m.moves slot d.tableId d.version step then
      let d' := d.setW (2 + m.sheet / 8) (8 * (m.sheet % 8)) 6 m.dest
      d'.setW 22 0 32 d'.computeDigest
    else d
  | none => d

/-- Result of binding one table (02 R43). -/
inductive Bind where
  | version (v : Nat)
  | retired
  | badState
deriving DecidableEq, Repr

/-- Bind a table for an operation of a step (02 R43); writes says that the operation writes gradients. -/
def bindTable (s : State) (slot table named step : Nat) (writes : Bool) : Bind :=
  let ds := liveDescs s slot table
  if named == 0 then
    match ds.find? (fun d => d.state == 2 && decide (d.effStep ≤ step)) with
    | some d => .version d.version
    | none =>
      match ds.find? (fun d => d.state == 3 && decide (step ≤ d.lastStep)) with
      | some d => .version d.version
      | none => .retired
  else
    match ds.find? (fun d => d.version == named) with
    | none => .retired
    | some d =>
      if writes && (d.state == 1 || (d.state == 3 && decide (d.lastStep < step))) then .badState else .version named

/-- The version an owner binds for a step (02 R44). -/
def ownBinding (s : State) (slot table step : Nat) : Option Nat :=
  match bindTable s slot table 0 step false with
  | .version v => some v
  | _ => none

/-! ### Admission (02 R37 to R40) -/

def dirHash (d : Desc) (key : Nat) : Nat := mix ((key ^^^ d.hashSeed) % 2 ^ 64)
def admOwnerSlot (d : Desc) (key : Nat) : Nat := bits (dirHash d key) 32 32 % d.sheets
def admOwner (d : Desc) (key : Nat) : Nat := d.sheetMap (admOwnerSlot d key)
def admBucket (d : Desc) (key : Nat) : Nat := bits (dirHash d key) 0 d.dirLog2

/-- Directory entry fields (02 Table 2.3): key, local index, kind, count, seen. -/
structure DirEnt where
  key : Nat
  loc : Nat
  kind : Nat
  count : Nat
  seen : Nat
deriving DecidableEq, Repr

def readEnt (b : Bytes) (off : Nat) : DirEnt :=
  let w1 := leAt b (off + 8) 8
  { key := leAt b off 8, loc := bits w1 0 40, kind := bits w1 40 2, count := bits w1 42 4, seen := bits w1 46 18 }

def DirEnt.bytes (e : DirEnt) : Bytes :=
  leBytes 8 e.key ++ leBytes 8 (fld 0 40 e.loc + fld 40 2 e.kind + fld 42 4 e.count + fld 46 18 e.seen)

/-- The latest step at or before s whose low 18 bits equal SEEN (02 R39). -/
def lastSeen (s seen : Nat) : Int := (s : Int) - (((s % 2 ^ 18 + 2 ^ 18 - seen % 2 ^ 18) % 2 ^ 18 : Nat) : Int)

def entLive (d : Desc) (s : Nat) (e : DirEnt) : Bool := (e.kind == 1 || e.kind == 2) && decide ((s : Int) - lastSeen s e.seen ≤ (d.ttl : Int))

/-- Byte offset of a bucket, of the overflow list, of the free bitmap and of the sweep cursor in a sheet's directory (02 R38). -/
def dirBucketOff (b : Nat) : Nat := 128 * b
def dirOverOff (d : Desc) : Nat := 128 * 2 ^ d.dirLog2
def dirBitmapOff (d : Desc) : Nat := dirOverOff d + 65536 * 16
def sheetRows (d : Desc) (slot : Nat) : Nat :=
  -- local indices of a sheet: granules of the slot, the last one cut at the row count
  let g := 2 ^ d.gran
  let full := d.rows / g
  let q := full / d.sheets
  let r := full % d.sheets
  q * g + (if slot < r then g else if slot == r then d.rows % g else 0)
/-- Offset of the sweep cursor. The bitmap fills whole words of 8 bytes, and the cursor follows at once (DESIGN CHOICE, log 70: the manual gives no padding; 07 R204 speaks of free-bitmap words). -/
def dirCursorOff (d : Desc) (slot : Nat) : Nat := dirBitmapOff d + roundUp (ceilDiv (sheetRows d slot) 8) 8

/-! ### Descriptor checks (02 R28) -/

def isFinite32 (c : Nat) : Bool := bits c 23 8 != 255
def isPosZero (c : Nat) : Bool := bits c 31 1 == 0
/-- At least 0, of either sign, and below 1. -/
def below1 (c : Nat) : Bool := decide (bits c 0 31 < 0x3F800000) && (isPosZero c || bits c 0 31 == 0)
def positive32 (c : Nat) : Bool := isFinite32 c && isPosZero c && bits c 0 31 != 0
def nonNeg32 (c : Nat) : Bool := isFinite32 c && isPosZero c

/-- Fields a rule uses and whether each holds a legal value: word, bit, legality, in the order of Table 7.2 (07 R180). -/
def ruleChecks (d : Desc) : List (Nat × Nat × Bool) :=
  let r := d.rule
  let usesB1 := r == 1 || decide (4 ≤ r ∧ r ≤ 7) || r == 9 || r == 10
  let usesB2 := decide (4 ≤ r ∧ r ≤ 7) || r == 9
  let usesEps := decide (2 ≤ r ∧ r ≤ 7) || r == 9 || r == 10
  let dec2 := r == 6 || r == 7 || r == 9
  [(24, 8, decide (d.clipMode ≤ 2)),
   (24, 10, decide (d.decayMode ≤ 2) && (if dec2 then d.decayMode == 2 else d.decayMode != 2)),
   (24, 32, nonNeg32 d.lr && (r != 8 || bits d.lr 0 31 != 0)),
   (25, 0, !usesB1 || below1 d.b1),
   (25, 32, !usesB2 || below1 d.b2),
   (26, 0, !usesEps || positive32 d.eps),
   (26, 32, d.decayMode == 0 || nonNeg32 d.decay),
   (27, 0, d.clipMode == 0 || positive32 d.clip),
   (27, 32, r != 9 || positive32 d.trustMax),
   (28, 0, r != 8 || nonNeg32 d.l1),
   (28, 32, r != 8 || nonNeg32 d.l2),
   (29, 0, r != 8 || nonNeg32 d.ftrlBeta),
   (30, 0, r != 10 || (bits (d.w 30).toNat 0 6 == 0 && decide (d.width ≤ 256)))]

/-- Word and bit of SHEET_MAP[i]. -/
def mapPos (i : Nat) : Nat × Nat := (2 + i / 8, 8 * (i % 8))

/-- Word and bit of WIDE_COL[j]. -/
def widePos (j : Nat) : Nat × Nat := (18 + j / 6, 10 * (j % 6))

/-- The checks of R28 as a list: item, word, bit, and whether the check holds; in the order of the rule. blocks is the torus block count. -/
def descChecks (d : Desc) (blocks : Nat) (versions : List Nat) : List (Nat × Nat × Nat × Bool) :=
  let aligned := fun i => bits (d.w i).toNat 0 6 == 0
  [(1, 0, 40, decide (d.wfmt ≤ 5)), (1, 0, 52, decide (d.mfmt ≤ 1)), (1, 0, 54, decide (d.ofmt ≤ 2)), (1, 0, 56, decide (d.rule ≤ 10))]
  ++ (ruleChecks d).map (fun x => (1, x.1, x.2.1, x.2.2))
  ++ [(2, 1, 45, decide (1 ≤ d.sheets ∧ d.sheets ≤ 64))]
  ++ (List.range (min d.sheets 64)).map (fun i =>
      (2, (mapPos i).1, (mapPos i).2,
        decide (d.sheetMap i < blocks) && (List.range i).all (fun k => d.sheetMap k != d.sheetMap i)))
  ++ [(3, 1, 40, decide (d.gran ≤ 24))]
  ++ [(4, 0, 46, decide (d.nWide ≤ 16))]
  ++ (if d.nWide == 0 then [] else
      [(4, 0, 40, decide (d.wfmt ≤ 3)), (4, 0, 45, !d.e1)]
      ++ (List.range (min d.nWide 16)).map (fun j =>
          (4, (widePos j).1, (widePos j).2, decide (d.wideCol j < d.width) && (j == 0 || decide (d.wideCol (j - 1) < d.wideCol j)))))
  ++ [(5, 0, 40, !d.e1 || decide (d.wfmt ≤ 1))]
  ++ [(6, 10, 0, aligned 10), (6, 11, 0, d.rule == 0 || aligned 11), (6, 12, 0, !d.usesLegend || aligned 12), (6, 13, 0, !d.admits || aligned 13)]
  ++ (if !d.admits then [] else
      [(7, 15, 0, decide (10 ≤ d.dirLog2 ∧ d.dirLog2 ≤ 32)), (7, 15, 6, decide (1 ≤ d.admitCount)), (7, 15, 10, decide (1 ≤ d.ttl)), (7, 15, 27, decide (d.init ≤ 1)),
       (7, 15, 10, decide (d.horizon ≤ d.ttl)), (7, 14, 0, !d.defaultValid || decide (d.defaultRow < d.rows))])
  ++ [(8, 0, 12, d.version != 0 && !versions.contains d.version)]

/-- The first failed check of R28: item, word and bit. -/
def descFail (d : Desc) (blocks : Nat) (versions : List Nat) : Option (Nat × Nat × Nat) :=
  ((descChecks d blocks versions).find? (fun x => !x.2.2.2)).map fun x => (x.1, x.2.1, x.2.2.1)

/-- Bits of each descriptor word that hold fields; the others are reserved and stored as zero (02 R27). -/
def descMask (i : Nat) : Nat :=
  if i == 0 then 2 ^ 60 - 1 else if i == 1 then 2 ^ 52 - 1 else if i ≤ 9 then 0x3F3F3F3F3F3F3F3F
  else if i ≤ 13 then 2 ^ 57 - 1 else if i == 14 then 2 ^ 41 - 1 else if i == 15 then 2 ^ 37 - 1 else if i == 16 then 2 ^ 64 - 1
  else if i == 17 then 0xFFFF else if i ≤ 19 then 2 ^ 60 - 1 else if i == 20 then 2 ^ 40 - 1 else if i ≤ 23 then 0
  else if i == 24 then 0xFFFFFFFF001FFFFF else if i == 29 then 2 ^ 32 - 1 else if i == 30 then 2 ^ 57 - 1 else if i == 31 then 2 ^ 48 - 1 else 2 ^ 64 - 1

/-- A descriptor as GZ_DEFINE stores it: reserved bits zero, state READY, the fields of the block its own (02 R27, R28). -/
def storeDesc (ws : List Word) : Desc :=
  let d : Desc := { words := (List.range 32).map fun i => ws.getD i 0 &&& word (descMask i) }
  let d := ((d.setW 0 28 4 0).setW 21 0 48 0).setW 22 0 32 0
  (d.setW 22 0 32 d.computeDigest).setState 1

end Sys2Proof.Machine
end

