-- ==== Sys2Proof/Machine/Translate.lean ====
section
/-! DEFINITION. Address translation: range tables, walks, buffers, the fault queue and hot pages (chapter 09). -/

namespace Sys2Proof.Machine

/-! ### Clients (09 Table 9.1, R255) -/

def CLI.gather (phys : Nat) : Nat := phys
def CLI.update (phys : Nat) : Nat := 144 + phys
def CLI.hbm (k : Nat) : Nat := 288 + k
def CLI.command : Nat := 296
def CLI.hostWin : Nat := 297
def CLI.winRecv : Nat := 298

/-- End of the device address space. -/
def vaEnd : Nat := 2 ^ 57

def farLimit (s : State) : Nat := fget s R.TLB_FAR_LIMIT F.TLB_FAR_LIMIT_LIMIT

/-- Whether a span lies in far memory available to contexts (09 R246): below TLB_FAR_LIMIT, or in the free part of one stack's tail (08 R231). -/
def farAvailable (s : State) (pa len : Nat) : Bool :=
  decide (pa + len ≤ farLimit s) ||
  (decide (8 * farLim ≤ pa) && decide (pa + len ≤ farSize) &&
    (let k := (pa - 8 * farLim) / mib 114
     let x := (pa - 8 * farLim) % mib 114
     decide ((if k == 0 then mib 113 + 4096 else mib 65) ≤ x) && decide (x + len ≤ mib 114)))

/-- Outcome of a walk (09 R245); a walk that could not read its table for an uncorrectable error names the address read. -/
inductive WalkRes where
  | entry (e : TEnt)
  | hole (lo hi : Nat)
  | bad (lo hi : Nat) (ue : Option Nat)
deriving DecidableEq, Repr

/-- One range entry of 32 bytes (09 Table 9.2). -/
structure RawEnt where
  typ : Nat
  rd : Bool
  wr : Bool
  acct : Bool
  start : Nat
  pages : Nat
  key : Nat
  target : Nat
deriving DecidableEq, Repr

def RawEnt.stop (e : RawEnt) : Nat := e.start + 4096 * e.pages

def rawEnt (b : Bytes) : RawEnt :=
  let w0 := leAt b 0 8
  let w1 := leAt b 8 8
  { typ := bits w0 0 4, rd := bits w0 4 1 == 1, wr := bits w0 5 1 == 1, acct := bits w0 6 1 == 1, start := bits w0 12 45 * 4096,
    pages := bits w1 0 45 + 1, key := bits w1 45 6, target := leAt b 16 8 }

/-- R244, for an entry of a table; prev is the entry before it. -/
def malformed (s : State) (win : Bool) (prev : Option RawEnt) (e : RawEnt) : Bool :=
  decide (5 ≤ e.typ)
  || ((e.typ == 1 || e.typ == 2) && e.key == 0)
  || decide (vaEnd < e.stop)
  || (match prev with
      | some p => decide (e.start < p.stop) || decide (e.start < p.start)
      | none => false)
  || (e.typ == 1 && !farAvailable s (bits e.target 12 28 * 4096) (4096 * e.pages))
  || (e.typ == 3 && (decide (nblocks s ≤ bits e.target 0 6) || bits e.target 0 6 == self s))
  || (win && e.typ != 1 && e.typ != 4)

/-- What a walker reads: bytes, or why it cannot: an uncorrectable error at an address, or the state of context 0. -/
abbrev WalkRead := Except (Option Nat) Bytes

/-- How many entries start at or below va, by halving, where every entry it looks at can be read. -/
def searchEnt (rd : Nat → WalkRead) (va : Nat) : Nat → Nat → Nat → Except (Option Nat) Nat
  | 0, lo, _ => .ok lo
  | f + 1, lo, hi =>
    -- entries below lo start at or below va; entries from hi on start above it
    if hi ≤ lo then .ok lo else
    let mid := (lo + hi) / 2
    match rd mid with
    | .error e => .error e
    | .ok b => if (rawEnt b).start ≤ va then searchEnt rd va f (mid + 1) hi else searchEnt rd va f lo mid

def targetOf (e : RawEnt) : Nat :=
  if e.typ == 1 then bits e.target 12 28 * 4096 else if e.typ == 2 then bits e.target 12 52 * 4096 else bits e.target 0 57

/-- The outcome of a walk that has read a table: k of its n entries start at or below va, nextStart is the start of the next one. -/
def walkEnd (s : State) (ent : Nat → WalkRead) (ctx va k hi : Nat) : Except (Option Nat) WalkRes :=
  if k == 0 then .ok (.hole 0 hi) else
  match ent (k - 1) with
  | .error x => .error x
  | .ok b =>
    let e := rawEnt b
    if e.stop ≤ va then .ok (.hole e.stop hi) else
    match (if k == 1 then .ok none else (ent (k - 2)).map fun b => some (rawEnt b)) with
    | .error x => .error x
    | .ok prev =>
      if malformed s (decide (64 ≤ ctx)) prev e then .ok (.bad e.start e.stop none)
      else if e.typ == 0 then .ok (.hole ((prev.map RawEnt.stop).getD 0) hi)
      else .ok (.entry { ctx := ctx, lo := e.start, hi := e.stop, typ := e.typ, rd := e.rd, wr := e.wr, acct := e.acct, key := e.key, target := targetOf e, fatal := false })

/-- The walk of R245 over a table whose lines are read by rd (an address and a length). -/
def walkTable (s : State) (rd : Nat → Nat → WalkRead) (base ctx va : Nat) : WalkRes :=
  let ent := fun i => rd (base + 64 + 32 * i) 32
  let res := (rd base 8).bind fun h =>
    let n := bits (leNat h) 0 24
    (searchEnt ent va 25 0 n).bind fun k =>
      (if k < n then (ent k).map (fun b => (rawEnt b).start) else .ok vaEnd).bind fun hi => walkEnd s ent ctx va k hi
  match res with
  | .ok r => r
  | .error ue => .bad (va / 4096 * 4096) (va / 4096 * 4096 + 4096) ue

/-- A read of far memory by physical address under a selector, for the walker. -/
def physRead (s : State) (sel pa n : Nat) : WalkRead :=
  if !keyLoaded s sel || decide (farSize < pa + n) then .error none
  else if farUE s pa n then .error (some pa)
  else .ok (farRead s (keyOf s sel) pa n)

def ctxEnabled (s : State) (k : Nat) : Bool := fbit s (R.TLB_CTXk_ROOT k) F.TLB_CTXk_ROOT_ENABLE

def rootBase (s : State) (ctx : Nat) : Nat :=
  if ctx < 64 then fget s (R.TLB_CTXk_ROOT ctx) F.TLB_CTXk_ROOT_BASE * 64 else fget s (R.TLB_WINw_CFG (ctx - 64)) F.TLB_WINw_CFG_BASE * 64

/-- The identity map of context 0 while its table is off (09 R240). -/
def identity (s : State) (va : Nat) : WalkRes :=
  if va < farLimit s then .entry { ctx := 0, lo := 0, hi := farLimit s, typ := 1, rd := true, wr := true, acct := false, key := 1, target := 0, fatal := false }
  else .hole (farLimit s) vaEnd

def walk0 (s : State) (va : Nat) : WalkRes :=
  if ctxEnabled s 0 then walkTable s (fun a n => physRead s 1 a n) (rootBase s 0) 0 va else identity s va

/-- A read of context 0 by the walker (09 R243, R245). -/
def ctx0Read (s : State) (a n : Nat) : WalkRead :=
  match walk0 s a with
  | .entry e => if e.typ == 1 && e.rd then physRead s e.key (e.target + (a - e.lo)) n else .error none
  | .bad _ _ ue => .error ue
  | _ => .error none

/-- A walk of a context or window (09 R240, R245). -/
def walk (s : State) (ctx va : Nat) : WalkRes :=
  if ctx == 0 then walk0 s va
  else if ctx < 64 && !ctxEnabled s ctx then .hole 0 vaEnd
  else walkTable s (ctx0Read s) (rootBase s ctx) ctx va

/-! ### Buffers -/

def TEnt.has (e : TEnt) (ctx va : Nat) : Bool := e.ctx == ctx && decide (e.lo ≤ va) && decide (va < e.hi)

def TEnt.meets (e : TEnt) (ctx lo hi : Nat) : Bool := e.ctx == ctx && decide (e.lo < hi) && decide (lo < e.hi)

/-- Put an entry first, dropping what it overlaps, within a capacity (09 R248: least recently used leaves). -/
def bufFill (cap : Nat) (e : TEnt) (l : List TEnt) : List TEnt := (e :: l.filter (fun x => !x.meets e.ctx e.lo e.hi)).take cap

/-- Move an entry to the front. -/
def bufTouch (e : TEnt) (l : List TEnt) : List TEnt := e :: l.filter (fun x => x != e)

def l1Of (s : State) (client : Nat) : List TEnt := mgetD client [] s.l1

def setL1 (client : Nat) (l : List TEnt) (s : State) : State := { s with l1 := mput client l s.l1 }

/-- Drop the entries and holes of a context that overlap a span from every buffer. -/
def dropSpan (ctx lo hi : Nat) (s : State) : State :=
  { s with
    l1 := s.l1.map fun x => (x.1, x.2.filter fun e => !e.meets ctx lo hi)
    l2 := s.l2.filter fun e => !e.meets ctx lo hi }

/-- Drop everything that satisfies p from every buffer. -/
def dropWhere (p : TEnt → Bool) (s : State) : State :=
  { s with
    l1 := s.l1.map fun x => (x.1, x.2.filter fun e => !p e)
    l2 := s.l2.filter fun e => !p e }

/-! ### Faults (09 R253 to R256) -/

def FK.notMapped : Nat := 1
def FK.noRead : Nat := 2
def FK.noWrite : Nat := 3
def FK.keyAbsent : Nat := 4
def FK.badEntry : Nat := 5

inductive TRes where
  | ok (e : TEnt)
  | fatal
  | wait
deriving DecidableEq, Repr

/-- A fault is raised: counted, and shown by its kind (09 Table 9.11). -/
def faultRaised (kind : Nat) (s : State) : State :=
  let s := when (kind == FK.badEntry) (setBit R.TLB_STATUS 2) (bump1 R.CNT_FQ_FAULT s)
  when (kind == FK.keyAbsent) (setBit R.TLB_STATUS 3) s

/-- Merge a request into a pending fault, or give it a free slot; none where every slot is taken (09 R255). -/
def queueFault (kind lo hi : Nat) (r : TReq) (s : State) : Option State :=
  match s.fq.find? (fun x => x.2.ctx == r.ctx && x.2.kind == kind && decide (x.2.lo ≤ r.va) && decide (r.va < x.2.hi)) with
  | some (i, f) =>
    some (bump1 R.CNT_FQ_MERGE { s with fq := mput i { f with merged := sat 18 (f.merged + 1), waiters := f.waiters ++ [r] } s.fq })
  | none =>
    let i := lowestFree (s.fq.map (·.1))
    if 4096 ≤ i then none else
      let gen := (mgetD i 0 s.fqGen + 1) % 2 ^ 16
      let order := maxNat 0 (s.fq.map fun x => x.2.order) + 1
      let f : FqSlot := { gen := gen, kind := kind, ctx := r.ctx, write := r.write, source := r.source, merged := 0, addr := r.va, lo := lo, hi := hi, order := order, waiters := [r] }
      let s := { s with fq := mput i f s.fq, fqGen := mput i gen s.fqGen }
      some (faultRaised kind s)

/-- A faulting request merges, takes a slot, or is parked (09 R255). -/
def raiseFault (kind lo hi : Nat) (r : TReq) (s : State) : State :=
  match queueFault kind lo hi r s with
  | some s => s
  | none => setBit R.TLB_STATUS 0 (bump1 R.CNT_FQ_FULL { s with parked := s.parked ++ [{ kind := kind, lo := lo, hi := hi, req := r }] })

/-- Mark the holes of a span fatal in the second level (09 R257). -/
def markFatal (ctx lo hi : Nat) (s : State) : State :=
  { s with l2 := updWhere (fun e => e.typ == 0 && e.meets ctx lo hi) (fun e => { e with fatal := true }) s.l2 }

/-- A fault raised while the host is lost is answered FATAL at once (11 R310, step 5). -/
def faultLost (kind : Nat) (r : TReq) (lo hi : Nat) (s : State) : State :=
  setBit R.TLB_STATUS 1 (bump1 R.CNT_FQ_FATAL (faultRaised kind (markFatal r.ctx lo hi s)))

/-- Raise the hot-page count of an access under ACCT = 1 (09 R266). -/
def hotAccess (ctx va : Nat) (s : State) : State :=
  let page := va / 2 ^ 21
  let i := Config.hotHash ctx page % 8192
  let c := min 65535 (mgetD i 0 s.hot + 1)
  let id := ctx * 2 ^ 36 + page
  let s := { s with hot := mput i c s.hot }
  if fget s R.TLB_CFG F.TLB_CFG_HOT_T ≤ c && !s.hotHeld.contains id then
    let n := (rget s R.TLB_HOT_COUNT).toNat
    let s := { s with hotHeld := s.hotHeld ++ [id], hotRing := mput (n % 256) (word (fld 0 36 page + fld 36 6 ctx + fld 42 16 c)) s.hotRing }
    setBit R.TLB_STATUS 7 (bump1 R.CNT_HOT_NOTICE (rset R.TLB_HOT_COUNT (word (n + 1)) s))
  else s

/-- What an entry answers to an access: the entry, a fatal POISON, or a fault kind (09 R253). -/
def checkEnt (s : State) (write : Bool) (e : TEnt) : Option Nat :=
  if e.typ == 4 then some 0
  else if !write && !e.rd then some FK.noRead
  else if write && !e.wr then some FK.noWrite
  else if (e.typ == 1 || e.typ == 2) && !keyLoaded s e.key then some FK.keyAbsent
  else none

/-- Look a line up in the client's buffer, the second level, and by a walk, filling as R248 states; an uncorrectable error that the walk meets is counted as R234 states. An access that raises no queued fault leaves no hole behind, and walks where a hole still waits on the fault of another, so that its outcome depends on no buffer (keep false: 09 R242, R247, R265; 11 R301; DEDUCED, log 83). -/
def lookup (keep : Bool) (client ctx va : Nat) (s : State) : WalkRes × Bool × State :=
  let fillL1 := fun (e : TEnt) (s : State) => if client == CLI.winRecv || e.typ == 0 then s else setL1 client (bufFill 64 e (l1Of s client)) s
  match (l1Of s client).find? (fun e => e.has ctx va) with
  | some e => (.entry e, false, setL1 client (bufTouch e (l1Of s client)) s)
  | none =>
    let s := if client == CLI.winRecv then s else bump1 R.CNT_TLB_L1_MISS s
    match s.l2.find? (fun e => e.has ctx va && (keep || e.typ != 0 || e.fatal)) with
    | some e =>
      let s := { s with l2 := bufTouch e s.l2 }
      if e.typ == 0 then (.hole e.lo e.hi, e.fatal, s) else (.entry e, false, fillL1 e s)
    | none =>
      let s := bump1 R.CNT_TLB_WALK (bump1 R.CNT_TLB_L2_MISS s)
      match walk s ctx va with
      | .entry e => (.entry e, false, fillL1 e { s with l2 := bufFill 16384 e s.l2 })
      | .hole lo hi =>
        (.hole lo hi, false, if !keep then s else { s with l2 := bufFill 16384 { ctx := ctx, lo := lo, hi := hi, typ := 0, rd := false, wr := false, acct := false, key := 0, target := 0, fatal := false } s.l2 })
      | .bad lo hi ue => (.bad lo hi none, false, (ue.map fun pa => hbmUE pa s).getD s)

/-- Whether a client holds a request back: one of its requests of that context is parked (09 R255), and it is no waiting request that an answer issues again (09 R257). -/
def heldBack (s : State) (r : TReq) : Bool := s.reissued != some r.who && s.parked.any fun p => p.req.client == r.client && p.req.ctx == r.ctx

/-- Translate one line for a request (09 R241 to R256); nowait answers every fault fatal and queues none (R265). -/
def translate (nowait : Bool) (r : TReq) (s : State) : TRes × State :=
  -- a client issues no new request of a context until its parked one is queued
  if heldBack s r && !nowait then (.wait, { s with unissued := s.unissued ++ [r] }) else
  let (w, fatal, s) := lookup (!nowait) r.client r.ctx r.va s
  let fault := fun (kind lo hi : Nat) (s : State) =>
    if nowait then (TRes.fatal, s)
    else if fget s R.HST_STATE F.HST_STATE_LSTATE == 4 then (TRes.fatal, faultLost kind r lo hi s)
    else (TRes.wait, raiseFault kind lo hi r s)
  match w with
  | .bad lo hi _ => fault FK.badEntry lo hi s
  | .hole lo hi => if fatal then (.fatal, s) else fault FK.notMapped lo hi s
  | .entry e =>
    match checkEnt s r.write e with
    | none => (.ok e, if e.acct then hotAccess r.ctx r.va s else s)
    | some k => if k == 0 then (.fatal, bump1 R.CNT_TLB_POISON s) else fault k e.lo e.hi s

/-- Where an address under an entry lies: physical address, host address, or window offset. -/
def TEnt.at (e : TEnt) (va : Nat) : Nat := e.target + (va - e.lo)

/-- Block, window and offset of an address under a REMOTE entry (09 Table 9.3). -/
def TEnt.remote (e : TEnt) (va : Nat) : Nat × Nat × Nat := (bits e.target 0 6, bits e.target 6 4, bits e.target 12 45 * 4096 + (va - e.lo))

/-- How many requests of its client stand before a parked request: its turn (09 R255). -/
def parkTurn (l : List Parked) (i : Nat) (p : Parked) : Nat := ((l.take i).filter fun x => x.req.client == p.req.client).length

/-- Parked requests in the order they are queued: turn by turn, in each turn one of every client, lowest first. -/
def parkOrder (l : List Parked) : List Parked :=
  (sortBy (fun (x : Nat × Parked) => x.1 * 512 + x.2.req.client) (l.zipIdx.map fun x => (parkTurn l x.2 x.1, x.1))).map (·.2)

/-- Match and queue the parked requests as far as slots allow (09 R255). -/
def unpark (s : State) : State :=
  each (parkOrder s.parked) (fun p s => match queueFault p.kind p.lo p.hi p.req s with
    | some t => { t with parked := t.parked.erase p }
    | none => s) s

/-- The requests that no parked request holds back any more. -/
def released (s : State) : List TReq := s.unissued.filter fun r => !heldBack s r

end Sys2Proof.Machine
end

