-- ==== Sys2Proof/Machine/HostMem.lean ====
section
/-! DEFINITION. The block's own reads and writes of host memory: paths, posted writes, outstanding reads (11 R303 to R311). -/

namespace Sys2Proof.Machine

/-- LSTATE values (11 Table 11.10). -/
def LS.down : Nat := 0
def LS.training : Nat := 1
def LS.up : Nat := 2
def LS.retrain : Nat := 3
def LS.lost : Nat := 4
def LS.held : Nat := 5

def lstate (s : State) : Nat := fget s R.HST_STATE F.HST_STATE_LSTATE

def setLstate (v : Nat) (s : State) : State := fset R.HST_STATE F.HST_STATE_LSTATE v s

/-- Whether requests to host memory can be made, or queue behind a retrain: not behind one that began in HELD (11 R309 to R311; 12 R322). -/
def hostOpen (s : State) : Bool := lstate s == LS.up || (lstate s == LS.retrain && !s.hstHeld)

/-- Whether what is for the host leaves at once: it queues behind a retrain, and in the port's crossing while partition 0 is in reset (11 R309; 13 R347; 14 R375). -/
def hostFlows (s : State) : Bool := lstate s != LS.retrain && !partReset s hostPart

/-- Violation kinds of the host port (11 Table 11.7). -/
def VH.badTlp : Nat := 0x60
def VH.unsupported : Nat := 0x61
def VH.outOfSpace : Nat := 0x62
def VH.notRoot : Nat := 0x63
def VH.winDisabled : Nat := 0x64
def VH.winFault : Nat := 0x65
def VH.poisoned : Nat := 0x66
def VH.unexpectedCpl : Nat := 0x67
def VH.cplError : Nat := 0x68
def VH.creditOverrun : Nat := 0x69
def VH.flushUnset : Nat := 0x6A

/-- A log entry of the host port: SOURCE 1, the address and the first 8 bytes of the header (11 R313). -/
def hostVlog (kind addr : Nat) (hdr : Word) (s : State) : State := vlog kind 1 0 0 addr hdr.toNat s

/-- A log entry of a request whose header the command does not carry: the header is a free value (log 2). -/
def hostVlogOpen (kind addr : Nat) (s : State) : State :=
  let (v, s) := freeNat s
  hostVlog kind addr (word v) s

/-- Whether enabled path entry n covers a host address (11 R304). -/
def pathCovers (s : State) (addr n : Nat) : Bool :=
  let base := fget s (R.HST_PATHn_BASE n) F.HST_PATHn_BASE_BASE * 4096
  fbit s (R.HST_PATHn_BASE n) F.HST_PATHn_BASE_ENABLE && decide (base ≤ addr)
    && decide (addr < base + 4096 * (fget s (R.HST_PATHn_SIZE n) F.HST_PATHn_SIZE_PAGES_M1 + 1))

/-- The path of a host address: the lowest enabled entry that covers it, else TC0 (11 R304). -/
def hostPath (s : State) (addr : Nat) : Nat :=
  match firstBelow (pathCovers s addr) 8 with
  | some n => fget s (R.HST_PATHn_BASE n) F.HST_PATHn_BASE_TC
  | none => 0

/-! ### Writes -/

/-- A write that is discarded: counted, and its operation takes HOST_LOST, whichever write of it that is (11 R311). -/
def hostDiscard (q seq : Nat) (s : State) : State :=
  updOp q seq (fun o => { o with cond := maskSet o.cond SC.hostLost }) (bump1 R.CNT_HST_WR_DISCARD s)

/-- Count n bytes of data that leave, or come, by the host port (17 Table 17.4). -/
def hostTx (n : Nat) (s : State) : State := if n == 0 then s else pmc PMC.hstTx none none none (ceilDiv n 64) s
def hostRx (n : Nat) (s : State) : State := if n == 0 then s else pmc PMC.hstRx none none none (ceilDiv n 64) s

/-- Send a posted write: it stays in the retry buffer until acknowledged. -/
def hostSend (w : HWrite) (s : State) : State :=
  hostTx w.data.length (emit (.hostWrite w.path w.addr w.data) { s with hwrites := s.hwrites ++ [{ w with sent := true }] })

/-- One write of at most 512 bytes to host memory, translated under a selector (11 R303, R309, R311). -/
def hostWrite1 (q seq key va addr : Nat) (data : Bytes) (s : State) : State :=
  let s := bump1 R.CNT_HST_WR_ISSUE s
  let w : HWrite := { path := hostPath s addr, addr := addr, ctx := slotCtx s q, va := va, key := key, data := data, opq := q, opseq := seq, sent := false, seq := s.hostSeq }
  let s := { s with hostSeq := s.hostSeq + 1 }
  if hostOpen s then
    let s := updOp q seq (fun o => { o with paths := maskSet o.paths w.path }) s
    if hostFlows s then hostSend w s else { s with hwrites := s.hwrites ++ [w] }
  else hostDiscard q seq s

/-- Pieces of at most 512 bytes, with their addresses. -/
def hostPieces (addr : Nat) (data : Bytes) : List (Nat × Bytes) :=
  (chunks 512 data).zipIdx.map fun x => (addr + 512 * x.2, x.1)

/-- A write of an operation, from a device address translated under a selector, to host memory (11 R303). -/
def hostWrite (q seq key va addr : Nat) (data : Bytes) (s : State) : State :=
  each (hostPieces addr data) (fun p => hostWrite1 q seq key (va + (p.1 - addr)) p.1 p.2) s

/-- The adapter frees the writes it has sent: each is acknowledged (11 R314). Nothing is acknowledged while the module retrains (R309). -/
def hostAck (s : State) : State :=
  if lstate s != LS.up then s else
  let n := (s.hwrites.filter (·.sent)).length
  bump R.CNT_HST_WR_ACK n { s with hwrites := s.hwrites.filter (fun w => !w.sent) }

/-! ### Reads -/

/-- A read of host memory issued, or queued behind a retrain or a full tag space (11 R303, R309). -/
def hostReadIssue (r : HRead) (s : State) : State :=
  let busy := (s.hreads.filter (·.issued)).map (·.tag)
  let t := lowestFree busy
  if lstate s == LS.up && hostFlows s && decide (t < 4096) then
    let s := bump1 R.CNT_HST_RD_ISSUE s
    emit (.hostRead t r.path r.addr r.len) { s with hreads := s.hreads ++ [{ r with tag := t, issued := true }] }
  else { s with hreads := s.hreads ++ [{ r with tag := 2 ^ 14, issued := false }] }

/-- A new read takes its place in the order. -/
def hostReadNew (r : HRead) (s : State) : State := hostReadIssue { r with seq := s.hostSeq } { s with hostSeq := s.hostSeq + 1 }

/-- Requests of at most 512 bytes that cover a read: address and length. -/
def readPieces : Nat → Nat → Nat → List (Nat × Nat)
  | 0, _, _ => []
  | f + 1, a, n => if n == 0 then [] else (a, min 512 n) :: readPieces f (a + 512) (n - 512)

/-- A read of host memory for a user, from a device address of a context, translated under a selector; the caller has checked that the port is open. -/
def hostRead (q seq ctx key : Nat) (dest : Dest) (va addr len : Nat) (s : State) : State :=
  each (readPieces (len + 1) addr len) (fun p =>
    hostReadNew { tag := 0, path := hostPath s p.1, addr := p.1, len := p.2, dest := dest, opq := q, opseq := seq, flush := false, issued := false, got := none,
                  ctx := ctx, va := va + (p.1 - addr), key := key, seq := 0 }) s

/-- The zero-length read of a flush on path p (11 R307). -/
def hostFlush (q seq p : Nat) (s : State) : State :=
  hostReadNew { tag := 0, path := p, addr := fget s (R.HST_FLUSHp p) F.HST_FLUSHp_ADDR * 4, len := 0, dest := .nobody, opq := q, opseq := seq, flush := true, issued := false, got := none, seq := 0 }
    (bump1 R.CNT_HST_FLUSH s)

/-- Issue the reads that waited, in order. -/
def hostReadPump (s : State) : State :=
  let wait := s.hreads.filter fun r => !r.issued && r.got.isNone
  each wait hostReadIssue { s with hreads := s.hreads.filter fun r => r.issued || r.got.isSome }

/-- Give up the reads that satisfy p: what is outstanding has no user any more, and the rest goes. -/
def orphanReads (p : HRead → Bool) (s : State) : State :=
  { s with hreads := (s.hreads.filter fun r => !p r || (r.issued && r.got.isNone)).map fun r => if p r then { r with dest := .nobody, flush := false } else r }

def hostCplEmit (tc : Nat) (st : CplStatus) (data : Bytes) (s : State) : State := hostTx data.length (emit (.hostCpl tc st data) s)

/-- A completion leaves by the port, or waits behind its retrain or in its crossing (11 R309; 13 R347). -/
def hostCplSend (tc : Nat) (st : CplStatus) (data : Bytes) (s : State) : State :=
  if !hostFlows s then { s with hostCpls := s.hostCpls ++ [{ seq := s.hostSeq, tc := tc, status := st, data := data }], hostSeq := s.hostSeq + 1 }
  else hostCplEmit tc st data s

/-- What waited behind a retrain or in the crossing, in its order (11 Table 11.4, step 4; 13 R347). -/
def hostDrain (s : State) : State :=
  if !hostFlows s then s else
  let ws := (s.hwrites.filter fun w => !w.sent).map fun w => (w.seq, hostSend w)
  let rs := (s.hreads.filter fun r => !r.issued && r.got.isNone).map fun r => (r.seq, hostReadIssue r)
  let cs := s.hostCpls.map fun c => (c.seq, hostCplEmit c.tc c.status c.data)
  each (sortBy (fun (x : Nat × (State → State)) => x.1) (ws ++ rs ++ cs)) (fun x s => x.2 s)
    { s with hwrites := s.hwrites.filter (fun w => w.sent), hreads := s.hreads.filter (fun r => r.issued || r.got.isSome), hostCpls := [] }

/-- A failed read is counted, shown and logged (11 R303). -/
def hostReadFail (r : HRead) (s : State) : State :=
  setBit R.HST_STATUS 3 (hostVlogOpen VH.cplError r.addr (bump1 R.CNT_HST_RD_FAIL s))

end Sys2Proof.Machine
end

