-- ==== Sys2Proof/Machine/OpIO.lean ====
section
/-! DEFINITION. Tags of outstanding fetches, and the memory an operation reads and writes through the command unit (04 R92, R93; 09 R241, R264; 03 R66). -/

namespace Sys2Proof.Machine

/-! ### Tags (04 R92) -/

def ownTags : Nat := 229376
def serviceTags : Nat := 32768
def prefetchTags : Nat := 57344

def isService (p : Pool) : Bool := p == .service

def ownOut (s : State) : Nat := (s.fetches.filter fun f => !isService f.pool).length
def serveOut (s : State) : Nat := (s.fetches.filter fun f => isService f.pool).length
def pfOut (s : State) : Nat := (s.fetches.filter fun f => f.pool == .prefetch).length

/-- The prefetch holds all the tags it may (04 R92). -/
def prefetchFull (s : State) : Bool := decide (prefetchTags ≤ pfOut s)

/-- The tag a requester of a pool gets now: none where the pool is empty or another requester waits for it. One that waits for the limits of 08 R238 stands in nobody's way. -/
def freeTag (p : Pool) (s : State) : Option Nat :=
  if s.tagWait.any (fun x => isService x.1 == isService p && !s.spillWait.contains x.2) then none
  else if isService p then
    let t := lowestFree ((s.fetches.filter fun f => isService f.pool).map fun f => f.tag - ownTags)
    if t < serviceTags then some (ownTags + t) else none
  else
    let t := lowestFree ((s.fetches.filter fun f => !isService f.pool).map (·.tag))
    if decide (t < ownTags) && (p != .prefetch || decide (pfOut s < prefetchTags)) then some t else none

/-- A fetch outstanding under its tag. -/
def addFetch (f : Fetch) (s : State) : State := bump1 R.CNT_TAG_ISSUE { s with fetches := s.fetches ++ [f] }

def findFetch (s : State) (tag : Nat) : Option Fetch := s.fetches.find? (fun f => f.tag == tag)

def dropFetch (tag : Nat) (s : State) : State := { s with fetches := s.fetches.filter (fun f => f.tag != tag) }

/-- A tag retires when its response is used (04 R93). -/
def retireTag (tag : Nat) (s : State) : State := bump1 R.CNT_TAG_RETIRE (dropFetch tag s)

/-- A tag is absorbed when its response is sunk (04 R93). -/
def absorbTag (tag : Nat) (s : State) : State := bump1 R.CNT_TAG_ABSORB (dropFetch tag s)

/-- A request from a peer is held for a service tag: counted once, however many of its rows wait (04 R92). -/
def countServeHold (d : Dest) (s : State) : State := match d with
  | .serve id _ =>
    if s.serves.any fun v => v.id == id && v.held then s
    else bump1 R.CNT_LK_SERVE_HOLD { s with serves := updWhere (fun v => v.id == id) (fun v => { v with held := true }) s.serves }
  | _ => bump1 R.CNT_LK_SERVE_HOLD s

/-- A requester waits for a tag: counted, and shown for its job slot (04 R92). -/
def waitTag (p : Pool) (slot : Nat) (d : Dest) (s : State) : State :=
  let s := { s with tagWait := s.tagWait ++ [(p, d)] }
  if isService p then jobBit R.CMD_LK_STATUS 1 slot (countServeHold d s)
  else jobBit R.CMD_LK_STATUS 0 slot (bump1 R.CNT_TAG_WAIT s)

/-- A fetch of a spilled row waits for the limits of 08 R238: counted as a wait for a tag, and shown; where it serves a peer, its request is held too. -/
def waitSpill (p : Pool) (slot : Nat) (d : Dest) (s : State) : State :=
  let s := { s with spillWait := (s.spillWait.filter fun x => s.tagWait.any fun y => y.2 == x) ++ [d] }
  setBit R.HBM_STATUS 2 (waitTag p slot d (if isService p then bump1 R.CNT_TAG_WAIT s else s))

/-- Request epoch of this block (14 R371). -/
def placeEpoch (s : State) : Nat := fget s R.MG_EPOCH F.MG_EPOCH_PLACE

/-- A fetch that is not of a row. -/
def plainFetch (s : State) (tag : Nat) (src : Src) (dest : Dest) (slot : Nat) : Fetch :=
  { tag := tag, pool := .own, epoch := placeEpoch s, src := src, dest := dest, slot := slot, table := 0, version := 0, row := 0, step := 0,
    lines := [], stale := false, repeated := false }

/-! ### Window requests (10 Table 10.7) -/

/-- The first 16 bytes of WIN_READ and WIN_WRITE. -/
def winHead (off win : Nat) (nowait : Bool) (bytes tag : Nat) : Bytes :=
  leBytes 8 (fld 0 57 off + fld 57 4 win + fld 61 1 (natOfBool nowait)) ++ leBytes 8 (fld 0 14 bytes + fld 14 18 tag)

/-! ### Reads of an operation -/

def lineOf (va : Nat) : Nat := va / 64 * 64

/-- Lines that a span covers. -/
def spanLines (va n : Nat) : Nat := if n == 0 then 0 else (va + n - 1) / 64 + 1 - va / 64

def Op.line (o : Op) (va : Nat) : Option Bytes := mfind (lineOf va) o.lines

def Op.hasLine (o : Op) (va : Nat) : Bool := (o.line va).isSome || o.reads.contains (lineOf va)

/-- n contiguous bytes of an operation's input memory, where every line of them has arrived. -/
def Op.mem (o : Op) (va n : Nat) : Option Bytes :=
  if n == 0 then some [] else
  let k := (va + n - 1) / 64 + 1 - va / 64
  let ls := (List.range k).map fun i => o.line (lineOf va + 64 * i)
  if ls.all (·.isSome) then some (slice (ls.flatMap fun l => l.getD []) (va % 64) n) else none

def addLines (q seq va : Nat) (data : Bytes) (s : State) : State :=
  updOp q seq (fun o => { o with
    lines := ((chunks 64 data).zipIdx).foldl (fun m x => mput (va + 64 * x.2) x.1 m) o.lines
    reads := o.reads.filter fun l => !(decide (va ≤ l) && decide (l < va + data.length)) }) s

def markReads (q seq va n : Nat) (s : State) : State :=
  updOp q seq (fun o => { o with reads := o.reads ++ (List.range n).map (fun i => va + 64 * i) }) s

/-- A read of an input that fails ends the operation with FAULT_FATAL (04 R112, 08 R234); a MERIDIAN that stands aside carries it, and goes on without the table whose input failed (07 R189). -/
def opReadFail (q seq : Nat) (s : State) : State :=
  if (findOp s q seq).any fun o => o.place == .aside then opCond q seq SC.faultFatal s else opEnd q seq SC.faultFatal s

/-- Send the window read of one line, with its own tag (09 R264). -/
def opWinRead (q seq va tag : Nat) (e : TEnt) (s : State) : State :=
  let (b, w, off) := e.remote va
  if !reachable s b then opViolation q seq VK.noRoute (escSource s b) b 0 s
  else
    sendPacket b CL.req K.winRead (slotJobId s q) (winHead off w false 64 tag) (addFetch (plainFetch s tag (.window b) (.opLine q seq va) q) s)

def opReq (s : State) (q va : Nat) (write : Bool) (who : Waiter) : TReq :=
  { client := CLI.command, ctx := slotCtx s q, va := va, write := write, source := 0, who := who }

/-- Start the read of a line and, in host memory, of the lines that follow it under the same entry, up to 512 bytes (11 R303): how many lines that covers. -/
def opReadLine (q seq left va : Nat) (s : State) : Nat × State :=
  match translate false (opReq s q va false (.opRead q seq va)) s with
  | (.fatal, s) => (1, opReadFail q seq s)
  | (.wait, s) => (1, markReads q seq va 1 s)
  | (.ok e, s) =>
    if e.typ == 1 then
      let pa := e.at va
      let s := pmc PMC.farRead none (some (stackOf pa)) none 1 s
      if farUE s pa 64 then (1, opReadFail q seq (hbmUE pa s)) else (1, addLines q seq va (farRead s (keyOf s e.key) pa 64) s)
    else if e.typ == 2 then
      let k := max 1 (min (min left ((e.hi - va) / 64)) 8)
      if hostOpen s then (k, hostRead q seq (slotCtx s q) e.key (.opLine q seq va) va (e.at va) (64 * k) (markReads q seq va k s))
      else (1, opCond q seq SC.hostLost (opReadFail q seq s))
    else
      let s := markReads q seq va 1 s
      match freeTag .own s with
      | none => (1, waitTag .own q (.opLine q seq va) s)
      | some t => (1, opWinRead q seq va t e s)

/-- Start the reads of n lines from va that have neither arrived nor been started. -/
def opReadLines (q seq : Nat) : Nat → Nat → State → State
  | 0, _, s => s
  | f + 1, va, s =>
    match findOp s q seq with
    | none => s
    | some o =>
      if o.endNow then s
      else if o.hasLine va then opReadLines q seq f (va + 64) s
      else opReadLines q seq f (va + 64) (opReadLine q seq (f + 1) va s).2

/-- Start the reads of the lines that hold n bytes from va. -/
def opWant (q seq va n : Nat) (s : State) : State :=
  if n == 0 then s else opReadLines q seq ((va + n - 1) / 64 + 1 - va / 64) (lineOf va) s

/-! ### Writes of an operation -/

/-- What a write of an operation is for: results, the issue record, line 0 of a result buffer, its publication, the completion record. -/
def WK.data : Nat := 0
def WK.issue : Nat := 1
def WK.line0 : Nat := 2
def WK.publish : Nat := 3
def WK.record : Nat := 4

/-- Queue a write of an operation. -/
def opWrite (q seq va : Nat) (data : Bytes) (what : Nat) (s : State) : State :=
  updOp q seq (fun o => { o with writes := o.writes ++ [{ wid := o.nextWid, va := va, data := data, out := false, what := what, remote := none }], nextWid := o.nextWid + 1 }) s

def setWrite (q seq wid : Nat) (f : WLine → WLine) (s : State) : State :=
  updOp q seq (fun o => { o with writes := updWhere (fun w => w.wid == wid) f o.writes }) s

def dropWrite (q seq wid : Nat) (s : State) : State :=
  updOp q seq (fun o => { o with writes := o.writes.filter (fun w => w.wid != wid) }) s

/-- A write that meets a fatal fault: a ring record is lost, an issue record that is lost ends the operation before it starts, any other ends it with FAULT_FATAL (03 R71, 04 R112). The last write of line 0 was to fix the status, and does not where it fails. -/
def opWriteFail (q seq : Nat) (w : WLine) (s : State) : State :=
  let s := dropWrite q seq w.wid s
  if w.what == WK.record then s
  else if w.what == WK.publish then updOp q seq (fun o => { o with cond := maskSet o.cond SC.faultFatal, endNow := true }) s
  else opEnd q seq SC.faultFatal s

/-- Translate the lines of a write in order: each with its entry, or the first result that is none (09 R241). -/
def writeEnts (r : TReq) : Nat → Nat → List TEnt → State → (TRes × List TEnt) × State
  | 0, _, acc, s => ((.wait, acc.reverse), s)
  | f + 1, va, acc, s =>
    match translate false { r with va := va } s with
    | (.ok e, s) => if f == 0 then ((.ok e, (e :: acc).reverse), s) else writeEnts r f (va + 64) (e :: acc) s
    | (x, s) => ((x, []), s)

/-- Join the host lines of a write that follow one another under one selector: selector, device address, host address and bytes of each run. -/
def joinHost : List (Nat × Nat × Nat × Bytes) → List (Nat × Nat × Nat × Bytes)
  | [] => []
  | x :: r => match joinHost r with
    | y :: t =>
      let n := x.2.2.2.length
      if x.1 == y.1 && x.2.1 + n == y.2.1 && x.2.2.1 + n == y.2.2.1 then (x.1, x.2.1, x.2.2.1, x.2.2.2 ++ y.2.2.2) :: t else x :: y :: t
    | [] => [x]

/-- Make a write whose lines have all translated: its lines of far memory and of host memory now; each line of a remote window becomes a write of its own. -/
def writeAll (q seq : Nat) (w : WLine) (es : List TEnt) (s : State) : State :=
  let ls := (lineCut (w.data.length + 1) w.va w.data).zip es
  let s := dropWrite q seq w.wid s
  let s := each (ls.filter fun x => x.2.typ == 1) (fun x s => farWrite (keyOf s x.2.key) (x.2.at x.1.1) x.1.2 s) s
  let s := each (joinHost ((ls.filter fun x => x.2.typ == 2).map fun x => (x.2.key, x.1.1, x.2.at x.1.1, x.1.2))) (fun x s => hostWrite q seq x.1 x.2.1 x.2.2.1 x.2.2.2 s) s
  each (ls.filter fun x => x.2.typ == 3) (fun x s => updOp q seq (fun o => { o with
    writes := o.writes ++ [{ wid := o.nextWid, va := x.1.1, data := x.1.2, out := false, what := w.what, remote := some (x.2.remote x.1.1) }], nextWid := o.nextWid + 1 }) s) s

/-- Send the write of a line of a remote window, with its own tag (09 R264). -/
def sendWrite (q seq : Nat) (w : WLine) (b win off : Nat) (s : State) : State :=
  if !reachable s b then opViolation q seq VK.noRoute (escSource s b) b 0 (dropWrite q seq w.wid s)
  else
    let s := setWrite q seq w.wid (fun x => { x with out := true }) s
    match freeTag .own s with
    | none => waitTag .own q (.opWrite q seq w.wid) s
    | some t =>
      sendPacket b CL.req K.winWrite (slotJobId s q) (winHead off win false w.data.length t ++ w.data)
        (addFetch (plainFetch s t (.window b) (.opWrite q seq w.wid) q) s)

/-- Take a queued write as far as it goes: it is made once every line of it has translated (09 R241). -/
def opWriteStep (q seq : Nat) (w : WLine) (s : State) : State :=
  if w.data.isEmpty then dropWrite q seq w.wid s else
  match w.remote with
  | some (b, win, off) => sendWrite q seq w b win off s
  | none =>
    match writeEnts (opReq s q w.va true (.opWrite q seq w.wid)) (spanLines w.va w.data.length) (lineOf w.va) [] s with
    | ((.fatal, _), s) => opWriteFail q seq w s
    | ((.wait, _), s) => setWrite q seq w.wid (fun x => { x with out := true }) s
    | ((.ok _, es), s) => writeAll q seq w es s

/-- Make every queued write of an operation that can be made now. -/
def pumpWritesAux (q seq : Nat) : Nat → State → State
  | 0, s => s
  | f + 1, s =>
    match findOp s q seq with
    | none => s
    | some o =>
      match o.writes.find? (fun w => !w.out) with
      | none => s
      | some w => pumpWritesAux q seq f (opWriteStep q seq w s)

def pumpWrites (q seq : Nat) (s : State) : State :=
  match findOp s q seq with
  | none => s
  | some o => pumpWritesAux q seq (sumNat (o.writes.map fun w => 2 + w.data.length / 64)) s

end Sys2Proof.Machine
end

