-- ==== Sys2Proof/Machine/Cpt.lean ====
section
/-! DEFINITION. Messages the block sends on the compute port: credits, results, notices, cartouches (03 R57 to R59, R70, R77; 12 R321). -/

namespace Sys2Proof.Machine

/-- PSTATE of the compute port: 0 DOWN, 1 UP, 2 LOST (12 Table 12.13). -/
def pstate (s : State) : Nat := fget s R.CMD_CPT_LINK F.CMD_CPT_LINK_PSTATE

def MT.cmd : Nat := 0x1
def MT.data : Nat := 0x2
def MT.ctrl : Nat := 0x3
def MT.credit : Nat := 0x4
def MT.result : Nat := 0x8
def MT.cart : Nat := 0x9
def MT.notice : Nat := 0xA

/-- Header word 0 of a message (03 Table 3.2). -/
def msgW0 (typ q len : Nat) (last : Bool) (seq : Nat) : Word :=
  word (fld 0 4 typ + fld 4 4 q + fld 8 7 len + fld 15 1 (natOfBool last) + fld 16 48 seq)

def padWords (n : Nat) (ws : List Word) : List Word := ws ++ List.replicate (n - ws.length) 0

/-- The module that carries what the block sends: any that is UP, the lowest one (03 R58), whose crossing does not hold it (13 R347; 14 R375). -/
def txModule (s : State) : Option Nat := s.cptMods.zipIdx.findSome? fun x => if x.1 == 2 && !partReset s (modPart x.2) then some x.2 else none

/-- Body units of a message. -/
def outUnits (o : Out) : Nat := match o with
  | .cpt _ _ body => body.length / 8
  | _ => 0

/-- A message leaves by a module, which counts its units and may have to send it again (12 R320; 17 Table 17.4); with no module to carry it, it waits for one. -/
def cptOut (o : Out) (s : State) : State :=
  match txModule s with
  | some m => pmc PMC.cptTx none (some m) none (outUnits o) (emit o { s with cptSent := s.cptSent ++ [(m, o)] })
  | none => { s with cptHeld := s.cptHeld ++ [o] }

/-- Send what has waited for a module. -/
def cptFlush (s : State) : State := if (txModule s).isNone then s else each s.cptHeld cptOut { s with cptHeld := [] }

/-- Send a numbered message, or discard and count it while PSTATE is LOST (03 R58, 12 R321). -/
def cptSend (typ q : Nat) (last : Bool) (seq off : Nat) (body : List Word) (s : State) : State :=
  if pstate s == 2 then bump1 R.CNT_CPT_MSG_DISCARD s else
  let len := ceilDiv body.length 8
  let n := (queue s q).txNext
  cptOut (.cpt (msgW0 typ q len last seq) (word (fld 0 32 off + fld 32 32 n)) (padWords (8 * len) body)) (updQueue q (fun x => { x with txNext := n + 1 }) s)

/-- A CREDIT message with the cumulative command words and data units granted (03 Table 3.3). -/
def sendCredit (q : Nat) (s : State) : State :=
  let x := queue s q
  if pstate s == 2 then s else
  cptOut (.cpt (msgW0 MT.credit q 1 false 0) 0 (padWords 8 [word (fld 0 32 x.cmdGrant), word (fld 0 32 x.dataGrant)])) s

/-- Return command words as a command leaves staging (03 R59). -/
def returnCmd (q n : Nat) (s : State) : State := sendCredit q (updQueue q (fun x => { x with cmdGrant := x.cmdGrant + n }) s)

/-- Return data units as an operation consumes them, or as a message is discarded (03 R59). -/
def returnData (q n : Nat) (s : State) : State :=
  if n == 0 then s else sendCredit q (updQueue q (fun x => { x with dataGrant := x.dataGrant + n }) s)

/-- A NOTICE: violation kind, new state and NEXT_SEQ (03 Table 3.3). -/
def sendNotice (q kind : Nat) (s : State) : State :=
  let x := queue s q
  cptSend MT.notice q false 0 0 [word (fld 0 8 kind + fld 8 4 x.state + fld 16 48 x.nextSeq)] s

/-- A queue enters STOPPED: messages that wait for their STREAM_NO are dropped (03 R78). -/
def stopQueue (q : Nat) (s : State) : State := updQueue q (fun x => { x with state := 2, early := [] }) s

/-- A breach that stops a queue: QUEUE_STOPPED, the interrupt and a NOTICE (03 R77). -/
def stopBreach (q kind : Nat) (s : State) : State :=
  sendNotice q kind (setBitFor R.CMD_CPT_STATUS 2 4 q (stopQueue q s))

/-! ### Results in messages (03 R59, R67; 04 R109) -/

/-- Send one piece of an image as messages of at most 64 units, each within result credit; what has no credit waits. -/
def pumpResultsAux (q seq : Nat) : Nat → State → State
  | 0, s => s
  | f + 1, s =>
    match findOp s q seq with
    | none => s
    | some o =>
      match o.results with
      | [] => s
      | (off, b, last) :: rest =>
        let units := ceilDiv b.length 64
        let x := queue s q
        let room := x.resGrant - x.resUsed
        let n := min (min units 64) room
        if n == 0 then updOp q seq (fun o => { o with stalled := true }) s
        else
          let now := b.take (64 * n)
          let more := b.drop (64 * n)
          let isLast := last && more.isEmpty
          let s := updQueue q (fun x => { x with resUsed := x.resUsed + n }) s
          let s := cptSend MT.result q isLast seq off (bytesWords (padTo (64 * n) now)) s
          pumpResultsAux q seq f (updOp q seq (fun o => { o with results := if more.isEmpty then rest else (off + n, more, last) :: rest }) s)

def pumpResults (q seq : Nat) (s : State) : State :=
  match findOp s q seq with
  | none => s
  | some o => pumpResultsAux q seq (sumNat (o.results.map fun r => 2 + r.2.1.length / 64)) s

/-! ### Cartouches (03 R70) -/

/-- The eight words of a cartouche. COND_MASK of a completion record holds the codes that applied: OK, bit 0, where no other did (R13; DEDUCED, log 69). -/
def cartouche (s : State) (o : Op) (ready : Bool) : List Word :=
  let st := if ready then statusOf o.cond else 0
  let mask := if ready && o.cond == 0 then maskSet 0 SC.ok else o.cond
  let w := [
    word (fld 0 48 o.seq + fld 48 4 st + fld 52 1 (natOfBool ready) + fld 60 4 o.queue),
    word (fld 0 16 mask + fld 16 8 o.opcode + fld 24 8 (slotJobId s o.queue) + fld 32 16 o.vlogs),
    word (fld 0 48 o.step), o.qw 1, word (fld 0 32 (sat 32 o.bags) + fld 32 32 (sat 32 o.flagged)),
    word (fld 0 32 (sat 32 o.stale) + fld 32 32 (if o.vlogs == 0 then 0xFFFFFFFF else o.firstVlog)), word s.aon]
  w ++ [word (crc32 (wordsBytes w))]

/-- Address of an operation's slot in the cartouche ring (03 R71). -/
def cartAddr (s : State) (o : Op) : Nat :=
  fget s (R.CMD_Qj_CBASE o.queue) F.CMD_Qj_CBASE_CART_BASE * 64 + 64 * (o.seq % 2 ^ fget s (R.CMD_Qj_CFG o.queue) F.CMD_Qj_CFG_CART_LOG2)

end Sys2Proof.Machine
end

