-- ==== Sys2Proof/Machine/Operands.lean ====
section
/-! DEFINITION. The operands of every Ahnop command and their checks (chapter 16). -/

namespace Sys2Proof.Machine

/-- Opcodes (16 Table 16.1). -/
def OP.nop : Nat := 0x00
def OP.lkPool : Nat := 0x10
def OP.gsScatter : Nat := 0x20
def OP.meridian : Nat := 0x2F
def OP.gzDefine : Nat := 0x30
def OP.gzSwitch : Nat := 0x31
def OP.gzDrop : Nat := 0x32
def OP.gzRowmode : Nat := 0x33
def OP.gzRowput : Nat := 0x34
def OP.memCopy : Nat := 0x40
def OP.rowExport : Nat := 0x41
def OP.rowImport : Nat := 0x42

def opcodes : List Nat := [0x00, 0x10, 0x20, 0x2F, 0x30, 0x31, 0x32, 0x33, 0x34, 0x40, 0x41, 0x42]

/-- A staged command as it issues. -/
def newOp (q : Nat) (c : Staged) : Op :=
  { queue := q, seq := c.seq, words := c.words, place := .issued, phase := .fresh, cond := 0, vlogs := c.vlogs, firstVlog := c.firstVlog, bound := [], descs := [],
    effectDue := true, endNow := false, lines := [], reads := [], writes := [], nextWid := 0, units := [], lastUnit := none, cut := 0, nTiles := 0,
    queueTiles := [], tiles := [], status := [], rowAt := 0, results := [], resultsDone := false, bank := 0, waitRb := false, bags := 0, flagged := 0,
    stale := 0, counted := 0, settled := 0, lastIn := 0, stalled := false, paths := 0, flushes := 0, sums := [], wgrad := [], pgrad := [], pos := 0,
    pubMem := false, abortNoted := false, cart := [] }

/-- A field of QWORD i of a command. -/
def Op.f (o : Op) (i lo n : Nat) : Nat := wbits (o.qw i) lo n

/-! ### LK_POOL and GS_SCATTER (16 Tables 16.3 and 16.5) -/

def Op.tblFirst (o : Op) : Nat := o.f 2 0 12
def Op.tblCount (o : Op) : Nat := o.f 2 12 13
def Op.verNamed (o : Op) : Nat := o.f 2 25 16
def Op.bagSrc (o : Op) : Bool := o.f 2 41 1 == 1
def Op.idFmt (o : Op) : Nat := o.f 2 42 1
def Op.wgtFmt (o : Op) : Nat := o.f 2 43 2
def Op.outDst (o : Op) : Bool := o.f 2 45 1 == 1
def Op.pfWindow (o : Op) : Nat := o.f 2 46 16
def Op.dySrc (o : Op) : Bool := o.f 2 45 1 == 1
def Op.dyFmt (o : Op) : Nat := o.f 2 46 1
def Op.wgradOn (o : Op) : Bool := o.f 2 47 1 == 1
def Op.specBase (o : Op) : Nat := o.f 3 0 57
def Op.bagBase (o : Op) : Nat := o.f 4 0 57
def Op.bagBytes (o : Op) : Nat := o.f 5 0 40
def Op.bagCount (o : Op) : Nat := o.f 5 40 24
def Op.rbBase (o : Op) : Nat := o.f 6 0 57
def Op.dyBase (o : Op) : Nat := o.f 6 0 57
def Op.rbBank (o : Op) : Nat := o.f 7 0 40
def Op.wgBase (o : Op) : Nat := o.f 8 0 57
def Op.pgBase (o : Op) : Nat := o.f 9 0 57

/-! ### Gazetteer, copy, export and import -/

def Op.tableId (o : Op) : Nat := o.f 2 0 12
def Op.version (o : Op) : Nat := o.f 2 12 16
/-- SET of GZ_ROWMODE, SRC of GZ_ROWPUT, WITH_STATE of ROW_EXPORT and ROW_IMPORT. -/
def Op.flag28 (o : Op) : Bool := o.f 2 28 1 == 1
def Op.effStep (o : Op) : Nat := o.f 3 0 48
def Op.zeroState (o : Op) : Bool := o.f 2 29 1 == 1
def Op.putCount (o : Op) : Nat := o.f 2 30 24
def Op.rowBase (o : Op) : Nat := o.f 3 0 57
def Op.copyBytes (o : Op) : Nat := o.f 2 0 40
def Op.srcAddr (o : Op) : Nat := o.f 3 0 57
def Op.dstAddr (o : Op) : Nat := o.f 4 0 57
def Op.expFirst (o : Op) : Nat := o.f 3 0 40
def Op.expCount (o : Op) : Nat := o.f 4 0 40
def Op.expDst (o : Op) : Nat := o.f 5 0 57
def Op.impCount (o : Op) : Nat := o.f 3 0 40
def Op.impSrc (o : Op) : Nat := o.f 4 0 57

/-- The inline payload as bytes (16 R415). -/
def Op.payload (o : Op) : Bytes := wordsBytes ((o.words.drop 8).take (8 * o.npay))

/-- Whether NPAY is legal, with the conditions that tie it to another field (16 R413, item 1). -/
def Op.npayOk (o : Op) : Bool :=
  let c := o.opcode
  if c == OP.nop then true
  else if c == OP.gsScatter then o.npay == 1 || (o.npay == 0 && !o.wgradOn)
  else if c == OP.gzDefine then o.npay == 4
  else if c == OP.gzRowput then (if o.flag28 then o.npay == 0 else decide (1 ≤ o.npay))
  else o.npay == 0

def mult (a n : Nat) : Bool := a % n == 0

/-- Checks LK_POOL and GS_SCATTER share: QWORD, bit, legality. -/
def Op.bagChecks (o : Op) : List (Nat × Nat × Bool) :=
  [(2, 12, decide (1 ≤ o.tblCount) && decide (o.tblFirst + o.tblCount ≤ 4096)), (2, 25, o.verNamed == 0 || o.tblCount == 1), (2, 43, decide (o.wgtFmt ≤ 2))]

/-- The operand checks of each command in ascending QWORD and bit (16 R413). -/
def Op.checks (o : Op) : List (Nat × Nat × Bool) :=
  let c := o.opcode
  if c == OP.lkPool then
    o.bagChecks ++ [(3, 0, mult o.specBase 64), (4, 0, !o.bagSrc || mult o.bagBase 8), (5, 0, !o.bagSrc || mult o.bagBytes 8),
      (6, 0, !o.outDst || mult o.rbBase 64), (7, 0, !o.outDst || (mult o.rbBank 64 && decide (64 ≤ o.rbBank)))]
  else if c == OP.gsScatter then
    o.bagChecks ++ [(2, 47, !o.wgradOn || o.wgtFmt != 0), (3, 0, mult o.specBase 64), (4, 0, !o.bagSrc || mult o.bagBase 8),
      (5, 0, !(o.bagSrc || !o.dySrc) || mult o.bagBytes 8), (6, 0, !o.dySrc || mult o.dyBase 64),
      (8, 0, o.npay != 1 || !o.wgradOn || mult o.wgBase 64), (9, 0, o.npay != 1 || mult o.pgBase 64)]
  else if c == OP.gzSwitch || c == OP.gzDrop || c == OP.gzRowmode then [(2, 12, o.version != 0)]
  else if c == OP.gzRowput then [(2, 12, o.version != 0), (2, 30, decide (1 ≤ o.putCount)), (3, 0, !o.flag28 || mult o.rowBase 8)]
  else if c == OP.memCopy then
    let n := o.copyBytes
    [(2, 0, mult n 64 && decide (64 ≤ n)), (3, 0, mult o.srcAddr 64 && decide (o.srcAddr + n ≤ vaEnd)),
     (4, 0, mult o.dstAddr 64 && decide (o.dstAddr + n ≤ vaEnd) && (decide (o.srcAddr + n ≤ o.dstAddr) || decide (o.dstAddr + n ≤ o.srcAddr)))]
  else if c == OP.rowExport then [(4, 0, decide (1 ≤ o.expCount) && decide (o.expFirst + o.expCount ≤ 2 ^ 40)), (5, 0, mult o.expDst 64)]
  else if c == OP.rowImport then [(2, 12, o.version != 0), (3, 0, decide (1 ≤ o.impCount)), (4, 0, mult o.impSrc 64)]
  else []

/-- The first operand that is not legal: QWORD and lowest bit (16 R413); stepOk is the check of 06 R149, made on the head word. -/
def Op.badOperand (o : Op) (stepOk : Bool) : Option (Nat × Nat) :=
  (([(0, 8, o.npayOk), (0, 11, decide (o.order ≤ 2)), (0, 16, stepOk)] ++ o.checks).find? (fun (x : Nat × Nat × Bool) => !x.2.2)).map fun (x : Nat × Nat × Bool) => (x.1, x.2.1)

/-- Word 1 of a BAD_OPERAND entry of WHERE 0 (16 Table 16.2). -/
def badOperandWord (qword bit : Nat) : Nat := fld 0 6 qword + fld 6 6 bit

/-- Word 1 of an entry of WHERE w with detail d. -/
def whereWord (w d : Nat) : Nat := d + fld 62 2 w

/-- End an operation with VIOLATION and a BAD_OPERAND entry. -/
def badOperand (q seq w1 w2 : Nat) (s : State) : State := opViolation q seq VK.badOperand 0 w1 w2 s

/-- A TABLE_STATE entry (03 Table 3.13): the table and version in word 1 (DESIGN CHOICE: no layout is given, log 6). -/
def tableState (q seq table version : Nat) (s : State) : State := opViolation q seq VK.tableState 3 (fld 0 12 table + fld 12 16 version) 0 s

/-- A ROW_NOT_OWNED entry: record index and row (16 R414). -/
def rowNotOwned (q seq rec row : Nat) (s : State) : State := opViolation q seq VK.rowNotOwned 3 (fld 0 40 rec) (fld 0 40 row) s

end Sys2Proof.Machine
end

