-- ==== Sys2Proof/Machine/Pool.lean ====
section
/-! DEFINITION. Exact pooling: specification records, terms, accumulators, overflow, partial pools and results (04 R84, R95 to R107; 05 R125 to R144). -/

namespace Sys2Proof.Machine

/-! ### Specification records (04 Table 4.3) -/

structure Spec where
  mode : Nat
  proj : Bool
  outFmt : Nat
  satInf : Bool
  grid : Int
  skip : Bool
  comp : Nat
  compB : Nat
  partialMin : Nat
  matQ : Nat
  projBase : Nat
  projD : Nat
  projFmt : Nat
  projGrid : Int
deriving DecidableEq, Repr

def readSpec (b : Bytes) : Spec :=
  let w0 := leAt b 0 8
  let w1 := leAt b 8 8
  let w2 := leAt b 16 8
  { mode := bits w0 0 3, proj := bits w0 3 1 == 1, outFmt := bits w0 4 3, satInf := bits w0 7 1 == 1, grid := signed 8 (bits w0 8 8),
    skip := bits w0 16 1 == 1, comp := bits w0 17 3, compB := bits w0 20 12, partialMin := bits w0 32 4, matQ := bits w0 36 7,
    projBase := bits w1 0 57, projD := bits w2 0 11, projFmt := bits w2 11 1, projGrid := signed 8 (bits w2 12 8) }

/-- Pooled width before projection: W, or the composed width (04 R106). -/
def poolWidth (sp : Spec) (wa wb : Nat) : Nat := if sp.comp == 3 then (wa / sp.matQ) * (wb / sp.matQ) else wa

/-- Width of the output row. -/
def outWidth (sp : Spec) (wa wb : Nat) : Nat := if sp.proj then sp.projD else poolWidth sp wa wb

/-- Terms one entry contributes to a column (04 R113). -/
def termsPer (sp : Spec) : Nat := if sp.comp == 1 then 2 else if sp.comp == 3 then sp.matQ else 1

/-- Conditions of R107 on a composition, and of R105 on the matrix size. db is none where COMP_B has no version bound. -/
def specComp (sp : Spec) (da : Desc) (db : Option Desc) : Bool :=
  match db with
  | none => false
  | some db =>
    !da.admits && !db.admits && da.nWide == 0 && db.nWide == 0
    && (if sp.comp == 3 then
          decide (1 ≤ sp.matQ) && mult da.width sp.matQ && mult db.width sp.matQ
          && mult (poolWidth sp da.width db.width) 4 && decide (4 ≤ poolWidth sp da.width db.width) && decide (poolWidth sp da.width db.width ≤ 1024)
        else da.width == db.width)
    && (sp.comp == 1 || (da.wfmt != 5 && db.wfmt != 5))
    && !(sp.comp == 1 && (sp.mode == 2 || sp.mode == 3))

/-- The checks of a record in use (04 R84): QWORD, bit, legality: its fields in ascending order, then the conditions of a composition, named at COMP, and of a projection, named at PROJ_D (DEDUCED, log 28). named says whether COMP_B lies in the named range, noProj that PROJ is not to be set: a scatter without PG_BASE (16 R418). -/
def specChecks (sp : Spec) (named noProj : Bool) (da : Desc) (db : Option Desc) : List (Nat × Nat × Bool) :=
  let wb := (db.map Desc.width).getD 0
  [(0, 0, decide (sp.mode ≤ 4)), (0, 3, !(noProj && sp.proj)), (0, 4, decide (sp.outFmt ≤ 6)), (0, 17, decide (sp.comp ≤ 3)), (0, 20, sp.comp == 0 || named),
   (0, 32, sp.partialMin != 1), (0, 36, sp.comp != 3 || decide (1 ≤ sp.matQ ∧ sp.matQ ≤ 64)),
   (1, 0, !sp.proj || mult sp.projBase 64), (2, 0, !sp.proj || (decide (4 ≤ sp.projD ∧ sp.projD ≤ 1024) && mult sp.projD 4)),
   (0, 17, sp.comp == 0 || db.isNone || specComp sp da db),
   (2, 0, !sp.proj || decide (poolWidth sp da.width wb * sp.projD ≤ 262144))]

/-! ### Terms -/

/-- Value of an entry weight (04 R97): format 1 BF16, 2 FP32; without weights 1. -/
def weightVal (fmt c : Nat) : Val := if fmt == 1 then bf16.dec c else if fmt == 2 then fp32.dec c else .num 1 0

/-- The values of a row, one per column. -/
def rowVals (d : Desc) (legend copy : Bytes) : List Val := (List.range d.width).map (copyVal d legend copy)

/-- The terms of each column that an entry of rows a and b contributes (04 R106). -/
def composeTerms (sp : Spec) (a b : List Val) : List (List Val) :=
  if sp.comp == 1 then (a.zip b).map fun x => [x.1, x.2]
  else if sp.comp == 2 then (a.zip b).map fun x => [x.1.mul x.2]
  else if sp.comp == 3 then
    let q := sp.matQ
    let p := a.length / q
    let t := b.length / q
    (List.range p).flatMap fun i => (List.range t).map fun k =>
      (List.range q).map fun j => (a.getD (i * q + j) .zero).mul (b.getD (j * t + k) .zero)
  else a.map fun x => [x]

/-- Terms with the entry's weight applied in WSUM (04 R97). -/
def weighTerms (sp : Spec) (w : Val) (ts : List (List Val)) : List (List Val) :=
  if sp.mode == 4 then ts.map fun c => c.map fun t => w.mul t else ts

/-! ### Accumulation (05 R126 to R134) -/

def termLimit : Int := 2 ^ 79

/-- S, the integer of the grid accumulator and its carry count together (05 R130). -/
def ColAcc.grid (a : ColAcc) : BitVec 128 := a.carry ++ a.acc

/-- The sum of every term added: S with what staging still holds (05 R130). -/
def ColAcc.sum (a : ColAcc) : Int := (a.grid + a.stage.signExtend 128).toInt

/-- Add into the grid accumulator, with its wraps recorded in the carry count (05 R130). -/
def ColAcc.addGrid (x : BitVec 128) (a : ColAcc) : ColAcc :=
  { a with acc := (a.grid + x).extractLsb' 0 96, carry := (a.grid + x).extractLsb' 96 32 }

/-- promote() of R129; finish() is the same. -/
def ColAcc.promote (a : ColAcc) : ColAcc := { a.addGrid (a.stage.signExtend 128) with stage := 0, steps := 0 }

/-- Whether a term goes through staging (05 R129). -/
def stages (t : Int) : Bool := decide (-(2 ^ 15) ≤ t) && decide (t ≤ 2 ^ 15 - 1)

/-- A term into staging, with a promotion at the sixteenth step (05 R129). -/
def ColAcc.stageTerm (t : Int) (a : ColAcc) : ColAcc :=
  let a := { a with stage := a.stage + BitVec.ofInt 20 t, steps := a.steps + 1 }
  if a.steps == 16 then a.promote else a

/-- accept(t) of R129, k times: staging one by one, bypass in one sum. -/
def ColAcc.accept (t : Int) (k : Nat) (a : ColAcc) : ColAcc :=
  if stages t then Nat.repeat (ColAcc.stageTerm t) k a else a.addGrid (BitVec.ofInt 128 ((k : Int) * t))

/-- The larger or smaller of two terms (05 R143). -/
def pickTerm (isMax : Bool) (a b : Val) : Val :=
  if a.isNaN || b.isNaN then .nan
  else if isMax then (if a.lt b then b else if a.isZero && b.isZero && a == .negZero then b else a)
  else (if b.lt a then b else if a.isZero && b.isZero && b == .negZero then b else a)

/-- Add one term, k times, on the grid G (05 R126, R127, R131, R134). -/
def ColAcc.add (mode : Nat) (G : Int) (a : ColAcc) (v : Val) (k : Nat) : ColAcc × Flags :=
  if k == 0 then (a, {}) else
  let a := { a with n := a.n + k }
  if mode == 2 || mode == 3 then
    let b := match a.best with
      | some x => pickTerm (mode == 2) x v
      | none => v
    ({ a with best := some b, zinf := a.zinf || v == .zeroInf, nan := a.nan || v == .nan }, {})
  else
    match v with
    | .nan => ({ a with nan := true }, {})
    | .zeroInf => ({ a with zinf := true }, {})
    | .inf neg => (if neg then { a with ninf := true } else { a with pinf := true }, {})
    | v =>
      let (t, f) := toGrid v G
      if termLimit ≤ (t.natAbs : Int) then
        ({ a with termOvf := true, clamp := a.clamp + (k : Int) * (if t < 0 then -(termLimit - 1) else termLimit - 1) }, f)
      else ({ a.accept t k with clamp := a.clamp + (k : Int) * t }, f)

/-- Combine two accumulations of one column, each finished, as 128-bit values (05 R129, R130). -/
def ColAcc.merge (mode : Nat) (a b : ColAcc) : ColAcc :=
  { a.promote.addGrid b.promote.grid with
    clamp := a.clamp + b.clamp, n := a.n + b.n, termOvf := a.termOvf || b.termOvf, nan := a.nan || b.nan,
    pinf := a.pinf || b.pinf, ninf := a.ninf || b.ninf, zinf := a.zinf || b.zinf, zfold := a.zfold || b.zfold, remote := a.remote || b.remote,
    best := match a.best, b.best with
      | none, y => y
      | x, none => x
      | some x, some y => some (pickTerm (mode == 2) x y) }

/-- Add the terms of one entry, k times, into the columns. -/
def addEntry (mode : Nat) (G : Int) (accs : List ColAcc) (ts : List (List Val)) (k : Nat) : List ColAcc × Flags :=
  let r := (accs.zip ts).map fun x =>
    x.2.foldl (fun (y : ColAcc × Flags) t => let (a, f) := y.1.add mode G t k; (a, y.2.or f)) (x.1, ({} : Flags))
  (r.map (·.1), (r.map (·.2)).foldl Flags.or {})

/-- The columns after an entry of MAT whose 0 × ∞ products the fold array formed: ts its products, ws the terms the weights made of them (05 R145; 17 R443). -/
def foldZeros (old new : List ColAcc) (ts ws : List (List Val)) : List ColAcc :=
  ((old.zip new).zip (ts.zip ws)).map fun x =>
    { x.1.2 with
      zinf := x.1.1.zinf || (x.2.1.zip x.2.2).any fun y => y.1 != .zeroInf && y.2 == .zeroInf
      zfold := x.1.1.zfold || x.2.1.contains .zeroInf }

/-- Add the terms ws that an entry's weight makes of its terms ts; those of MAT are products of the fold array (05 R126, R145; 17 R443). -/
def addTerms (sp : Spec) (G : Int) (accs : List ColAcc) (ts ws : List (List Val)) : List ColAcc × Flags :=
  let (a, f) := addEntry sp.mode G accs ws 1
  (if sp.comp == 3 then foldZeros accs a ts ws else a, f)

/-- Invalid operations of the fold array among a bag's terms (17 Table 17.5). -/
def foldInv (accs : List ColAcc) : Flags := { inv := accs.any fun a => a.zfold && !a.nan }

/-- The special result of a column (05 R126), and whether it is an invalid operation of the pool engine. -/
def ColAcc.special (a : ColAcc) : Option (Val × Bool) :=
  if a.nan then some (.nan, false)
  else if a.zinf || a.zfold then some (.nan, a.zinf)
  else if a.pinf && a.ninf then some (.nan, true)
  else if a.pinf then some (.inf false, false)
  else if a.ninf then some (.inf true, false)
  else none

/-- Whether a column without a special result overflows (05 R131). -/
def ColAcc.tooBig (a : ColAcc) : Bool :=
  a.special.isNone && (a.termOvf || a.remote || decide (a.sum < -(2 ^ 95)) || decide (2 ^ 95 - 1 < a.sum))

/-- What a column delivers: its element, and whether it saturated after its last pass. -/
structure ColOut where
  conv : Conv
  satur : Bool
deriving DecidableEq, Repr

/-- Deliver a column (05 R134, R140 to R143): o the format, G the grid of the pass, g the base grid, n the entries of the bag. -/
def ColAcc.deliver (mode o : Nat) (satInf : Bool) (G g : Int) (n : Nat) (a : ColAcc) : ColOut :=
  if n == 0 then { conv := convertQ o satInf g 0 1 0, satur := false }
  else if mode == 2 || mode == 3 then
    let c := convertTerm o satInf g (a.best.getD .zero)
    { conv := { c with flags := c.flags.or { inv := a.zinf && !a.nan } }, satur := false }
  else
    match a.special with
    | some (v, inv) => let c := convertSpecial o v; { conv := { c with flags := c.flags.or { inv := inv } }, satur := false }
    | none =>
      if a.tooBig then { conv := convertSaturated o a.clamp, satur := true }
      else { conv := convertQ o satInf g a.sum (if mode == 1 then n else 1) G, satur := false }

/-! ### The second stage of a projection (04 R104, R105) -/

/-- Element (i, j) of the matrix: BF16, or an INT8 code with the exponent of its column. -/
def projElem (sp : Spec) (mat : Bytes) (v i j : Nat) : Val :=
  if sp.projFmt == 0 then bf16.dec (leAt mat (2 * (i * sp.projD + j)) 2)
  else
    let leg := signed 8 (leAt mat (roundUp (v * sp.projD) 64 + j) 1)
    (Val.num (signed 8 (leAt mat (i * sp.projD + j) 1)) 0).scale leg

/-- Bytes of the matrix and its legend. -/
def projBytes (sp : Spec) (v : Nat) : Nat := if sp.projFmt == 0 then 2 * v * sp.projD else roundUp (v * sp.projD) 64 + sp.projD

/-- One pass over the second stage on the grid G. -/
def projPass (sp : Spec) (mat : Bytes) (p : List Val) (G : Int) : List ColAcc × Flags :=
  let r := (List.range sp.projD).map fun j =>
    p.zipIdx.foldl (fun (y : ColAcc × Flags) x => let (a, f) := y.1.add 0 G (x.1.mul (projElem sp mat p.length x.2 j)) 1; (a, y.2.or f)) (({} : ColAcc), ({} : Flags))
  (r.map (·.1), (r.map (·.2)).foldl Flags.or {})

/-- Passes of the second stage until none overflows or the last is done (05 R135): the columns, the grid, and the flags kept. -/
def projRun (sp : Spec) (mat : Bytes) (p : List Val) (last : Nat) : Nat → Flags → List ColAcc × Int × Flags
  | 0, f => let G := sp.projGrid + 8 * (last : Int); let (a, f') := projPass sp mat p G; (a, G, f.or f')
  | k + 1, f =>
    let G := sp.projGrid + 8 * ((last - (k + 1) : Nat) : Int)
    let (a, f') := projPass sp mat p G
    if a.any ColAcc.tooBig then projRun sp mat p last k (f.or { ovf := true }) else (a, G, f.or f')

/-! ### A bag -/

/-- Passes after which a bag is not replayed (05 R132). -/
def lastPass (sp : Spec) : Nat := if sp.outFmt == 5 || sp.outFmt == 6 then 0 else 3

/-- The second stage of a bag of n entries whose columns were added on the grid G (04 R104). -/
def secondStage (sp : Spec) (mat : Bytes) (G : Int) (n : Nat) (accs : List ColAcc) : List ColAcc × Int × Flags :=
  projRun sp mat (accs.map fun a => bf16.dec (a.deliver sp.mode 1 sp.satInf G sp.grid n).conv.code) (lastPass sp) (lastPass sp) {}

/-- The result of a bag: the padded row, its status bits other than MISSING and DEFAULT, whether a column saturated after its last pass, and the flags of the pool engine and of the fold array. -/
structure BagOut where
  row : Bytes
  status : Nat
  satur : Bool
  pool : Flags
  fold : Flags
deriving DecidableEq, Repr

/-- Whether a bag must be replayed on the next pass. -/
def mustReplay (sp : Spec) (r : Nat) (accs : List ColAcc) : Bool :=
  sp.mode != 2 && sp.mode != 3 && decide (r < lastPass sp) && accs.any ColAcc.tooBig

/-- Finish a bag that is not replayed (04 R95, R104, R108 to R110, R113; 05 R134, R140). n is COUNT. -/
def finishBag (sp : Spec) (mat : Bytes) (r n : Nat) (accs : List ColAcc) (termFlags : Flags) : BagOut :=
  let G := sp.grid + 8 * (r : Int)
  let ovf := accs.any ColAcc.tooBig
  let pad := fun (b : Bytes) => padTo (roundUp b.length 64) b
  let stat := fun (cols : List ColOut) (long : Bool) (sat : Bool) =>
    (if sat || cols.any (fun c => c.satur || c.conv.satur) then 2 else 0) + (if n == 0 then 4 else 0)
      + (if long then 16 else 0) + (if cols.any (fun c => c.conv.isNaN) then 32 else 0)
  let long1 := decide (65536 < n * termsPer sp)
  let mat0 := foldInv accs
  if sp.proj then
    let first := accs.map fun a => a.deliver sp.mode 1 sp.satInf G sp.grid n
    let f1 := (first.map (·.conv.flags)).foldl Flags.or (termFlags.or { ovf := ovf })
    let sat1 := first.any fun c => c.satur || c.conv.satur
    let (acc2, G2, f2) := secondStage sp mat G n accs
    let cols := acc2.map fun a => a.deliver 0 sp.outFmt sp.satInf G2 sp.projGrid 1
    let cols := if n == 0 then acc2.map (fun a => a.deliver 0 sp.outFmt sp.satInf G2 sp.projGrid 0) else cols
    { row := pad (cols.flatMap fun c => c.conv.bytes sp.outFmt), status := stat cols (long1 || decide (65536 < accs.length)) sat1,
      satur := first.any (·.satur) || cols.any (·.satur), pool := f1,
      fold := (cols.map (·.conv.flags)).foldl Flags.or (mat0.or (f2.or { ovf := acc2.any ColAcc.tooBig })) }
  else
    let cols := accs.map fun a => a.deliver sp.mode sp.outFmt sp.satInf G sp.grid n
    { row := pad (cols.flatMap fun c => c.conv.bytes sp.outFmt), status := stat cols long1 false,
      satur := cols.any (·.satur), pool := (cols.map (·.conv.flags)).foldl Flags.or (termFlags.or { ovf := ovf }), fold := mat0 }

/-! ### Partial pools (04 R101, 05 R133) -/

/-- The integer a partial pool sends for a column: its sum, or a mark (05 Table 5.4). -/
def ColAcc.partialInt (a : ColAcc) : Int :=
  match a.special with
  | some (.inf false, _) => -(2 ^ 95) + 2
  | some (.inf true, _) => -(2 ^ 95) + 3
  | some _ => -(2 ^ 95) + 1
  | none => if a.termOvf then -(2 ^ 95) else a.sum

def fitsBits (n : Nat) (v : Int) : Bool := decide (-(2 ^ (n - 1) : Nat) ≤ v) && decide (v < ((2 ^ (n - 1) : Nat) : Int))

/-- A term in term form (04 Table 4.9). -/
def termForm (v : Val) : Nat :=
  match v with
  | .num m e => if m == 0 then 0 else pattern 48 m + (pattern 14 e) <<< 48
  | .negZero => 2 ^ 63
  | .inf neg => pattern 48 (if neg then -1 else 1) + 0x1FFF <<< 48
  | _ => 2 ^ 62

def termUnform (w : Nat) : Val :=
  if bits w 62 1 == 1 then .nan
  else
    let m := signed 48 (bits w 0 48)
    if bits w 48 14 == 0x1FFF then .inf (decide (m < 0))
    else if m == 0 then (if bits w 63 1 == 1 then .negZero else .zero)
    else .num m (signed 14 (bits w 48 14))

/-- FORM and values of a partial response. -/
def partialBody (mode : Nat) (accs : List ColAcc) : Nat × Bytes :=
  if mode == 2 || mode == 3 then (3, accs.flatMap fun a => leBytes 8 (termForm (a.best.getD .zero)))
  else
    let vs := accs.map (·.partialInt)
    let form := if vs.all (fitsBits 16) then 0 else if vs.all (fitsBits 32) then 1 else 2
    let n := if form == 0 then 2 else if form == 1 then 4 else 12
    (form, vs.flatMap fun v => leBytes n (pattern (8 * n) v))

/-- The columns a partial response stands for (05 R133). -/
def partialCols (form w : Nat) (b : Bytes) : List ColAcc :=
  (List.range w).map fun c =>
    if form == 3 then (let v := termUnform (leAt b (8 * c) 8); { best := some v, nan := v == .nan })
    else
      let n := if form == 0 then 2 else if form == 1 then 4 else 12
      let v := signed (8 * n) (leAt b (n * c) n)
      if form == 2 && v == -(2 ^ 95) then { remote := true }
      else if form == 2 && v == -(2 ^ 95) + 1 then { nan := true }
      else if form == 2 && v == -(2 ^ 95) + 2 then { pinf := true }
      else if form == 2 && v == -(2 ^ 95) + 3 then { ninf := true }
      else { ({} : ColAcc).addGrid (BitVec.ofInt 128 v) with clamp := v }

end Sys2Proof.Machine
end

