-- ==== Sys2Proof/Machine/Near.lean ====
section
/-! DEFINITION. Near memory: cache band, contours, pinned regions, victim and prefetch buffers, insets (08 R208 to R227). -/

namespace Sys2Proof.Machine

/-- Kinds of an entry (08 Table 8.1). -/
def NK.copy : Nat := 1
def NK.inset : Nat := 2
def NK.weight : Nat := 3
def NK.state : Nat := 4

def NEntry.is (e : NEntry) (slot table version row kind : Nat) : Bool :=
  e.slot == slot && e.table == table && e.version == version && e.row == row && e.kind == kind

def findNear (s : State) (slot table version row kind : Nat) : Option NEntry := s.near.find? (fun e => e.is slot table version row kind)

/-- Logical number of a row's home vault (08 R211). -/
def homeLogical (s : State) (slot table row : Nat) : Nat := if coreCount s == 0 then 0 else Config.homeHash slot table row % coreCount s

/-- Physical position of a row's home vault while it is in service. -/
def homeInService (s : State) (slot table row : Nat) : Option Nat := physOf s (homeLogical s slot table row)

/-- The core that works for a row at its owner: that of its home vault, or the lowest one in service (14 R374, R375). -/
def homeVault (s : State) (slot table row : Nat) : Nat := (homeInService s slot table row).getD (((enabledCores s).head?.map (·.1)).getD 0)

/-- Whether a trip is in force (08 R237). -/
def tripped (s : State) : Bool := fbit s R.NM_TEMP F.NM_TEMP_TRIP

/-- The tweak of a near-memory line (09 R250). -/
def nearTweak (core set line : Nat) : Nat := 2 ^ 63 + core * 2 ^ 40 + set * 64 + line

/-- Bytes stored under one selector from the given lines of a vault on, as they read under another: every line decrypts under the key and its own tweak (09 R250). -/
def nearRead (s : State) (stored key vault : Nat) (lines : List Nat) (data : Bytes) : Bytes :=
  if keyOf s stored == keyOf s key then data
  else (lines.zipIdx.flatMap fun x => xtsOther (keyOf s stored) (keyOf s key) (nearTweak vault 0 x.1) (padTo 64 (slice data (64 * x.2) 64))).take data.length

/-! ### Contours (08 R212) -/

def regionOf (s : State) (row : Nat) : Nat := row / 2 ^ fget s R.NM_CFG F.NM_CFG_CONTOUR_LOG2

/-- Contours of a vault's contour band (08 R209). -/
def contourBand : Nat := 2 ^ 21

/-- Where a region's contour is stored: by hash, in the band of a vault in service chosen by hash; regions may share it (08 R212, item 3). -/
def contourKey (s : State) (slot table row : Nat) : Option Nat :=
  let h := Config.contourHash slot table (regionOf s row)
  (if coreCount s == 0 then none else physOf s (h / contourBand % coreCount s)).map fun v => v * contourBand + h % contourBand

def contour (s : State) (slot table row : Nat) : Nat := match contourKey s slot table row with
  | some k => mgetD k 0 s.contours
  | none => 0

/-- Raise a region's contour by one access. -/
def touchContour (slot table row : Nat) (s : State) : State := match contourKey s slot table row with
  | some k => { s with contours := mput k (min 65535 (mgetD k 0 s.contours + 1)) s.contours }
  | none => s

/-! ### Pinned regions (08 R221, R222) -/

/-- STATE_k of NM_PIN_STATE: 0 OFF, 1 LOADING, 2 ACTIVE, 3 RELEASED. -/
def pinState (s : State) (k : Nat) : Nat := wbits (rget s R.NM_PIN_STATE) (2 * k) 2

def setPinState (k v : Nat) (s : State) : State := rset R.NM_PIN_STATE (wset (rget s R.NM_PIN_STATE) (2 * k) 2 v) s

def pinA (s : State) (k : Nat) (f : Fld) : Nat := fget s (R.NM_PINk_A k) f

def pinFirst (s : State) (k : Nat) : Nat := fget s (R.NM_PINk_B k) F.NM_PINk_B_FIRST

/-- Region and entry number of a row of this block's sheet that a pinned region in force covers. -/
def pinOf (s : State) (slot : Nat) (d : Desc) (row : Nat) : Option (Nat × Nat) :=
  if d.owner row != self s then none else
  let i := d.localIndex row
  (firstBelow (fun k =>
    (pinState s k == 1 || pinState s k == 2) && pinA s k F.NM_PINk_A_SLOT == slot && pinA s k F.NM_PINk_A_TABLE_ID == d.tableId
      && pinA s k F.NM_PINk_A_VERSION == d.version && decide (pinFirst s k ≤ i) && decide (i < pinFirst s k + pinA s k F.NM_PINk_A_COUNT)) 16).map
    fun k => (k, i - pinFirst s k)

def pinKey (k i : Nat) : Nat := k * 2 ^ 32 + i

def pinOn (t : State) (k : Nat) : Bool := pinA t k F.NM_PINk_A_ENABLE == 1

/-- The version a pinned region names. -/
def pinDesc (t : State) (k : Nat) : Option Desc := findDesc t (pinA t k F.NM_PINk_A_SLOT) (pinA t k F.NM_PINk_A_TABLE_ID) (pinA t k F.NM_PINk_A_VERSION)

/-- Lines of a slot of a region; those of its last place where its version is gone. -/
def pinSlotLines (t : State) (k : Nat) : Nat :=
  match pinDesc t k with
  | some d => ceilDiv (d.copyLen + 8) 64
  | none => ((t.pinPlan.find? fun x => x.1 == k).map (·.2.2)).getD 0

/-- Lines of a region in each vault (08 R221, item 3). -/
def pinLines (t : State) (k : Nat) : Nat := ceilDiv (pinA t k F.NM_PINk_A_COUNT) (max 1 (coreCount t)) * pinSlotLines t k

/-- The place of every enabled region (08 R222). -/
def planPins (s : State) : List (Nat × Nat × Nat) :=
  ((List.range 16).filter (pinOn s)).map fun k => (k, sumNat (((List.range k).filter (pinOn s)).map (pinLines s)), pinSlotLines s k)

/-- The lines of the pin band out of service, rising: those retired, and every line of a DEAD set, whichever band they stood in then (08 R210, R230). -/
def retiredPins (s : State) : List Nat :=
  let n := fget s R.NM_PIN_SETS F.NM_PIN_SETS_PIN_SETS
  (s.vsets.filter fun x => decide (2048 ≤ x.1 % 131072) && decide (x.1 % 131072 < 2048 + n)).flatMap fun x =>
    (if x.2.dead then List.range 64 else maskList 64 x.2.retired).map fun l => x.1 / 131072 * 2 ^ 23 + (x.1 % 131072 - 2048) * 64 + l

/-- The line of a vault, counted from its first set, that stands at a line offset of the pin band: the lines the check excluded are passed over (DESIGN CHOICE, log 76). -/
def pinLine (s : State) (vault off : Nat) : Nat :=
  2048 * 64 + (s.pinSkip.filter fun l => l / 2 ^ 23 == vault).foldl (fun o l => if l % 2 ^ 23 ≤ o then o + 1 else o) off

/-- The vault and the lines of a slot, where its vault is in service (08 R222). -/
def pinAt (s : State) (k i : Nat) : Option (Nat × List Nat) :=
  let n := max 1 (coreCount s)
  (physOf s (i % n)).bind fun v => (s.pinPlan.find? fun x => x.1 == k).map fun x =>
    (v, (List.range x.2.2).map fun j => pinLine s v (x.2.1 + i / n * x.2.2 + j))

/-- The bytes of a slot: its header, VALID in bit 0 and the region in bits 7:4, and the copy (08 R222). -/
def pinBytes (k : Nat) (p : PinSlot) : Bytes := leBytes 8 (fld 0 1 (natOfBool p.valid) + fld 4 4 k) ++ p.data

/-- A pinned slot read under a selector: its vault and its copy, where its header reads VALID. -/
def pinRead (s : State) (k i row key : Nat) : Option (Nat × Bytes) :=
  match pinAt s k i, mfind (pinKey k i) s.pins with
  | some (v, ls), some p =>
    let b := nearRead s p.key key v ls (pinBytes k p)
    if p.row == row && maskBit (leAt b 0 1) 0 then some (v, b.drop 8) else none
  | _, _ => none

/-- Fill a pinned slot, unless its vault is out of service; the region is ACTIVE when every slot is valid (08 R222). -/
def pinFill (k i row key : Nat) (copy : Bytes) (s : State) : State :=
  match pinAt s k i with
  | none => s
  | some (v, ls) =>
  let s := pmc PMC.nmWrite (some (partitionOf v)) none none ls.length s
  let s := { s with pins := mput (pinKey k i) { valid := true, row := row, key := key, data := copy } s.pins }
  let have_ := (s.pins.filter fun x => x.1 / 2 ^ 32 == k && x.2.valid).length
  if pinState s k == 1 && have_ == pinA s k F.NM_PINk_A_COUNT then setPinState k 2 s else s

/-- Drop a pinned slot's copy: its region loads again. -/
def pinDrop (k i : Nat) (s : State) : State :=
  match mfind (pinKey k i) s.pins with
  | some p => if p.valid then (if pinState s k == 2 then setPinState k 1 else id) { s with pins := mdel (pinKey k i) s.pins } else s
  | none => s

/-- Every enabled region takes its place and loads again from nothing (08 R222, items 1 and 6). -/
def pinReload (s : State) : State :=
  each (List.range 16) (fun k s => setPinState k (if pinOn s k then 1 else 0) s) { s with pins := [], pinPlan := planPins s, pinSkip := retiredPins s }

/-! ### Cache sets (08 R210, R215) -/

def nearLines (n : Nat) : Nat := ceilDiv n 64

/-- Cache sets of a vault begin after the three other bands (08 R209). -/
def firstCacheSet (s : State) : Nat := 2048 + fget s R.NM_PIN_SETS F.NM_PIN_SETS_PIN_SETS

/-- Set of piece p of an entry. -/
def setOf (s : State) (slot table version row kind p : Nat) : Nat :=
  let b := firstCacheSet s
  b + Config.setHash slot table version row (kind * 16 + p) % (131072 - b)

def vset (s : State) (vault set : Nat) : VSet := mgetD (vault * 131072 + set) {} s.vsets

def hasPiece (e : NEntry) (vault set : Nat) : Bool := e.pieces.any fun p => p.vault == vault && p.set == set

/-- Whether a cache set is out of service: DEAD, or with a line retired, while it stood in the pin band, that is now a tag line (08 R210, R230; DESIGN CHOICE, log 76). -/
def VSet.out (v : VSet) : Bool := v.dead || v.retired % 16 != 0

/-- Pieces in a set. -/
def piecesIn (s : State) (vault set : Nat) : List Piece := s.near.flatMap fun e => e.pieces.filter fun p => p.vault == vault && p.set == set

/-- The entry and the piece of a cache set that hold a data line. -/
def lineHolder (s : State) (core set l : Nat) : Option (NEntry × Nat × Nat) :=
  s.near.findSome? fun e => (e.pieces.zipIdx.find? fun x =>
    x.1.vault == core && x.1.set == set && decide (x.1.first ≤ l) && decide (l < x.1.first + x.1.lines)).map fun x => (e, x.2, l - x.1.first)

/-- Lowest run of n free, unretired lines in a set with a free tag slot. -/
def freeRun (s : State) (vault set n : Nat) (own : List Piece) : Option Nat :=
  let v := vset s vault set
  let ps := piecesIn s vault set ++ own.filter fun p => p.vault == vault && p.set == set
  if v.out || decide (20 ≤ ps.length) then none
  else firstBelow (fun f => decide (f + n ≤ 60) && (List.range n).all fun i =>
    !maskBit v.retired (4 + f + i) && !ps.any fun p => decide (p.first ≤ f + i) && decide (f + i < p.first + p.lines)) 60

/-- An evicted working copy or inset of one piece enters the victim buffer; the oldest entries of its set leave (08 R216). -/
def toVictim (e : NEntry) (s : State) : State :=
  if !fbit s R.NM_CFG F.NM_CFG_VB_EN || decide (2 < e.kind) || e.pieces.length != 1 then s
  else
    let set := Config.victimHash e.slot e.table e.row % 16384
    let rec keep : Nat → List (Nat × NEntry) → List (Nat × NEntry)
      | _, [] => []
      | room, x :: r =>
        if x.1 == set then
          let n := nearLines x.2.data.length
          if n ≤ room then x :: keep (room - n) r else r.filter fun y => y.1 != set
        else x :: keep room r
    -- newest first
    { s with victim := keep 16 ((set, { e with pieces := [], lock := false }) :: s.victim) }

/-- Evict an entry with all its pieces (08 R215). -/
def evict (e : NEntry) (s : State) : State :=
  bump1 R.CNT_NM_EVICT (toVictim e { s with near := s.near.filter fun x => !x.is e.slot e.table e.version e.row e.kind })

/-- Place one piece, evicting at random until it fits or nothing can leave. -/
def placePiece (e : NEntry) (vault set n : Nat) (own : List Piece) : Nat → State → Option Piece × State
  | 0, s => (none, s)
  | f + 1, s =>
    if (vset s vault set).out then (none, s) else
    match freeRun s vault set n own with
    | some l => (some { vault := vault, set := set, first := l, lines := n }, s)
    | none =>
      match s.near.filter (fun x => hasPiece x vault set && !x.lock && !x.is e.slot e.table e.version e.row e.kind) with
      | [] => (none, s)
      | c :: cs =>
        let (v, s) := freeNat s
        placePiece e vault set n own f (evict (((c :: cs)[v % (c :: cs).length]?).getD c) s)

/-- Place the pieces of an entry from piece p on. -/
def placeAll (e : NEntry) (vault : Nat) : Nat → Nat → List Piece → State → Option (List Piece) × State
  | 0, _, own, s => (some own, s)
  | left + 1, p, own, s =>
    let total := nearLines e.data.length
    let n := min 16 (total - 16 * p)
    match placePiece e vault (setOf s e.slot e.table e.version e.row e.kind p) n own 64 s with
    | (none, s) => (none, s)
    | (some x, s) => placeAll e vault left (p + 1) (own ++ [x]) s

/-- Install an entry in the cache band of the row's home vault, replacing the one it has (08 R213 to R215). Nothing is installed while that vault is out of service (14 R375); a fill begun before a trip is installed in it (08 R237). -/
def install (e : NEntry) (s : State) : State :=
  match homeInService s e.slot e.table e.row with
  | none => s
  | some vault =>
  let s := { s with near := s.near.filter fun x => !x.is e.slot e.table e.version e.row e.kind }
  match placeAll e vault (ceilDiv (nearLines e.data.length) 16) 0 [] s with
  | (none, s) => bump1 R.CNT_NM_BYPASS s
  | (some ps, s) =>
    pmc PMC.nmWrite (some (partitionOf vault)) none none (nearLines e.data.length)
      (bump1 R.CNT_NM_FILL { s with near := s.near ++ [{ e with pieces := ps }] })

def mkEntry (slot : Nat) (d : Desc) (row kind key : Nat) (data : Bytes) : NEntry :=
  { slot := slot, table := d.tableId, version := d.version, row := row, kind := kind, lock := false, key := key, data := data, content := 0, expiry := 0, pieces := [] }

/-- Whether a version may be cached: it is live and this block has not released it (08 R220). -/
def cacheable (s : State) (slot table version : Nat) : Bool :=
  match findDesc s slot table version with
  | some d => !d.released
  | none => false

/-- A working-copy fill (08 R213, item 1; R214): into the pinned slot, into the cache band where the contour reaches PROMOTE, or nowhere. -/
def fillCopy (slot : Nat) (d : Desc) (row key : Nat) (copy : Bytes) (stale : Bool) (s : State) : State :=
  if stale then bump1 R.CNT_NM_BYPASS s
  else if !cacheable s slot d.tableId d.version then s
  else match pinOf s slot d row with
    | some (k, i) => pinFill k i row key copy s
    | none => if fget s R.NM_CFG F.NM_CFG_PROMOTE ≤ contour s slot d.tableId row then install (mkEntry slot d row NK.copy key copy) s else s

/-! ### Reading copies -/

/-- The lines of an entry of the cache band, counted from the first set of its vault; data line l of a set is its line 4 + l (08 R210). -/
def NEntry.lines (e : NEntry) : List Nat := e.pieces.flatMap fun p => (List.range p.lines).map fun i => p.set * 64 + 4 + p.first + i

def NEntry.vault (e : NEntry) : Nat := (e.pieces.head?.map (·.vault)).getD 0

/-- The bytes of an entry of the cache band as they read under a selector (09 R250). -/
def NEntry.read (e : NEntry) (key : Nat) (s : State) : Bytes := nearRead s e.key key e.vault e.lines e.data

/-- A working copy on this block: that of its pinned slot, where a region covers the row; else that of the cache band or the victim buffer, whose entry moves back (08 R213, R216, R222). It reads under the key of this use, whichever it was stored under (09 R250); the victim buffer is SRAM, which nothing encrypts. -/
def readCopy (slot : Nat) (d : Desc) (row key : Nat) (s : State) : Option Bytes × State :=
  let hit := fun (vault : Nat) (b : Bytes) (s : State) => (some b, pmc PMC.nmRead (some (partitionOf vault)) none none (nearLines b.length) (bump1 R.CNT_NM_HIT s))
  match pinOf s slot d row with
  | some (k, i) => (match pinRead s k i row key with
    | some (v, b) => hit v b s
    | none => (none, s))
  | none =>
    match findNear s slot d.tableId d.version row NK.copy with
    | some e => hit e.vault (e.read key s) s
    | none =>
      match s.victim.find? (fun x => x.2.is slot d.tableId d.version row NK.copy) with
      | some (_, e) =>
        let s := { s with victim := s.victim.filter fun x => !x.2.is slot d.tableId d.version row NK.copy }
        hit (homeVault s slot d.tableId row) e.data (install { e with key := key } (bump1 R.CNT_VB_HIT s))
      | none => (none, s)

/-! ### Invalidation (02 R50, 07 R198, 08 R220) -/

/-- Mark outstanding fills of a row of a version stale (08 R214). -/
def staleFills (slot table version row : Nat) (s : State) : State :=
  { s with fetches := updWhere (fun f => f.slot == slot && f.table == table && f.version == version && f.row == row && f.src != .window 0) (fun f => { f with stale := true }) s.fetches }

/-- Make prefetch entries of a row unusable (08 R217). -/
def stalePrefetch (slot table row : Nat) (s : State) : State :=
  { s with prefetched := updWhere (fun p => p.slot == slot && p.table == table && p.row == row) (fun p => { p with usable := false }) s.prefetched }

/-- Invalidate every copy of a row of a version on this block (02 R50, step 2). -/
def invalidateRow (slot : Nat) (d : Desc) (row : Nat) (s : State) : State :=
  let mine := fun (e : NEntry) => e.slot == slot && e.table == d.tableId && e.version == d.version && e.row == row && e.kind != NK.inset
  let s := { s with near := s.near.filter (fun e => !mine e), victim := s.victim.filter fun x => !mine x.2 }
  let s := stalePrefetch slot d.tableId row (staleFills slot d.tableId d.version row s)
  match pinOf s slot d row with
  | some (k, i) => pinDrop k i s
  | none => s

/-- Lines written to a vault (17 Table 17.4). -/
def nmWrote (vault n : Nat) (s : State) : State := pmc PMC.nmWrite (some (partitionOf vault)) none none n s

/-- The updater's new working copy replaces a cached or pinned one, under the selector of its use; victim and prefetch entries go (07 R198). -/
def replaceCopy (slot : Nat) (d : Desc) (row key : Nat) (copy : Bytes) (s : State) : State :=
  let isCopy := fun (e : NEntry) => e.is slot d.tableId d.version row NK.copy
  let s := each (s.near.filter isCopy) (fun e s => nmWrote e.vault (nearLines copy.length) s) s
  let s := { s with near := updWhere isCopy (fun e => { e with key := key, data := copy }) s.near, victim := s.victim.filter fun x => !isCopy x.2 }
  let s := stalePrefetch slot d.tableId row (staleFills slot d.tableId d.version row s)
  match pinOf s slot d row with
  | some (k, i) =>
    (match mfind (pinKey k i) s.pins with
     | some p => if p.valid then (match pinAt s k i with
         | some (v, ls) => nmWrote v ls.length
         | none => id) { s with pins := mput (pinKey k i) { p with key := key, data := copy } s.pins } else s
     | none => s)
  | none => s

/-- Purge a version from near memory and from the inset directory (08 R220). -/
def purgeVersion (slot table version : Nat) (s : State) : State :=
  let mine := fun (e : NEntry) => e.slot == slot && e.table == table && e.version == version
  let s := { s with
    near := s.near.filter (fun e => !mine e)
    victim := s.victim.filter fun x => !mine x.2
    prefetched := updWhere (fun p => p.slot == slot && p.table == table && p.version == version) (fun p => { p with usable := false }) s.prefetched
    fetches := updWhere (fun f => f.slot == slot && f.table == table && f.version == version) (fun f => { f with stale := true }) s.fetches
    idir := s.idir.filter fun e => !(e.slot == slot && e.table == table && e.version == version) }
  each (List.range 16) (fun k s =>
    if pinState s k != 0 && pinA s k F.NM_PINk_A_SLOT == slot && pinA s k F.NM_PINk_A_TABLE_ID == table && pinA s k F.NM_PINk_A_VERSION == version
    then setPinState k 3 { s with pins := s.pins.filter fun x => x.1 / 2 ^ 32 != k } else s) s

/-! ### Insets (08 R223 to R227) -/

def markerOf (s : State) (o : Nat) : Nat := mgetD o 0 s.markerM

/-- Closed-through step of this block's own meridian for a job slot (06 Table 6.9). -/
def closedStep (s : State) (slot : Nat) : Nat := fget s (R.CMD_GS_Jj_STEP slot) F.CMD_GS_Jj_STEP_CLOSED

/-- MSTATE of a job slot. -/
def mstate (s : State) (slot : Nat) : Nat := fget s (R.CMD_GS_Jj_STEP slot) F.CMD_GS_Jj_STEP_MSTATE

/-- Whether this block's own meridian of step st has begun: it is in progress, or complete (07 R200, 08 R218). -/
def merBegun (s : State) (slot st : Nat) : Bool :=
  ((job s slot).closedAny && decide (st ≤ closedStep s slot))
  || (match (job s slot).mer with
      | some m => decide (3 ≤ m.phase) && decide (st ≤ m.step)
      | none => false)

/-- Whether this block's meridian of step st - 1 has completed (04 R90): CLOSED is the last step completed, 0 before the first. -/
def prevDone (s : State) (slot st : Nat) : Bool := decide (st ≤ closedStep s slot + 1)

/-- Whether an inset's copy, or its owner's markers, are recent enough for a lookup of step st (07 R200, item 4). -/
def insetFresh (s : State) (d : Desc) (st : Nat) (e : NEntry) : Bool := decide (st ≤ max e.content (markerOf s (d.owner e.row)) + 1)

/-- Whether a lookup of step st may use an inset (08 R225, item 3). -/
def insetUsable (s : State) (slot : Nat) (d : Desc) (st : Nat) (e : NEntry) : Bool := decide (st ≤ e.expiry) && !merBegun s slot st && insetFresh s d st e

/-- A usable inset of a row in the cache band. -/
def usableInset (s : State) (slot : Nat) (d : Desc) (row st : Nat) : Option NEntry :=
  (findNear s slot d.tableId d.version row NK.inset).filter (insetUsable s slot d st)

def dropInset (slot : Nat) (d : Desc) (row : Nat) (s : State) : State :=
  let p := fun (e : NEntry) => e.is slot d.tableId d.version row NK.inset
  { s with near := s.near.filter (fun e => !p e), victim := s.victim.filter fun x => !p x.2 }

/-- The inset of a row this block holds, brought back from the victim buffer where it is there (08 R216). -/
def heldInset (slot : Nat) (d : Desc) (row : Nat) (s : State) : Option NEntry × State :=
  match findNear s slot d.tableId d.version row NK.inset with
  | some e => (some e, s)
  | none =>
    match s.victim.find? (fun x => x.2.is slot d.tableId d.version row NK.inset) with
    | some (_, e) => (some e, install e (bump1 R.CNT_VB_HIT (dropInset slot d row s)))
    | none => (none, s)

/-- The copy inside an inset's lines. -/
def insetCopy (e : NEntry) : Bytes := e.data.drop 16

def insetData (content expiry : Nat) (copy : Bytes) : Bytes := leBytes 8 (fld 0 48 content) ++ leBytes 8 (fld 0 48 expiry) ++ copy

/-- Install a granted inset where it is not older than the owner's markers (08 R225, item 1). -/
def installInset (slot : Nat) (d : Desc) (row m expiry : Nat) (copy : Bytes) (s : State) : State :=
  if decide (markerOf s (d.owner row) ≤ m) && cacheable s slot d.tableId d.version then
    install { mkEntry slot d row NK.inset 0 (insetData m expiry copy) with content := m, expiry := expiry } s
  else s

/-- Discard the insets that satisfy p, each counted as withdrawn. -/
def withdrawInsets (p : NEntry → Bool) (s : State) : State :=
  let q := fun (e : NEntry) => e.kind == NK.inset && p e
  let n := (s.near.filter q).length + (s.victim.filter fun x => q x.2).length
  bump R.CNT_INSET_WITHDRAW n { s with near := s.near.filter (fun e => !q e), victim := s.victim.filter fun x => !q x.2 }

/-- The ESEQ that the next packet of an ordered stream will take. -/
def nextEseq (s : State) (dest cls : Nat) : Nat := (ostream s dest cls).tx % 2 ^ 32

/-- Send a withdrawal or purge to blocks, and wait for each one's acknowledgement. -/
def sendAwaited (kind what : Nat) (blocks : List Nat) (jobId : Nat) (body : Bytes) (s : State) : State :=
  if blocks.isEmpty then s else
  let s := { s with awaits := s.awaits ++ [{ owed := blocks.map fun b => (b, nextEseq s b CL.sync), what := what }] }
  each blocks (fun b s => sendPacket b CL.sync kind jobId body s) s

/-- Send INSET_PURGE to every other block and grant nothing until each has acknowledged (08 R227). -/
def sendPurge (s : State) : State :=
  if (others s).isEmpty then s else sendAwaited K.purge 3 (others s) 0 [] (setBit R.NM_STATUS 4 (bump1 R.CNT_INSET_PURGE s))

/-- Lose every vault's contents, contours and inset directory (08 Table 8.2): a purge is sent, pinned regions load again. -/
def discardNear (s : State) : State :=
  sendPurge (pinReload { s with near := [], victim := [], contours := [], idir := [] })

end Sys2Proof.Machine
end

