-- ==== Sys2Proof/Machine/Bags.lean ====
section
/-! DEFINITION. Bag streams and specification lists: what an operation reads before it pools (04 R80 to R86, R114; 05 R105). -/

namespace Sys2Proof.Machine

/-- One bag record: table, and its entries as identifier and weight pattern. -/
structure Bag where
  table : Nat
  entries : List (Nat × Nat)
deriving DecidableEq, Repr

def Bag.count (b : Bag) : Nat := b.entries.length

/-- Bytes of a bag record with COUNT entries (04 R82). -/
def bagSize (idFmt wgtFmt n : Nat) : Nat := roundUp (8 + roundUp ((if idFmt == 0 then 5 else 8) * n) 4 + 2 * wgtFmt * n) 8

/-- Entry i of a bag whose record begins at off. -/
def bagEntry (idFmt wgtFmt : Nat) (b : Bytes) (off n i : Nat) : Nat × Nat :=
  let k := if idFmt == 0 then 5 else 8
  (leAt b (off + 8 + k * i) k, leAt b (off + 8 + roundUp (k * n) 4 + 2 * wgtFmt * i) (2 * wgtFmt))

/-- The leading units of a stream that have arrived. -/
def unitRun : Nat → Nat → List (Nat × Bytes) → List Bytes
  | _, _, [] => []
  | n, i, (k, b) :: r => if k == i && decide (i < n) then b :: unitRun n (i + 1) r else []

/-- The data units of an operation in OFFSET order from unit 0, and whether the stream is whole. -/
def Op.dataStream (o : Op) : Bytes × Bool :=
  let n := o.lastUnit.getD (2 ^ 33)
  let run := unitRun n 0 o.units
  (run.flatten, o.lastUnit.isSome && run.length == n)

/-- The leading bytes of n bytes of memory from va that have been read, and whether all have. -/
def Op.memStream (o : Op) (va n : Nat) : Bytes × Bool :=
  if n == 0 then ([], true) else
  let k := (va + n - 1) / 64 + 1 - va / 64
  let run := unitRun k 0 ((o.lines.filter fun x => decide (lineOf va ≤ x.1) && decide (x.1 < lineOf va + 64 * k)).map fun x => ((x.1 - lineOf va) / 64, x.2))
  (((run.flatten).drop (va % 64)).take n, run.length == k)

/-- The bytes of the bag stream at hand, and whether it is whole (04 R82; 06 R151 for a stream shared with the gradients). -/
def Op.bagStream (o : Op) : Bytes × Bool :=
  if o.bagSrc then o.memStream o.bagBase o.bagBytes
  else if o.opcode == OP.gsScatter && !o.dySrc then
    let (b, e) := o.dataStream
    (b.take o.bagBytes, e || decide (o.bagBytes ≤ b.length))
  else o.dataStream

/-- The descriptor that an operation has bound for a table: once it has begun, its own copy (02 R26, R43). -/
def opDesc (s : State) (o : Op) (table : Nat) : Option Desc :=
  (mfind table o.bound).bind fun v => ((mfind table o.descs).or (findDesc s o.queue table v)).map (atStep s o.queue o.step)

/-- The specification record of a named table, once it has been read. -/
def Op.spec (o : Op) (table : Nat) : Option Spec :=
  if decide (o.tblFirst ≤ table) && decide (table < o.tblFirst + o.tblCount) then
    (o.mem (o.specBase + 32 * (table - o.tblFirst)) 32).map readSpec
  else none

def Op.namedTables (o : Op) : List Nat := (List.range o.tblCount).map (o.tblFirst + ·)

/-- Rows a bag of this table may name: the row count, or the composed count (04 R106). -/
def rowLimit (sp : Spec) (da : Desc) (db : Option Desc) : Nat :=
  if sp.comp == 0 then da.rows else min (da.rows * (db.map Desc.rows).getD 0) (2 ^ 40)

/-- A bag's header conditions (04 R83). -/
def bagHeaderOk (o : Op) (sp : Option Spec) (da : Option Desc) : Bool :=
  match sp, da with
  | some sp, some da => !sp.skip && !(o.idFmt == 0 && da.admits) && !(sp.mode == 4 && o.wgtFmt == 0)
  | _, _ => false

/-- Whether an entry's identifier is legal (04 R83). -/
def entryOk (o : Op) (sp : Spec) (da : Desc) (db : Option Desc) (id : Nat) : Bool :=
  da.admits || (!(o.idFmt == 1 && decide (2 ^ 40 ≤ id)) && decide (id < rowLimit sp da db))

/-- What parsing finds: whole legal bags, the first fault (bag, entry), the entries of a faulty bag that are at hand, and whether every bag is at hand. -/
structure Parsed where
  bags : List Bag
  fault : Option (Nat × Nat)
  faulty : Nat := 0
  complete : Bool
deriving DecidableEq, Repr

def noEntry : Nat := 0xFFFFFFFF

/-- Parse bag k and the bags after it (04 R82, R83). -/
def parseFrom (s : State) (o : Op) (b : Bytes) (ended : Bool) : Nat → Nat → Nat → List Bag → Parsed
  | 0, off, k, acc =>
    -- the last record is followed by at most 63 bytes
    let extra := b.length - off
    { bags := acc.reverse, fault := if 64 ≤ extra then some (k, noEntry) else none, complete := ended || (o.bagCount == 0 && !o.bagSrc) }
  | f + 1, off, k, acc =>
    let stop := fun (n : Nat) (x : Option (Nat × Nat)) => ({ bags := acc.reverse, fault := x, faulty := if x.isSome then n else 0, complete := false } : Parsed)
    if b.length < off + 8 then stop 0 (if ended then some (k, noEntry) else none) else
    let h := leAt b off 8
    let n := bits h 0 20
    let t := bits h 20 12
    let sp := o.spec t
    let da := opDesc s o t
    let size := bagSize o.idFmt o.wgtFmt n
    let whole := decide (off + size ≤ b.length)
    let avail := if whole then n else min n ((b.length - off - 8) / (if o.idFmt == 0 then 5 else 8))
    if !bagHeaderOk o sp da then stop avail (some (k, noEntry)) else
    match sp, da with
    | some sp, some da =>
      let db := if sp.comp == 0 then none else opDesc s o sp.compB
      let es := (List.range avail).map fun i => bagEntry o.idFmt o.wgtFmt b off n i
      match findIdx (fun (e : Nat × Nat) => !entryOk o sp da db e.1) es with
      | some i => stop avail (some (k, i))
      | none =>
        if whole then parseFrom s o b ended f (off + size) (k + 1) ({ table := t, entries := es } :: acc)
        else stop avail (if ended then some (k, noEntry) else none)
    | _, _ => stop avail (some (k, noEntry))

/-- All that can be parsed of an operation's bags now. -/
def parseBags (s : State) (o : Op) : Parsed :=
  let (b, ended) := o.bagStream
  parseFrom s o b ended o.bagCount 0 0 []

/-! ### Inputs read at start -/

/-- Whether the whole specification list has been read. -/
def Op.specsIn (o : Op) : Bool := (o.mem o.specBase (32 * o.tblCount)).isSome

/-- Records in use: table and record, ascending. -/
def Op.inUse (o : Op) : List (Nat × Spec) :=
  o.namedTables.filterMap fun t => match o.spec t with
    | some sp => if sp.skip then none else some (t, sp)
    | none => none

/-- How the first record that fails decides the end of the operation (04 R84): none where all pass; TABLE_RETIRED; or a BAD_OPERAND with table, QWORD and bit. A COMP_B table that was bound retired, and whose own record is not in use, ends the operation with TABLE_RETIRED once the record's other checks have passed (DESIGN CHOICE, log 75). -/
inductive SpecFail where
  | retired
  | bad (table qword bit : Nat)
deriving DecidableEq, Repr

def specFail (s : State) (o : Op) : Option SpecFail :=
  (o.inUse.filterMap fun (t, sp) =>
    let named := decide (o.tblFirst ≤ sp.compB) && decide (sp.compB < o.tblFirst + o.tblCount)
    match opDesc s o t with
    | none => some .retired
    | some da =>
      let db := if sp.comp == 0 then none else opDesc s o sp.compB
      -- a scatter neither checks nor uses OUT_FMT and PARTIAL_MIN (06 R152)
      let sp' := if o.opcode == OP.gsScatter then { sp with outFmt := 0, partialMin := 0 } else sp
      match (specChecks sp' named (o.opcode == OP.gsScatter && o.npay == 0) da db).find? (fun (x : Nat × Nat × Bool) => !x.2.2) with
      | some (q, b, _) => some (SpecFail.bad t q b)
      | none =>
        if sp.comp != 0 && db.isNone then some .retired else none).head?

/-- Memory the records in use call for: coarse legends and projection matrices (04 R105; 05 R119). -/
def wantedInputs (s : State) (o : Op) : List (Nat × Nat) :=
  o.inUse.flatMap fun (t, sp) =>
    match opDesc s o t with
    | none => []
    | some da =>
      let db := if sp.comp == 0 then none else opDesc s o sp.compB
      let leg := fun (d : Desc) => if d.usesLegend then [(d.legendBase, d.width)] else []
      leg da ++ (match db with
        | some d => leg d
        | none => [])
      ++ (if sp.proj then [(sp.projBase, projBytes sp (poolWidth sp da.width ((db.map Desc.width).getD 0)))] else [])

def Op.legend (o : Op) (d : Desc) : Bytes := if d.usesLegend then (o.mem d.legendBase d.width).getD [] else []

def Op.matrix (o : Op) (sp : Spec) (v : Nat) : Bytes := if sp.proj then (o.mem sp.projBase (projBytes sp v)).getD [] else []

/-- Whether the records have been read and everything they call for is at hand. -/
def inputsIn (s : State) (o : Op) : Bool := o.specsIn && (wantedInputs s o).all fun x => (o.mem x.1 x.2).isSome

/-- Read the specification list of an operation with bags (04 R84). -/
def wantSpecs (q seq : Nat) (s : State) : State :=
  match findOp s q seq with
  | none => s
  | some o => opWant q seq o.specBase (32 * o.tblCount) s

/-- Read what an operation needs once its records have passed: its bag buffer, and what the records call for. -/
def wantInputs (q seq : Nat) (s : State) : State :=
  match findOp s q seq with
  | none => s
  | some o =>
    let s := if o.bagSrc then opWant q seq o.bagBase o.bagBytes s else s
    each (wantedInputs s o) (fun x => opWant q seq x.1 x.2) s

/-- The start of an operation with bags: its records are read and checked, then its other inputs are read; f follows once they are there. -/
def startInputs (q seq : Nat) (fail : State → Op → Option (State → State)) (f : Op → State → State) (s : State) : State :=
  let s := wantSpecs q seq s
  match findOp s q seq with
  | none => s
  | some o =>
    if o.endNow || !o.specsIn then s else
    match fail s o with
    | some g => g s
    | none =>
      let s := wantInputs q seq s
      match findOp s q seq with
      | none => s
      | some o => if o.endNow || !inputsIn s o then s else f o s


/-! ### Tiles (04 R85, R86) -/

/-- Cut whole bags into tiles from bag k on: each tile a list of segments. The last tile of an unfinished stream stays open. -/
def cutTiles (done : Bool) : List (Nat × Bag) → List BagSeg → Nat → List (List BagSeg)
  | [], [], _ => []
  | [], cur, _ => if done then [cur] else []
  | (k, b) :: r, cur, n =>
    let one : BagSeg := { bag := k, table := b.table, count := b.count, seg := 0, nseg := 1, entries := b.entries }
    if b.count ≤ 4096 then
      if cur.isEmpty then cutTiles done r [one] b.count
      else if decide (cur.length < 64) && decide (n + b.count ≤ 4096) then cutTiles done r (cur ++ [one]) (n + b.count)
      else cur :: cutTiles done r [one] b.count
    else
      let m := ceilDiv b.count 4096
      let segs := (List.range m).map fun i =>
        [{ bag := k, table := b.table, count := b.count, seg := i, nseg := m, entries := (b.entries.drop (4096 * i)).take 4096 : BagSeg }]
      (if cur.isEmpty then [] else [cur]) ++ segs ++ cutTiles done r [] 0

/-- Entries a tile's record carries into the state. -/
def newTile (id epoch : Nat) (segs : List BagSeg) : Tile :=
  { id := id, core := 0, epoch := epoch, pass := 0, segs := segs, rows := [], found := [], parts := [], accs := [] }

end Sys2Proof.Machine
end

