-- ==== Sys2Proof/Machine/Adm.lean ====
section
/-! DEFINITION. The admission directory: reads and writes of directory memory, lookups of raw identifiers, occurrences of a step, and the pass of a meridian (02 R37 to R42). -/

namespace Sys2Proof.Machine

/-! ### Memory through the HBM update units -/

/-- What a read through an HBM update unit gives. -/
inductive MemRes where
  | data (b : Bytes)
  | wait
  | fatal
  | uncorrectable
deriving DecidableEq, Repr

/-- The request of the unit that serves a line: master and state parts, directories (09 Table 9.1). -/
def unitReq (s : State) (slot va : Nat) (write : Bool) (who : Waiter) : TReq :=
  { client := CLI.hbm (stackOf va), ctx := slotCtx s slot, va := lineOf va, write := write, source := 0, who := who }

/-- Translate the lines of a span: physical address and selector of each line; a line outside far memory is fatal (DESIGN CHOICE, log 7). -/
def unitLines (slot : Nat) (write : Bool) (who : Waiter) : Nat → Nat → List (Nat × Nat) → State → (TRes × List (Nat × Nat)) × State
  | 0, _, acc, s => ((.ok { ctx := 0, lo := 0, hi := 0, typ := 1, rd := true, wr := true, acct := false, key := 0, target := 0, fatal := false }, acc.reverse), s)
  | f + 1, va, acc, s =>
    match translate false (unitReq s slot va write who) s with
    | (.ok e, s) => if e.typ == 1 then unitLines slot write who f (va + 64) ((e.at va, e.key) :: acc) s else ((.fatal, []), s)
    | (r, s) => ((r, []), s)

def readLines (s : State) (ls : List (Nat × Nat)) : Bytes := ls.flatMap fun x => farRead s (keyOf s x.2) x.1 64

def linesUE (s : State) (ls : List (Nat × Nat)) : Option Nat := (ls.find? fun x => farUE s x.1 64).map (·.1)

/-- Read n bytes at a device address. -/
def unitRead (slot va n : Nat) (who : Waiter) (s : State) : MemRes × State :=
  match unitLines slot false who (spanLines va n) (lineOf va) [] s with
  | ((.ok _, ls), s) =>
    (match linesUE s ls with
     | some pa => (.uncorrectable, hbmUE pa s)
     | none => (.data (slice (readLines s ls) (va % 64) n), each ls (fun x s => pmc PMC.farRead none (some (stackOf x.1)) none 1 s) s))
  | ((.fatal, _), s) => (.fatal, s)
  | ((.wait, _), s) => (.wait, s)

/-- Write bytes over translated lines, from an offset in the first. -/
def writeLines : List (Nat × Nat) → Nat → Bytes → State → State
  | [], _, _, s => s
  | (pa, k) :: r, off, d, s => writeLines r 0 (d.drop (64 - off)) (farWrite (keyOf s k) (pa + off) (d.take (64 - off)) s)

/-- Write bytes at a device address; what is left undone where a line faults fatally. -/
def unitWrite (slot va : Nat) (data : Bytes) (who : Waiter) (s : State) : TRes × State :=
  match unitLines slot true who (spanLines va data.length) (lineOf va) [] s with
  | ((.ok e, ls), s) => (.ok e, writeLines ls (va % 64) data s)
  | ((r, _), s) => (r, s)

/-! ### Occurrences (02 R40) -/

/-- Key of an identifier of a version in the occurrence record. -/
def occKey (d : Desc) (id : Nat) : Nat := (d.tableId * 65536 + d.version) * 2 ^ 64 + id

/-- Mark that the overflow list of a version's sheet filled in this step. -/
def occFull (d : Desc) : Nat := (d.tableId * 65536 + d.version) + 2 ^ 120

/-- A record is its count, with its place above bit 32: 0 beside an existing entry, 1 a pending way, 2 the overflow list. -/
def occCount (v : Nat) : Nat := v % 2 ^ 32
def occPlace (v : Nat) : Nat := v / 2 ^ 32

/-- Records of a version. -/
def occOf (s : State) (slot : Nat) (d : Desc) : List (Nat × Nat) :=
  ((job s slot).occ.filter fun x => x.1 / 2 ^ 64 == d.tableId * 65536 + d.version).map fun x => (x.1 % 2 ^ 64, x.2)

def bucketVa (d : Desc) (id : Nat) : Nat := d.dirBase + dirBucketOff (admBucket d id)

def bucketEnts (b : Bytes) : List DirEnt := (List.range 8).map fun i => readEnt b (16 * i)

def emptyEnt : DirEnt := { key := 0, loc := 0, kind := 0, count := 0, seen := 0 }

/-- Write entry i of a bucket or of the overflow list. -/
def putEnt (slot va : Nat) (e : DirEnt) (s : State) : State := (unitWrite slot va e.bytes .probe s).2

/-- The list filled: every pending record of the step leaves the ways and the list, each counted once (02 R40). -/
def overflowSheet (slot : Nat) (d : Desc) (id : Nat) (s : State) : State :=
  let pend := (occOf s slot d).filter fun x => occPlace x.2 != 0
  let s := jobBit R.CMD_GZ_STATUS 1 slot (bump R.CNT_ADM_DROP (pend.length + 1) s)
  let s := (unitWrite slot (d.dirBase + dirOverOff d) (zeros (16 * (pend.filter fun x => occPlace x.2 == 2).length)) .probe s).2
  let s := each pend (fun x s =>
    if occPlace x.2 == 1 then
      match unitRead slot (bucketVa d x.1) 128 .probe s with
      | (.data b, s) => each (List.range 8) (fun i s => if readEnt b (16 * i) == { key := x.1, loc := 0, kind := 3, count := 0, seen := (readEnt b (16 * i)).seen } then putEnt slot (bucketVa d x.1 + 16 * i) emptyEnt s else s) s
      | (_, s) => s
    else s) s
  updJob slot (fun j => { j with
    occ := pend.foldl (fun m x => mdel (occKey d x.1) m) j.occ
    occDrop := j.occDrop ++ [occFull d, occKey d id] ++ pend.map fun x => occKey d x.1 }) s

/-- Record n occurrences of an identifier in step st, its bucket's bytes at hand (02 R40). The list fills when an identifier finds no place in it: the 65,537th record (DESIGN CHOICE, log 85). -/
def recordOcc (slot : Nat) (d : Desc) (id st n : Nat) (b : Bytes) (s : State) : State :=
  let k := occKey d id
  let j := job s slot
  match mfind k j.occ with
  | some v => updJob slot (fun j => { j with occ := mput k (v + n) j.occ }) s
  | none =>
    if (bucketEnts b).any (fun e => e.kind != 0 && e.key == id) then updJob slot (fun j => { j with occ := mput k n j.occ }) s
    else if j.occDrop.contains (occFull d) then
      if j.occDrop.contains k then s else updJob slot (fun j => { j with occDrop := j.occDrop ++ [k] }) (bump1 R.CNT_ADM_DROP s)
    else
      let e : DirEnt := { key := id, loc := 0, kind := 3, count := 0, seen := st % 2 ^ 18 }
      match findIdx (fun (e : DirEnt) => e.kind == 0) (bucketEnts b) with
      | some i => updJob slot (fun j => { j with occ := mput k (2 ^ 32 + n) j.occ }) (putEnt slot (bucketVa d id + 16 * i) e s)
      | none =>
        let m := ((occOf s slot d).filter fun x => occPlace x.2 == 2).length
        if m < 65536 then updJob slot (fun j => { j with occ := mput k (2 ^ 33 + n) j.occ }) (putEnt slot (d.dirBase + dirOverOff d + 16 * m) e s)
        else overflowSheet slot d id s

/-- Whether the lines that an occurrence's record writes translate for a write. -/
inductive OccAt where
  | ready
  | wait
  | failed
deriving DecidableEq, Repr

/-- Translate spans for a write, one after another. -/
def occSpans (slot : Nat) (who : Waiter) : List (Nat × Nat) → State → OccAt × State
  | [], s => (.ready, s)
  | x :: r, s =>
    match unitLines slot true who (spanLines x.1 x.2) (lineOf x.1) [] s with
    | ((.ok _, _), s) => occSpans slot who r s
    | ((.wait, _), s) => (.wait, s)
    | ((.fatal, _), s) => (.failed, s)

/-- Translate for a write what the record of an occurrence may write: the identifier's bucket, or the next entry of the overflow list; where that list has filled, all of it, and the buckets of the records that it discards. -/
def occReady (slot : Nat) (d : Desc) (id : Nat) (b : Bytes) (who : Waiter) (s : State) : OccAt × State :=
  let held := (mfind (occKey d id) (job s slot).occ).isSome || (bucketEnts b).any (fun e => e.kind != 0 && e.key == id) || (job s slot).occDrop.contains (occFull d)
  let m := ((occOf s slot d).filter fun x => occPlace x.2 == 2).length
  if held then (.ready, s) else
  let olist := d.dirBase + dirOverOff d
  let spans :=
    if (bucketEnts b).any (fun e => e.kind == 0) then [(bucketVa d id, 128)]
    else if m < 65536 then [(olist + 16 * m, 16)]
    else (olist, 16 * m) :: ((occOf s slot d).filter fun x => occPlace x.2 == 1).map fun x => (bucketVa d x.1, 128)
  occSpans slot who spans s

/-! ### Lookup of a raw identifier (02 R39) -/

inductive DirRes where
  | row (r : Nat)
  | notAdmitted
  | wait
  | failed
deriving DecidableEq, Repr

/-- The row a live admitted entry of a bucket gives an identifier. -/
def admittedRow (s : State) (d : Desc) (id st : Nat) (b : Bytes) : Option Nat :=
  ((bucketEnts b).find? fun e => e.kind == 2 && e.key == id && entLive d st e).map fun e => d.rowOf ((d.sheetOf (self s)).getD 0) e.loc

/-- Look an identifier up in this block's directory and record n occurrences of it. A directory that faults fatally or is uncorrectable is no row fetch: the lookup fails (04 R112; 08 R234, item 4). -/
def dirLookup (slot : Nat) (d : Desc) (id st n : Nat) (who : Waiter) (s : State) : DirRes × State :=
  match unitRead slot (bucketVa d id) 128 who s with
  | (.wait, s) => (.wait, s)
  | (.fatal, s) => (.failed, s)
  | (.uncorrectable, s) => (.failed, s)
  | (.data b, s) =>
    match (if n == 0 then (OccAt.ready, s) else occReady slot d id b who s) with
    | (.wait, s) => (.wait, s)
    | (.failed, s) => (.failed, s)
    | (.ready, s) =>
      let s := if n == 0 then s else recordOcc slot d id st n b s
      match admittedRow s d id st b with
      | some r => (.row r, s)
      | none => (.notAdmitted, s)

/-! ### The meridian pass (02 R41, R42) -/

/-- Order of the candidates for ways: descending COUNT, then descending last seen, then ascending KEY. -/
def candBefore (st : Nat) (a b : DirEnt) : Bool :=
  if a.count != b.count then decide (b.count < a.count)
  else if lastSeen st a.seen != lastSeen st b.seen then decide (lastSeen st b.seen < lastSeen st a.seen)
  else decide (a.key < b.key)

def insertCand (st : Nat) (x : DirEnt) : List DirEnt → List DirEnt
  | [] => [x]
  | y :: r => if candBefore st x y then x :: y :: r else y :: insertCand st x r

/-- Lowest free local index of a sheet by its bitmap bytes. -/
def lowestLocal (bm : Bytes) (n : Nat) : Option Nat := firstBelow (fun i => bits (leAt bm (i / 8) 1) (i % 8) 1 == 1) n

def setLocal (bm : Bytes) (i : Nat) (free : Bool) : Bytes :=
  bm.modify (i / 8) fun b => BitVec.ofNat 8 (if free then maskSet b.toNat (i % 8) else maskClear b.toNat (i % 8))

/-- Initial element e of an admitted row (02 R42). -/
def initElem (d : Desc) (id e : Nat) : Nat :=
  if d.init == 0 then 0
  else masterEnc d.mfmt (let t := signed 24 (bits (mix (dirHash d id ^^^ (e + 1))) 40 24); if t == 0 then .zero else .num t (d.initExp - 23))

/-- What the pass works on while it goes through the buckets: bitmap, rows to write, and counts. -/
structure Pass where
  bm : Bytes
  rows : List (Nat × Nat)
  admits : Nat
  evicts : Nat
  drops : Nat
  full : Nat
deriving DecidableEq, Repr

/-- Evictions of a bucket (02 R41, item 1): the ways left, and the identifiers evicted. -/
def evictEnts (d : Desc) (st : Nat) : List DirEnt → Pass → List DirEnt × List Nat × Pass
  | [], p => ([], [], p)
  | e :: r, p =>
    let out := (e.kind == 1 || e.kind == 2) && !entLive d st e
    let p := if out && e.kind == 2 then { p with bm := setLocal p.bm e.loc true, evicts := p.evicts + 1 } else p
    let (es, ids, p) := evictEnts d st r p
    if out then (emptyEnt :: es, e.key :: ids, p) else (e :: es, ids, p)

/-- Admit the candidates that have reached ADMIT_COUNT, in ascending KEY (02 R41, item 3). COUNT is a candidate's: an admitted entry's is 0 (DESIGN CHOICE, log 72). -/
def admitCands (d : Desc) (rows : Nat) : List DirEnt → Pass → List DirEnt × Pass
  | [], p => ([], p)
  | e :: r, p =>
    if d.admitCount ≤ e.count then
      match lowestLocal p.bm rows with
      | some i =>
        let (es, p) := admitCands d rows r { p with bm := setLocal p.bm i false, rows := p.rows ++ [(e.key, i)], admits := p.admits + 1 }
        ({ e with kind := 2, loc := i, count := 0 } :: es, p)
      | none => let (es, p) := admitCands d rows r { p with full := p.full + 1 }; (e :: es, p)
    else let (es, p) := admitCands d rows r p; (e :: es, p)

/-- Give candidates the ways that are empty. -/
def fillWays : List DirEnt → List DirEnt → List DirEnt × List DirEnt
  | [], c => ([], c)
  | w :: r, c =>
    if w.kind == 2 then let (x, c) := fillWays r c; (w :: x, c)
    else match c with
      | [] => let (x, c) := fillWays r []; (emptyEnt :: x, c)
      | y :: c => let (x, c) := fillWays r c; (y :: x, c)

/-- Process one bucket (02 R41): occ gives the step's occurrences of its identifiers. An entry that is admitted keeps its way. One that has none (of the overflow list, or evicted in item 1) takes an empty way before any candidate, and is dropped and counted like a candidate where none is left; its row stays taken (DESIGN CHOICE, log 71). -/
def passBucket (d : Desc) (st rows : Nat) (occ : List (Nat × Nat)) (ways : List DirEnt) (p : Pass) : List DirEnt × Pass :=
  let (ways, gone, p) := evictEnts d st ways p
  let seen := st % 2 ^ 18
  let n := fun id => occCount (mgetD id 0 occ)
  -- item 2
  let ways := ways.map fun e =>
    if e.kind == 0 || e.kind == 3 || n e.key == 0 then e
    else if e.kind == 1 then { e with count := min 15 (e.count + n e.key), seen := seen } else { e with seen := seen }
  let old := ways.filter fun e => e.kind == 1
  let new := (occ.filter fun x => occCount x.2 != 0 && (occPlace x.2 != 0 || gone.contains x.1)).map fun x =>
    ({ key := x.1, loc := 0, kind := 1, count := min 15 (occCount x.2), seen := seen } : DirEnt)
  let cands := sortBy (fun (e : DirEnt) => e.key) (old ++ new)
  let (cands, p) := admitCands d rows cands p
  let adm := cands.filter fun e => e.kind == 2
  let rest := (cands.filter fun e => e.kind == 1).foldl (fun l e => insertCand st e l) []
  let keep := ways.map fun e => if e.kind == 2 then e else (adm.find? fun a => e.kind != 0 && a.key == e.key).getD emptyEnt
  let (ways, left) := fillWays keep ((adm.filter fun a => !keep.any fun e => e.kind == 2 && e.key == a.key) ++ rest)
  (ways, { p with drops := p.drops + left.length })

end Sys2Proof.Machine
end

