-- ==== Sys2Proof/Machine/Rows.lean ====
section
/-! DEFINITION. Fetches of rows: translation of a master part, fills from far memory and from spilled masters, requests to owners (04 R88 to R92; 08 R213, R214, R238; 10 Tables 10.6 and 10.7). -/

namespace Sys2Proof.Machine

/-- Translation of the lines of a master part: address and selector of each, with 64 added to the selector of a host line. -/
inductive RowLines where
  | ok (l : List (Nat × Nat))
  | wait
  | fatal
deriving DecidableEq, Repr

/-- Translate the lines of a part; a line in another block's memory is fatal, since row fetches never use windows (DESIGN CHOICE, log 8). -/
def rowLinesAux (r : TReq) : Nat → Nat → List (Nat × Nat) → State → RowLines × State
  | 0, _, acc, s => (.ok acc.reverse, s)
  | f + 1, va, acc, s =>
    match translate false { r with va := va } s with
    | (.fatal, s) => (.fatal, s)
    | (.wait, s) => (.wait, s)
    | (.ok e, s) => if e.typ == 3 then (.fatal, s) else rowLinesAux r f (va + 64) ((e.at va, if e.typ == 2 then 64 + e.key else e.key) :: acc) s

/-- Lines of the master weight part of a row, translated by a gather engine in the job's context (09 R241). -/
def rowLines (phys slot : Nat) (d : Desc) (row : Nat) (who : Waiter) (s : State) : RowLines × State :=
  rowLinesAux { client := CLI.gather phys, ctx := slotCtx s slot, va := 0, write := false, source := 0, who := who }
    (d.mstride / 64) (d.masterAddr row) [] s

def hostLine (x : Nat × Nat) : Bool := decide (64 ≤ x.2)

/-- Selector a row's copies are held under: that of the first line of its master. -/
def linesKey (ls : List (Nat × Nat)) : Nat := match ls with
  | [] => 0
  | x :: _ => if hostLine x then x.2 - 64 else x.2

/-! ### Spilled masters (08 R238) -/

/-- A run of host lines that follow one another: device address, host address, selector, bytes. -/
structure HostRun where
  va : Nat
  addr : Nat
  key : Nat
  n : Nat

/-- The runs of host lines among the lines that start at a device address. -/
def hostRuns : Nat → List (Nat × Nat) → List HostRun
  | _, [] => []
  | va, x :: r =>
    let rest := hostRuns (va + 64) r
    if hostLine x then
      match rest with
      | y :: t => if y.va == va + 64 && y.addr == x.1 + 64 && y.key + 64 == x.2 then { y with va := va, addr := x.1, n := y.n + 64 } :: t else { va := va, addr := x.1, key := x.2 - 64, n := 64 } :: rest
      | [] => [{ va := va, addr := x.1, key := x.2 - 64, n := 64 }]
    else rest

/-- Read the host lines among the lines that start at a device address of a context. -/
def readRuns (q seq ctx : Nat) (dest : Dest) (va : Nat) (ls : List (Nat × Nat)) (s : State) : State :=
  each (hostRuns va ls) (fun x s => hostRead q seq ctx x.key dest x.va x.addr x.n s) s

/-- Bytes of a host line that has arrived for a user. -/
def hostGot (s : State) (dest : Dest) (a : Nat) : Option Bytes :=
  (s.hreads.find? fun r => r.dest == dest && decide (r.addr ≤ a) && decide (a + 64 ≤ r.addr + r.len)).bind fun r => r.got.map fun g => slice g (a - r.addr) 64

/-- The part a fetch has read, once every line of it is at hand. -/
def partOf (s : State) (dest : Dest) (ls : List (Nat × Nat)) : Option Bytes :=
  if (ls.filter hostLine).all fun x => (hostGot s dest x.1).isSome then
    some (ls.flatMap fun x => if hostLine x then (hostGot s dest x.1).getD [] else farRead s (keyOf s x.2) x.1 64)
  else none

/-- A user needs its reads no more: those outstanding still complete or fail, for nobody (11 R303). -/
def dropHostReads (dest : Dest) (s : State) : State := orphanReads (fun r => r.dest == dest) s

/-- Spilled fills outstanding. -/
def spillOut (s : State) : Nat := (s.fetches.filter fun f => f.src == .host).length

/-- Whether no fill of a spilled row may start: 4,096 hold a tag, or the last one's bytes still take the RATE of HBM_SPILL_CFG (08 R238, item 1). -/
def spillShut (s : State) : Bool := decide (4096 ≤ spillOut s) || decide (s.aon < s.spillAt)

/-- Whether a fill of these lines must wait for these limits. -/
def spillFull (s : State) (ls : List (Nat × Nat)) : Bool := ls.any hostLine && spillShut s

/-- Whether a fill of these lines must wait: a trip is in force, in which none starts (08 R237; DEDUCED, log 84), or the limits of 08 R238 hold it. -/
def fillShut (s : State) (ls : List (Nat × Nat)) : Bool := tripped s || spillFull s ls

/-- A fill that must wait: for the end of a trip, or for these limits. -/
def waitFill (p : Pool) (slot : Nat) (d : Dest) (s : State) : State :=
  if tripped s then { s with tagWait := s.tagWait ++ [(p, d)], spillWait := (s.spillWait.filter fun x => s.tagWait.any fun y => y.2 == x) ++ [d] } else waitSpill p slot d s

/-- A fill of n bytes takes the spill path for n / RATE nanoseconds (DESIGN CHOICE: the limit holds fill by fill, log 77). -/
def takeSpill (n : Nat) (s : State) : State := { s with spillAt := max s.aon s.spillAt + ceilDiv n (max 1 (fget s R.HBM_SPILL_CFG F.HBM_SPILL_CFG_RATE)) }

/-- The fetch that holds a tag for a user while its translation waits on a fault (09 R256). -/
def heldTag (dest : Dest) (s : State) : Option Nat := (s.fetches.find? fun f => f.dest == dest && f.src == .translation).map (·.tag)

/-- The tag of a user's fetch: the one it holds, or a free one. -/
def fetchTag (p : Pool) (dest : Dest) (s : State) : Option Nat := (heldTag dest s).or (freeTag p s)

/-- A request that waits on a fault keeps its tag (09 R256; one that finds no tag free waits without one, DEDUCED, log 36). -/
def holdTag (p : Pool) (dest : Dest) (slot : Nat) (d : Desc) (row step : Nat) (s : State) : State :=
  if (heldTag dest s).isSome then s else
  match freeTag p s with
  | none => s
  | some t => addFetch { tag := t, pool := p, epoch := placeEpoch s, src := .translation, dest := dest, slot := slot, table := d.tableId, version := d.version,
                         row := row, step := step, lines := [], stale := false, repeated := false } s

/-- The tag a user still holds for its translation retires: it needs no read. -/
def endHold (dest : Dest) (s : State) : State := match heldTag dest s with
  | some t => retireTag t s
  | none => s

/-- Whether a row's state ends its request. -/
def rowEnds (st : RowSt) : Bool := match st with
  | .have _ => true
  | .missing => true
  | .notAdmitted => true
  | _ => false

/-- Fetches that end at once when their user does: no response of a port or of a peer will come for them. -/
def localFetch (f : Fetch) : Bool := f.src == .host || f.src == .translation

/-- Begin a fill under a free tag or the one its user holds (04 Table 4.4, source 3; 08 R238). -/
def beginFill (tag : Nat) (pool : Pool) (dest : Dest) (q seq slot : Nat) (d : Desc) (row step : Nat) (ls : List (Nat × Nat)) (s : State) : State :=
  let spilled := ls.any hostLine
  let f : Fetch :=
    { tag := tag, pool := pool, epoch := placeEpoch s, src := if spilled then .host else .far, dest := dest, slot := slot, table := d.tableId,
      version := d.version, row := row, step := step, lines := ls, stale := false, repeated := false }
  let s := each (ls.filter fun x => !hostLine x) (fun x s => pmc PMC.farRead none (some (stackOf x.1)) none 1 s) (if (findFetch s tag).isSome then { s with fetches := updWhere (fun x => x.tag == tag) (fun _ => f) s.fetches } else addFetch f s)
  if spilled then readRuns q seq (slotCtx s slot) dest (d.masterAddr row) ls (takeSpill (64 * (ls.filter hostLine).length) (bump1 R.CNT_SPILL_READ s)) else s

/-- How the read of a fill ends: its part, an uncorrectable line, or not yet. -/
inductive FillRes where
  | part (b : Bytes)
  | uncorrectable (pa : Nat)
  | notYet
deriving DecidableEq, Repr

/-- The part of a fill whose far-memory lines have been read. -/
def fillPart (s : State) (f : Fetch) : FillRes :=
  match (f.lines.filter fun x => !hostLine x).find? fun x => farUE s x.1 64 with
  | some x => .uncorrectable x.1
  | none => match partOf s f.dest f.lines with
    | some b => .part b
    | none => .notYet

/-! ### Requests to owners -/

/-- The common part of requests and records (10 Table 10.6). -/
def commonPart (d : Desc) (tag step grid epoch n aux : Nat) : Bytes :=
  leBytes 8 (fld 0 12 d.tableId + fld 12 16 d.version + fld 28 16 d.digest + fld 44 18 tag)
  ++ leBytes 8 (fld 0 48 step + fld 48 8 grid) ++ leBytes 8 (fld 0 32 epoch + fld 32 24 n + fld 56 8 aux)

/-- Fields of a common part. -/
structure Common where
  table : Nat
  version : Nat
  digest : Nat
  tag : Nat
  step : Nat
  grid : Nat
  epoch : Nat
  n : Nat
  aux : Nat
deriving DecidableEq, Repr

def readCommon (b : Bytes) : Common :=
  let w0 := leAt b 0 8
  let w1 := leAt b 8 8
  let w2 := leAt b 16 8
  { table := bits w0 0 12, version := bits w0 12 16, digest := bits w0 28 16, tag := bits w0 44 18, step := bits w1 0 48, grid := bits w1 48 8,
    epoch := bits w2 0 32, n := bits w2 32 24, aux := bits w2 56 8 }

/-- TAG of a request of class REQ, and the epoch it carries (a window access carries none). -/
def requestTag (p : Packet) : Nat := if p.kind == K.rowReq || p.kind == K.partReq then (readCommon p.body).tag else bits (leAt p.body 8 8) 14 18
def requestEcho (p : Packet) : Nat := if p.kind == K.rowReq || p.kind == K.partReq then (readCommon p.body).epoch % 65536 else 0

/-- A fetch outstanding at an owner. -/
def peerFetch (s : State) (tag : Nat) (pool : Pool) (owner : Nat) (dest : Dest) (slot : Nat) (d : Desc) (row step : Nat) : Fetch :=
  { tag := tag, pool := pool, epoch := placeEpoch s, src := .peer owner, dest := dest, slot := slot, table := d.tableId, version := d.version, row := row,
    step := step, lines := [], stale := false, repeated := false }

/-- Request one row of an owner, or one raw identifier, which is named once for each of its n occurrences, 15 at most, so that the owner can count them; AUX [7] marks the row of an admitting table that is asked for as a row, AUX [6] an identifier whose occurrences an earlier request has named, here one with n = 0 (10 Table 10.7, 02 R39, R40; DESIGN CHOICE, log 9). -/
def sendRowReq (tag : Nat) (pool : Pool) (owner : Nat) (dest : Dest) (slot : Nat) (d : Desc) (raw : Bool) (id step n : Nat) (inset : Bool) (s : State) : State :=
  let k := max 1 (min 15 n)
  let body := if raw then commonPart d tag step 0 (placeEpoch s) k (if n == 0 then 64 else 0) ++ (List.replicate k (leBytes 8 id)).flatten
    else commonPart d tag step 0 (placeEpoch s) 1 (if d.admits then 128 else 0) ++ leBytes 8 (fld 0 40 id + fld 40 1 (natOfBool inset))
  sendPacket owner CL.req K.rowReq (slotJobId s slot) body (addFetch (peerFetch s tag pool owner dest slot d id step) s)


/-- Whether a row request carries an inset request (08 R223): its version as it stands on this block now; its region's contour has been raised. -/
def wantsInset (s : State) (slot : Nat) (d : Desc) (row st : Nat) : Bool :=
  let t := fget s R.NM_CFG F.NM_CFG_INSET_T
  let d := (findDesc s slot d.tableId d.version).getD d
  !d.admits && (d.state == 2 || d.state == 3) && !d.released && t != 0 && decide (t ≤ contour s slot d.tableId row) && (usableInset s slot d row st).isNone

/-! ### Prefetch entries (04 R115, 08 R217) -/

def PfEntry.is (p : PfEntry) (q seq slot table version row : Nat) : Bool :=
  p.queue == q && p.seq == seq && p.slot == slot && p.table == table && p.version == version && p.row == row

/-- The prefetched copy of a row for an operation of a step: used, or discarded as stale. -/
def usePrefetch (q seq slot : Nat) (d : Desc) (row st : Nat) (s : State) : Option Bytes × State :=
  match s.prefetched.find? fun p => p.is q seq slot d.tableId d.version row && p.usable with
  | none => (none, s)
  | some p =>
    if p.m + 1 == st then
      (some p.data, bump1 R.CNT_LK_SRC_PF { s with prefetched := updWhere (fun x => x.is q seq slot d.tableId d.version row) (fun x => { x with used := true }) s.prefetched })
    else
      (none, bump1 R.CNT_PF_STALE { s with prefetched := updWhere (fun x => x.is q seq slot d.tableId d.version row) (fun x => { x with usable := false, used := true }) s.prefetched })

/-- Lines of the side prefetch buffer in use. -/
def pfLines (s : State) : Nat := sumNat (s.prefetched.map fun p => nearLines p.data.length)

/-- Free the entries of an operation; those never used are counted (04 R115). -/
def freePrefetch (q seq : Nat) (s : State) : State :=
  let mine := fun (p : PfEntry) => p.queue == q && p.seq == seq
  let waits := fun (d : Dest) => match d with
    | .prefetch a b _ _ => a == q && b == seq
    | _ => false
  bump R.CNT_PF_UNUSED (s.prefetched.filter fun p => mine p && !p.used).length
    { s with prefetched := s.prefetched.filter (fun p => !mine p), tagWait := s.tagWait.filter fun x => !waits x.2 }

/-! ### Engines' flags (17 Table 17.5) -/

def poolFlags (phys : Nat) (f : Flags) (s : State) : State := coreFlags phys 0 f s
def foldFlags (phys : Nat) (f : Flags) (s : State) : State := coreFlags phys 4 f s
def updFlags (phys : Nat) (f : Flags) (s : State) : State := coreFlags phys 8 f s

end Sys2Proof.Machine
end

