-- ==== Sys2Proof/Machine/Lookup.lean ====
section
/-! DEFINITION. The lookup operation on the requesting block: result buffers, tiles, sources of rows, partial pools, results (chapter 04; 05 R131 to R146; 03 R72, R73). -/

namespace Sys2Proof.Machine

/-! ### Rows of a tile -/

def rowKey (table id : Nat) : Nat := table * 2 ^ 64 + id
def keyTable (k : Nat) : Nat := k / 2 ^ 64 % 4096
def keyId (k : Nat) : Nat := k % 2 ^ 64

/-- Key of the default row of an admitting table, apart from its raw identifiers. -/
def defaultKey (d : Desc) : Nat := rowKey (d.tableId + 4096) d.defaultRow

def isDefault (k : Nat) : Bool := decide (4096 ≤ k / 2 ^ 64)

/-- Whether a key is a raw identifier. -/
def rawKey (d : Desc) (k : Nat) : Bool := d.admits && !isDefault k

/-- Owner of a key: by its sheet, or by the hash of a raw identifier (02 R30, R37). -/
def keyOwner (d : Desc) (k : Nat) : Nat := if rawKey d k then admOwner d (keyId k) else d.owner (keyId k)

/-- Rows an entry of table t reads: one, or the two components (04 R106). -/
def compKeys (sp : Spec) (t : Nat) (da : Desc) (id : Nat) : List Nat :=
  if sp.comp == 0 then [rowKey t id] else [rowKey t (id % da.rows), rowKey sp.compB (id / da.rows)]

def Op.tile (o : Op) (id : Nat) : Option Tile := o.tiles.find? (fun t => t.id == id)

def updTile (q seq id : Nat) (f : Tile → Tile) (s : State) : State :=
  updOp q seq (fun o => { o with tiles := updWhere (fun t => t.id == id) f o.tiles }) s

/-- Set a row of a tile; a row that needs no further read gives up a tag held for its translation. -/
def setRow (q seq id key : Nat) (st : RowSt) (s : State) : State :=
  updTile q seq id (fun t => { t with rows := mput key st t.rows }) (if rowEnds st then endHold (.tile id key) s else s)

/-- The operation that holds a tile. -/
def opOfTile (s : State) (id : Nat) : Option Op := s.ops.find? (fun o => (o.tile id).isSome)

/-- Whether an operation reads the rows of a record's entries: a lookup does, a scatter where Table 6.2 says so (06 R152, R154, R156). -/
def needsRows (o : Op) (sp : Spec) : Bool := o.opcode != OP.gsScatter || sp.mode == 2 || sp.mode == 3 || sp.proj || decide (2 ≤ sp.comp) || o.wgradOn

/-- Keys of every entry of a segment that are read, entry by entry. -/
def segKeys (s : State) (o : Op) (g : BagSeg) : List (List Nat) :=
  match o.spec g.table, opDesc s o g.table with
  | some sp, some da => if needsRows o sp then g.entries.map fun e => compKeys sp g.table da e.1 else []
  | _, _ => []

/-- Segments of a tile whose bag is not finished. -/
def Tile.open_ (t : Tile) : List BagSeg := t.segs.filter fun g => !t.kept.any fun x => x.1 == g.bag

/-- Distinct rows of a tile (04 R91). -/
def tileKeys (s : State) (o : Op) (t : Tile) : List Nat := nub (t.open_.flatMap fun g => (segKeys s o g).flatten)

/-- Whether a row of a bag is left to a partial pool. -/
def inPart (t : Tile) (bag key : Nat) : Bool :=
  t.parts.any fun p => p.bag == bag && p.table == keyTable key && p.st != .whole && p.entries.any fun e => e.1 == keyId key

/-- The bags of a tile whose occurrences of a key a request for its row names: those that no partial pool names, and that nothing has named yet. -/
def keyBags (s : State) (o : Op) (t : Tile) (key : Nat) : List (BagSeg × Nat) :=
  (t.open_.filter fun g => !inPart t g.bag key && !t.named.contains (g.bag, key)).map fun g => (g, ((segKeys s o g).flatten.filter fun k => k == key).length)

/-- Occurrences of a key in a tile that a request for its row names: every one is named once, however often the tile runs (02 R40; DESIGN CHOICE, log 9). -/
def keyCount (s : State) (o : Op) (t : Tile) (key : Nat) : Nat := sumNat ((keyBags s o t key).map (·.2))

/-- A request or a directory has taken the occurrences of a key that keyCount gives. -/
def nameKey (o : Op) (id key : Nat) (s : State) : State :=
  updTile o.queue o.seq id (fun t => { t with named := t.named ++ (keyBags s o t key).map fun x => (x.1.bag, key) }) s

/-- A row of a tile is missing (04 R112). -/
def missRow (q seq id key : Nat) (s : State) : State := setRow q seq id key .missing s

/-- A fetch of a step whose meridian has begun on this block (08 R218). -/
def stepPassed (q seq table row : Nat) (s : State) : State :=
  opViolation q seq VK.stepPassed 0 (fld 0 12 table) row (bump1 R.CNT_STEP_PASSED s)

/-! ### Sources 1 to 4 -/

/-- A read of this block's own sheet, vault or insets waits for its own meridian of the step before (07 R199), and one of a sheet that is on its way here for the whole of it (14 R385). -/
def waitStep (o : Op) (t : Tile) (key : Nat) (s : State) : State := setRow o.queue o.seq t.id key .waitStep s

/-- A tile's distinct rows raise their contours once, whatever the source and however often the tile runs (08 R212, item 1): here the row of a key. -/
def touchRow (q seq id key row : Nat) (s : State) : State :=
  match (findOp s q seq).bind fun o => o.tile id with
  | none => s
  | some t => if t.touched.contains key then s else touchContour q (keyTable key) row (updTile q seq id (fun t => { t with touched := t.touched ++ [key] }) s)

/-- The rows that a tile names by row; those of raw identifiers follow when a directory has given them. -/
def touchKey (q seq id key : Nat) (s : State) : State :=
  match findOp s q seq with
  | none => s
  | some o => match opDesc s o (keyTable key) with
    | some d => if rawKey d key then s else touchRow q seq id key (keyId key) s
    | none => s

/-- A row of this block's sheet (04 Table 4.4, sources 1 to 3). -/
def ownRow (o : Op) (t : Tile) (d : Desc) (key : Nat) (s : State) : State :=
  let q := o.queue
  let row := keyId key
  if merBegun s q o.step then stepPassed q o.seq d.tableId row s else
  if !prevDone s q o.step || migComing s q d.tableId d.version o.step then waitStep o t key s else
  match rowLines t.core q d row (.tileRow q o.seq t.id key) s with
  | (.fatal, s) => missRow q o.seq t.id key s
  | (.wait, s) => setRow q o.seq t.id key .waitFault (holdTag .own (.tile t.id key) q d row o.step s)
  | (.ok ls, s) =>
    match usePrefetch q o.seq q d row o.step s with
    | (some c, s) => setRow q o.seq t.id key (.have c) s
    | (none, s) =>
      match readCopy q d row (linesKey ls) s with
      | (some c, s) => setRow q o.seq t.id key (.have c) (bump1 R.CNT_LK_SRC_NEAR s)
      | (none, s) =>
        if ls.any hostLine && !hostOpen s then missRow q o.seq t.id key (opCond q o.seq SC.hostLost s)
        else if fillShut s ls then
          setRow q o.seq t.id key .waitTag (waitFill .own q (.tile t.id key) s)
        else match fetchTag .own (.tile t.id key) s with
          | none => setRow q o.seq t.id key .waitTag (waitTag .own q (.tile t.id key) s)
          | some tag => beginFill tag .own (.tile t.id key) q o.seq q d row o.step ls (setRow q o.seq t.id key (.fetching tag) (bump1 R.CNT_LK_SRC_FAR s))

/-- A row of another block's sheet held here: source 1, or an inset (04 Table 4.4; 08 R225; 07 R200, item 4). Where neither serves, the row stays needed. -/
def heldRow (o : Op) (t : Tile) (d : Desc) (key : Nat) (s : State) : State :=
  let q := o.queue
  let row := keyId key
  let (e?, s) := heldInset q d row s
  let held := s.prefetched.any (fun p => p.is q o.seq q d.tableId d.version row && p.usable) || e?.isSome
  if held && merBegun s q o.step then stepPassed q o.seq d.tableId row s else
  if held && !prevDone s q o.step then waitStep o t key s else
  match usePrefetch q o.seq q d row o.step s with
  | (some c, s) => setRow q o.seq t.id key (.have c) s
  | (none, s) =>
    match e? with
    | none => s
    | some e =>
      if insetUsable s q d o.step e then
        setRow q o.seq t.id key (.have (insetCopy e))
          (pmc PMC.nmRead (some (partitionOf (homeVault s q d.tableId row))) none none (nearLines e.data.length) (bump1 R.CNT_NM_HIT (bump1 R.CNT_LK_SRC_INSET s)))
      else if decide (o.step ≤ e.expiry) && !insetFresh s d o.step e then bump1 R.CNT_INSET_STALE (dropInset q d row s)
      else s

/-- The row that this block's directory has given a raw identifier of a tile. -/
def foundRow (o : Op) (t : Tile) (d : Desc) (key r : Nat) (s : State) : State :=
  let q := o.queue
  match rowLines t.core q d r (.tileRow q o.seq t.id key) s with
  | (.fatal, s) => missRow q o.seq t.id key s
  | (.wait, s) => setRow q o.seq t.id key .waitFault (holdTag .own (.tile t.id key) q d r o.step s)
  | (.ok ls, s) =>
    match readCopy q d r (linesKey ls) s with
    | (some c, s) => setRow q o.seq t.id key (.have c) s
    | (none, s) =>
      if ls.any hostLine && !hostOpen s then missRow q o.seq t.id key (opCond q o.seq SC.hostLost s)
      else if fillShut s ls then
        setRow q o.seq t.id key .waitTag (waitFill .own q (.tile t.id key) s)
      else match fetchTag .own (.tile t.id key) s with
        | none => setRow q o.seq t.id key .waitTag (waitTag .own q (.tile t.id key) s)
        | some tag => beginFill tag .own (.tile t.id key) q o.seq q d r o.step ls (setRow q o.seq t.id key (.fetching tag) s)

/-- A raw identifier whose owner is this block: its directory answers once a pass (04 R89), and a directory that cannot be read ends the operation (04 R112; 08 R234, item 4). -/
def ownIdentifier (o : Op) (t : Tile) (d : Desc) (key : Nat) (s : State) : State :=
  let q := o.queue
  if merBegun s q o.step then stepPassed q o.seq d.tableId 0 s else
  if !prevDone s q o.step || migComing s q d.tableId d.version o.step then waitStep o t key s else
  match mfind key t.found with
  | some r => foundRow o t d key r s
  | none =>
    match dirLookup q d (keyId key) o.step (keyCount s o t key) (.tileRow q o.seq t.id key) s with
    | (.wait, s) => setRow q o.seq t.id key .waitFault s
    | (.failed, s) => opEnd q o.seq SC.faultFatal s
    | (.notAdmitted, s) => setRow q o.seq t.id key .notAdmitted (bump1 R.CNT_LK_SRC_PEER (nameKey o t.id key s))
    | (.row r, s) =>
      let s := touchRow q o.seq t.id key r s
      foundRow o t d key r (updTile q o.seq t.id (fun t => { t with found := mput key r t.found }) (bump1 R.CNT_LK_SRC_PEER (nameKey o t.id key s)))

/-- A needed row of a tile, from the sources this block holds. -/
def localRow (q seq id key : Nat) (s : State) : State :=
  match findOp s q seq with
  | none => s
  | some o =>
    if o.endNow then s else
    match o.tile id, opDesc s o (keyTable key) with
    | some t, some d =>
      if rawKey d key then (if admOwner d (keyId key) == self s then ownIdentifier o t d key s else s)
      else if d.owner (keyId key) == self s then ownRow o t d key s
      else heldRow o t d key s
    | _, _ => s

/-! ### Partial pools (04 R100 to R103) -/

/-- The weight by which the entries of a partial pool of an admitting table are kept apart in WSUM, so that the count of identifiers not admitted names their weight (DESIGN CHOICE, log 10). -/
def weightGroup (sp : Spec) (d : Desc) (w : Nat) : Nat := if sp.mode == 4 && d.admits then w + 1 else 0

/-- Entries of a segment that a block other than this one would serve: owner, table, identifier, weight, and the entry's place in the segment. -/
def peerEntries (s : State) (o : Op) (t : Tile) (g : BagSeg) : List (Nat × Nat × Nat × Nat × Nat) :=
  match o.spec g.table, opDesc s o g.table with
  | some sp, some da =>
    g.entries.zipIdx.flatMap fun e => (compKeys sp g.table da e.1.1).filterMap fun k =>
      match opDesc s o (keyTable k) with
      | some d => if keyOwner d k != self s && mgetD k .missing t.rows == .need then some (keyOwner d k, keyTable k, keyId k, if sp.mode == 4 then e.1.2 else 0, e.2) else none
      | none => none
  | _, _ => []

/-- At most 925 entries a request, so that its packet fits (10 R278). -/
def cut925 : Nat → List (Nat × Nat) → List (List (Nat × Nat))
  | 0, _ => []
  | f + 1, l => if l.isEmpty then [] else l.take 925 :: cut925 f (l.drop 925)

/-- The partial pools a segment asks for: of each owner that serves a row of at least PARTIAL_MIN entries. -/
def segParts (s : State) (o : Op) (t : Tile) (g : BagSeg) : List PartReq :=
  match o.spec g.table with
  | none => []
  | some sp =>
    if sp.partialMin == 0 || decide (2 ≤ sp.comp) || o.opcode != OP.lkPool then [] else
    let es := peerEntries s o t g
    let owners := nub (es.map (·.1))
    (owners.filter fun w => decide (sp.partialMin ≤ (nub ((es.filter fun e => e.1 == w).map fun e => e.2.2.2.2)).length)).flatMap fun w =>
      let mine := es.filter fun e => e.1 == w
      (nub (mine.map fun e => e.2.1)).flatMap fun tb =>
        match opDesc s o tb with
        | none => []
        | some d =>
          let of_ := mine.filter fun e => e.2.1 == tb
          (nub (of_.map fun e => weightGroup sp d e.2.2.2.1)).flatMap fun wg =>
            let l := (of_.filter fun e => weightGroup sp d e.2.2.2.1 == wg).map fun e => (e.2.2.1, e.2.2.2.1)
            (cut925 (l.length + 1) l).map fun c => { owner := w, bag := g.bag, table := tb, entries := c, st := .need : PartReq }

/-- Distinct entries of a partial request with their multiplicities: identifier, weight, multiplicity. -/
def mergeEntries (l : List (Nat × Nat)) : List (Nat × Nat × Nat) := (nub l).map fun e => (e.1, e.2, (l.filter fun x => x == e).length)

/-- An entry's weight as FP32 (10 Table 10.7). -/
def wireWeight (fmt w : Nat) : Nat := if fmt == 1 then w * 65536 else w

/-- Ask an owner for one partial pool. -/
def sendPart (o : Op) (t : Tile) (d : Desc) (sp : Spec) (i : Nat) (p : PartReq) (tag : Nat) (s : State) : State :=
  let es := mergeEntries p.entries
  let keys := if d.admits then p.entries.map fun e => (p.bag, rowKey p.table e.1) else []
  let body := commonPart d tag o.step (pattern 8 sp.grid) (placeEpoch s) es.length (fld 0 3 sp.mode + fld 3 2 t.pass + fld 6 1 (natOfBool (d.admits && keys.all t.named.contains)))
    ++ es.flatMap fun e => leBytes 8 (if d.admits then e.1 else fld 0 40 e.1) ++ leBytes 8 (fld 0 32 (wireWeight o.wgtFmt e.2.1) + fld 32 20 e.2.2)
  let s := updTile o.queue o.seq t.id (fun t => { t with parts := t.parts.modify i (fun p => { p with st := .sent tag }), named := nub (t.named ++ keys) }) s
  sendPacket p.owner CL.req K.partReq (slotJobId s o.queue) body
    (addFetch (peerFetch s tag .own p.owner (.part t.id p.owner p.bag p.table) o.queue d 0 o.step) (bump1 R.CNT_LK_PARTIAL s))

/-! ### Acquiring the rows of a tile -/

/-- Issue what a tile still needs from owners: partial pools, then rows. -/
def peerRow (q seq id key : Nat) (s : State) : State :=
  match findOp s q seq with
  | none => s
  | some o =>
    match o.tile id, opDesc s o (keyTable key) with
    | some t, some d =>
      if mgetD key .missing t.rows != .need || o.endNow then s
      else match freeTag .own s with
        | none => setRow q seq id key .waitTag (waitTag .own q (.tile id key) s)
        | some tag =>
          let n := keyCount s o t key
          let s := if rawKey d key then nameKey o id key s else s
          sendRowReq tag .own (keyOwner d key) (.tile id key) q d (rawKey d key) (keyId key) o.step n (wantsInset s q d (keyId key) o.step)
            (setRow q seq id key (.fetching tag) (bump1 R.CNT_LK_SRC_PEER s))
    | _, _ => s

def peerPart (q seq id i : Nat) (s : State) : State :=
  match findOp s q seq with
  | none => s
  | some o =>
    match o.tile id with
    | none => s
    | some t =>
      match t.parts[i]? with
      | none => s
      | some p =>
        if p.st != .need || o.endNow then s else
        match (t.segs.find? fun g => g.bag == p.bag).bind (fun g => o.spec g.table), opDesc s o p.table with
        | some sp, some d =>
          (match freeTag .own s with
           | none => updTile q seq id (fun t => { t with parts := t.parts.modify i fun p => { p with st := .waitTag } }) (waitTag .own q (.part id p.owner p.bag p.table) s)
           | some tag => sendPart o t d sp i p tag s)
        | _, _ => s

/-- Need the default row of every table of a tile that has identifiers not admitted (02 R39; 04 R102). -/
def wantDefaults (q seq id : Nat) (s : State) : State :=
  match findOp s q seq with
  | none => s
  | some o =>
    match o.tile id with
    | none => s
    | some t =>
      let na := (t.rows.filter fun x => x.2 == .notAdmitted).map (fun x => keyTable x.1)
        ++ (t.parts.filter fun p => match p.st with
          | .have _ _ n => n != 0
          | _ => false).map (·.table)
      each (nub na) (fun tb s => match opDesc s o tb with
        | some d =>
          if d.defaultValid && (mfind (defaultKey d) t.rows).isNone then
            let s := touchKey q seq id (defaultKey d) s
            peerRow q seq id (defaultKey d) (localRow q seq id (defaultKey d) (setRow q seq id (defaultKey d) .need s))
          else s
        | none => s) s

/-- Start a pass of a tile: its rows are needed; the ones this block can serve are taken, the others asked for. A repeat fetches them again (05 R132); its raw identifiers count no occurrence (DESIGN CHOICE, log 9). -/
def startPass (q seq id : Nat) (s : State) : State :=
  match findOp s q seq with
  | none => s
  | some o =>
    match o.tile id with
    | none => s
    | some t =>
      let keys := tileKeys s o t
      let rows := keys.foldl (fun m k => mput k RowSt.need m) []
      let s := updTile q seq id (fun t => { t with rows := rows, found := [], parts := [] }) s
      let s := each keys (touchKey q seq id) s
      let s := each keys (localRow q seq id) s
      match findOp s q seq with
      | none => s
      | some o =>
        if o.endNow then s else
        match o.tile id with
        | none => s
        | some t =>
          let parts := t.open_.flatMap (segParts s o t)
          let t' := { t with parts := parts }
          -- a row that only partial pools use is not asked for
          let used := fun k => t.open_.any fun g => (segKeys s o g).any fun ks => ks.contains k && !inPart t' g.bag k
          let rows := t.rows.filter fun x => x.2 != .need || used x.1
          let s := updTile q seq id (fun t => { t with parts := parts, rows := rows }) s
          let s := each (List.range parts.length) (peerPart q seq id) s
          wantDefaults q seq id (each ((rows.filter fun x => x.2 == .need).map (·.1)) (peerRow q seq id) s)

/-- Try a row of a tile again, after a tag, a fault or a meridian has let it go on. -/
def retryRow (q seq id key : Nat) (s : State) : State :=
  let s := setRow q seq id key .need s
  wantDefaults q seq id (peerRow q seq id key (localRow q seq id key s))

/-- The rows of a tile that wait for its block's own meridian. -/
def Tile.waiting (t : Tile) : List Nat := (t.rows.filter fun x => x.2 == .waitStep).map (·.1)

/-! ### Pooling a tile -/

def zeroRow (n : Nat) : List Val := List.replicate n .zero

/-- Add k entries of one row's values to a tally. -/
def Tally.put (y : Tally) (sp : Spec) (G : Int) (w : Val) (vals : List Val) (k : Nat) : Tally :=
  let (a, f) := addEntry sp.mode G y.accs (weighTerms sp w (vals.map fun v => [v])) k
  { y with accs := a, flags := y.flags.or f, lanes := y.lanes + k * vals.length }

/-- Add k entries that contribute +0 whatever their weight: missing rows, and identifiers not admitted without a default (05 R126). -/
def Tally.putZero (y : Tally) (sp : Spec) (G : Int) (n k : Nat) : Tally :=
  let (a, f) := addEntry sp.mode G y.accs (List.replicate n [.zero]) k
  { y with accs := a, flags := y.flags.or f, lanes := y.lanes + k * n }

/-- Add one fetched row of an entry. -/
def tallyRow (s : State) (o : Op) (t : Tile) (sp : Spec) (G : Int) (w : Val) (key : Nat) (y : Tally) : Tally :=
  match opDesc s o (keyTable key) with
  | none => y
  | some d =>
    match mgetD key .need t.rows with
    | .have c => y.put sp G w (rowVals d (o.legend d) c) 1
    | .notAdmitted =>
      let y := { y with notAdm := y.notAdm + 1 }
      if d.defaultValid then
        match mgetD (defaultKey d) .need t.rows with
        | .have c => { (y.put sp G w (rowVals d (o.legend d) c) 1) with dflt := y.dflt + 1 }
        | _ => { (y.putZero sp G d.width 1) with miss := y.miss + 1 }
      else { (y.putZero sp G d.width 1) with zero := y.zero + 1 }
    | _ => { (y.putZero sp G d.width 1) with miss := y.miss + 1 }

/-- Add an entry whose rows are terms of their own (04 R106: none, ADD): those left to no partial pool. An entry is missing once, however many of its rows are (04 R116). -/
def tallyEntry (s : State) (o : Op) (t : Tile) (sp : Spec) (G : Int) (w : Val) (bag : Nat) (ks : List Nat) (y : Tally) : Tally :=
  let r := ks.foldl (fun y k => if inPart t bag k then y else tallyRow s o t sp G w k y) y
  { r with miss := min (y.miss + 1) r.miss }

/-- Add one entry whose components form terms together (04 R106: MUL, MAT). -/
def tallyPair (s : State) (o : Op) (t : Tile) (sp : Spec) (G : Int) (w : Val) (ks : List Nat) (y : Tally) : Tally :=
  let rows := ks.map fun k => (opDesc s o (keyTable k)).bind fun d => match mgetD k .need t.rows with
    | .have c => some (rowVals d (o.legend d) c)
    | _ => none
  match rows with
  | [some a, some b] =>
    let ts := composeTerms sp a b
    let (acc, f) := addTerms sp G y.accs ts (weighTerms sp w ts)
    let n := sumNat (ts.map (·.length))
    { y with accs := acc, flags := y.flags.or f, lanes := y.lanes + n, macs := y.macs + (if sp.comp == 3 then n else 0) }
  | _ => { (y.putZero sp G y.accs.length 1) with miss := y.miss + 1 }

/-- Missing entries that a partial pool reports. Under COMP ADD an entry has a row in each of two tables, and the counts do not say which entries they mean. -/
def Tally.missPart (sp : Spec) (bag table n : Nat) (y : Tally) : Tally :=
  if sp.comp != 1 then { y with miss := y.miss + n } else if table == bag then { y with missA := y.missA + n } else { y with missB := y.missB + n }

/-- The least and the greatest number of missing entries of a bag of n entries (04 R116). They differ only under COMP ADD, where partial pools of both tables report some. -/
def Tally.missSpan (sp : Spec) (bag n : Nat) (y : Tally) : Nat × Nat :=
  (min n (max y.miss (max (if sp.compB == bag then ceilDiv y.missA 2 else y.missA) y.missB)), min n (y.miss + y.missA + y.missB))

/-- The missing entries of a bag: where the counts leave them open, a free value between the two (log 10). -/
def missing (sp : Spec) (bag n : Nat) (y : Tally) (s : State) : Nat × State :=
  let (lo, hi) := y.missSpan sp bag n
  if hi ≤ lo then (lo, s) else let (k, s) := freeNat s; (lo + k % (hi - lo + 1), s)

/-- Add one partial pool (04 R102, R103). -/
def tallyPart (s : State) (o : Op) (t : Tile) (sp : Spec) (table : Nat) (G : Int) (p : PartReq) (y : Tally) : Tally :=
  match p.st, opDesc s o p.table with
  | .have cols miss na, some d =>
    let w := weightVal o.wgtFmt ((p.entries.head?.map (·.2)).getD 0)
    let y := if p.entries.length ≤ miss + na then y else { y with accs := (y.accs.zip cols).map fun x => { x.1.merge sp.mode x.2 with n := x.1.n + (p.entries.length - miss - na) }, lanes := y.lanes + cols.length }
    let y := if miss == 0 then y else (y.putZero sp G d.width miss).missPart sp table p.table miss
    if na == 0 then y else
    let y := { y with notAdm := y.notAdm + na }
    if d.defaultValid then
      match mgetD (defaultKey d) .need t.rows with
      | .have c => { (y.put sp G w (rowVals d (o.legend d) c) na) with dflt := y.dflt + na }
      | _ => { (y.putZero sp G d.width na) with miss := y.miss + na }
    else { (y.putZero sp G d.width na) with zero := y.zero + na }
  | _, _ => y

/-- Pool one segment of a tile on the grid of its pass (04 R95, 05 R126 to R133), as far as its terms have been added. -/
def poolTerms (s : State) (o : Op) (t : Tile) (g : BagSeg) : Tally :=
  match o.spec g.table, opDesc s o g.table with
  | some sp, some da =>
    let wb := ((opDesc s o sp.compB).map Desc.width).getD 0
    let G := sp.grid + 8 * (t.pass : Int)
    let y0 : Tally := { accs := List.replicate (poolWidth sp da.width wb) {}, pass := t.pass }
    let y := g.entries.foldl (fun y e =>
      let ks := compKeys sp g.table da e.1
      let w := weightVal o.wgtFmt e.2
      if decide (2 ≤ sp.comp) then tallyPair s o t sp G w ks y
      else tallyEntry s o t sp G w g.bag ks y) y0
    (t.parts.filter fun p => p.bag == g.bag && p.st != .whole).foldl (fun y p => tallyPart s o t sp g.table G p y) y
  | _, _ => { accs := [] }

/-- Pool a whole segment: at the end of a column's terms its accumulator is finished (05 R129). -/
def poolSeg (s : State) (o : Op) (t : Tile) (g : BagSeg) : Tally :=
  let y := poolTerms s o t g
  { y with accs := y.accs.map ColAcc.promote }

/-! ### Results (04 R108 to R111) -/

/-- Bytes of the output row of a bag of a table. -/
def rowBytes (s : State) (o : Op) (table : Nat) : Nat :=
  match o.spec table, opDesc s o table with
  | some sp, some da => roundUp (outWidth sp da.width (((opDesc s o sp.compB).map Desc.width).getD 0) * outBytes sp.outFmt) 64
  | _, _ => 0

def statusBytes (o : Op) : Nat := roundUp o.bagCount 64

/-- Offset of the row of bag k in the image. -/
def rowOffset (s : State) (o : Op) (bags : List Bag) (k : Nat) : Nat :=
  statusBytes o + sumNat ((bags.take k).map fun b => rowBytes s o b.table)

/-- Largest image (04 R111). -/
def imageLimit (o : Op) : Nat := if o.outDst then o.rbBank else 2 ^ 38

/-- Base of the target bank. -/
def bankBase (o : Op) : Nat := o.rbBase + 128 + o.bank * o.rbBank

/-- Queue bytes of the image, joined to what they follow. -/
def putImage (q seq off : Nat) (b : Bytes) (s : State) : State :=
  updOp q seq (fun o =>
    if o.outDst then
      let va := bankBase o + off
      match o.writes.getLast? with
      | some w =>
        if !w.out && w.what == WK.data && w.remote.isNone && w.va + w.data.length == va then { o with writes := o.writes.dropLast ++ [{ w with data := w.data ++ b }] }
        else { o with writes := o.writes ++ [{ wid := o.nextWid, va := va, data := b, out := false, what := WK.data, remote := none }], nextWid := o.nextWid + 1 }
      | none => { o with writes := [{ wid := o.nextWid, va := va, data := b, out := false, what := WK.data, remote := none }], nextWid := o.nextWid + 1 }
    else
      match o.results.getLast? with
      | some (u, d, false) => if 64 * u + d.length == off then { o with results := o.results.dropLast ++ [(u, d ++ b, false)] } else { o with results := o.results ++ [(off / 64, b, false)] }
      | _ => { o with results := o.results ++ [(off / 64, b, false)] }) s

/-- Count what a core's engines did for the terms of a bag, on every pass (17 Table 17.4). -/
def countLanes (q phys pass : Nat) (y : Tally) (s : State) : State :=
  pmc PMC.foldMac (some (partitionOf phys)) none (some q) ((pass + 1) * y.macs) (pmc PMC.poolLane (some (partitionOf phys)) none (some q) ((pass + 1) * y.lanes) s)

/-- Finish a bag: write its row, note its status, and account for its entries (04 R109, R110, R116). -/
def finishResult (q seq phys : Nat) (g : BagSeg) (sp : Spec) (mat : Bytes) (off : Nat) (y : Tally) (s : State) : State :=
  let r := finishBag sp mat y.pass g.count y.accs y.flags
  let (miss, s) := missing sp g.table g.count y s
  let dflt := min (g.count - miss) y.dflt
  let zna := min (g.count - miss - dflt) y.zero
  let st := r.status + (if miss == 0 then 0 else 1) + (if y.notAdm == 0 then 0 else 8)
  let s := poolFlags phys r.pool (foldFlags phys r.fold s)
  let s := bump R.CNT_LK_POOLED (g.count - miss - dflt - zna) (bump R.CNT_LK_DEFAULT dflt (bump R.CNT_LK_ZERO_NA zna (bump R.CNT_LK_MISSING miss s)))
  let s := when (miss != 0) (fun s => jobBit R.CMD_LK_STATUS 2 q (bump1 R.CNT_LK_FLAGGED (opCond q seq SC.partialMissing s))) s
  let s := when (bits st 4 1 == 1) (jobBit R.CMD_LK_STATUS 3 q) s
  let s := when r.satur (opCond q seq SC.saturated) s
  let s := updOp q seq (fun o => { o with
    status := mput g.bag st o.status
    bags := o.bags + 1
    flagged := o.flagged + (if miss == 0 then 0 else 1)
    settled := o.settled + g.count }) s
  pmc PMC.foldMac (some (partitionOf phys)) none (some q) (if sp.proj then y.accs.length * sp.projD else 0) (countLanes q phys y.pass y (putImage q seq off r.row s))

/-! ### Completion of a tile (05 R132; 04 R86) -/

def rowSettled : RowSt → Bool
  | .have _ => true
  | .missing => true
  | .notAdmitted => true
  | _ => false

/-- Whether every response of a tile's pass has arrived. -/
def tileReady (t : Tile) : Bool := t.rows.all (fun x => rowSettled x.2) && t.parts.all fun p => match p.st with
  | .have _ _ _ => true
  | .whole => true
  | _ => false

/-- Rows of an owner whose partial overflowed are fetched whole (05 R134). -/
def fetchWhole (q seq id bag owner table : Nat) (s : State) : State :=
  match (findOp s q seq).bind (fun o => o.tile id) with
  | none => s
  | some t =>
    let hit := fun (p : PartReq) => p.bag == bag && p.owner == owner && p.table == table
    let ids := nub ((t.parts.filter hit).flatMap fun p => p.entries.map (·.1))
    let keys := (ids.map (rowKey table)).filter fun k => (mfind k t.rows).isNone
    let s := updTile q seq id (fun t => { t with parts := updWhere hit (fun p => { p with st := .whole }) t.parts }) s
    each keys (fun k s => peerRow q seq id k (setRow q seq id k .need s)) s

def overPart (p : PartReq) : Bool := match p.st with
  | .have cols _ _ => cols.any (·.remote)
  | _ => false

/-- The bags of a ready tile that its pass finishes are kept until the tile completes; the others overflowed (05 R132; 14 R367). -/
def keepBags (q seq id : Nat) (s : State) : State :=
  match (findOp s q seq).bind (fun o => (o.tile id).map fun t => (o, t)) with
  | none => s
  | some (o, t) =>
    let one := fun (s : State) (g : BagSeg) =>
      match o.spec g.table with
      | some sp =>
        let y := poolSeg s o t g
        if mustReplay sp t.pass y.accs then poolFlags t.core { ovf := true } s
        else updTile q seq id (fun t => { t with kept := t.kept ++ [(g.bag, y)] }) s
      | none => s
    t.open_.foldl one s

/-- A tile completes: the results of its bags are written (14 R367). -/
def writeTile (q seq id : Nat) (bags : List Bag) (s : State) : State :=
  match (findOp s q seq).bind (fun o => (o.tile id).map fun t => (o, t)) with
  | none => s
  | some (o, t) =>
    let s := updOp q seq (fun o => { o with tiles := o.tiles.filter fun x => x.id != id }) s
    let one := fun (s : State) (g : BagSeg) =>
      match o.spec g.table, opDesc s o g.table, mfind g.bag t.kept with
      | some sp, some da, some y =>
        let mat := o.matrix sp (poolWidth sp da.width (((opDesc s o sp.compB).map Desc.width).getD 0))
        finishResult q seq t.core g sp mat (rowOffset s o bags g.bag) y s
      | _, _, _ => s
    pmc PMC.tiles (some (partitionOf t.core)) none (some q) 1 (t.segs.foldl one s)

/-- Whether the terms of a segment's column alone make an invalid operation of the pool engine (05 R126). -/
def ownInvalid (a : ColAcc) : Bool := a.zinf || (a.pinf && a.ninf)

/-- The flags of one segment of a long bag, whose combined columns are accs, in the engines of its core (05 R146; 17 Table 17.5). A NaN term leaves no invalid operation. -/
def segFlags (phys : Nat) (accs : List ColAcc) (y : Tally) (s : State) : State :=
  let cs := y.accs.zip accs
  foldFlags phys { inv := cs.any fun c => c.1.zfold && !c.2.nan }
    (poolFlags phys (y.flags.or { inv := cs.any fun c => ownInvalid c.1 && !c.2.nan }) s)

/-- The combined column of a long bag: a NaN that one of its segments made is by then a plain one. -/
def ownNan (parts : List ColAcc) (a : ColAcc) : ColAcc :=
  if parts.any fun p => ownInvalid p || p.zfold then { a with nan := true, zinf := false, zfold := false } else a

/-- A bag of several segments, once every one of its tiles has pooled (04 R86): finish it, or send every segment around again. -/
def finishLong (q seq bag : Nat) (bags : List Bag) (s : State) : State :=
  match findOp s q seq with
  | none => s
  | some o =>
    let ts := o.tiles.filter fun t => t.segs.any fun g => g.bag == bag
    match ts.find? (fun t => t.segs.any fun g => g.seg == 0) with
    | none => s
    | some first =>
      match first.segs.head? with
      | none => s
      | some g =>
        if ts.length != g.nseg || ts.any (fun t => t.accs.isEmpty) then s else
        match o.spec g.table, opDesc s o g.table with
        | some sp, some da =>
          let accs := match ts.map fun t => (t.accs.map (·.2)).head?.getD [] with
            | [] => []
            | a :: r => r.foldl (fun x y => (x.zip y).map fun p => p.1.merge sp.mode p.2) a
          if mustReplay sp first.pass accs then
            let again := ts.map fun t => { newTile t.id t.epoch t.segs with pass := t.pass + 1, named := t.named, touched := t.touched }
            updOp q seq (fun o => { o with tiles := o.tiles.filter (fun t => !ts.any fun x => x.id == t.id), queueTiles := again ++ o.queueTiles }) (poolFlags first.core { ovf := true } s)
          else
            let ys := ts.map fun t => (t, (t.segs.map (poolSeg s o t)).head?.getD { accs := [] })
            let sum := fun (f : Tally → Nat) => sumNat (ys.map fun x => f x.2)
            -- the flags of its terms are those of the core where each segment ran (05 R146)
            let s := each ys (fun x s => segFlags x.1.core accs x.2 (countLanes q x.1.core first.pass x.2 s)) s
            let y : Tally := { accs := accs.zipIdx.map fun x => ownNan (ys.map fun z => z.2.accs.getD x.2 {}) x.1, pass := first.pass, dflt := sum (·.dflt), zero := sum (·.zero), miss := sum (·.miss),
                               notAdm := sum (·.notAdm), missA := sum (·.missA), missB := sum (·.missB) }
            let mat := o.matrix sp (poolWidth sp da.width (((opDesc s o sp.compB).map Desc.width).getD 0))
            updOp q seq (fun o => { o with tiles := o.tiles.filter fun t => !ts.any fun x => x.id == t.id })
              (finishResult q seq first.core g sp mat (rowOffset s o bags bag) y s)
        | _, _ => s

/-- Complete a tile whose responses have arrived: its bags are finished, replayed on the next pass, or left to their other segments (05 R132, R134). -/
def completeTile (q seq id : Nat) (s : State) : State :=
  match (findOp s q seq).bind (fun o => (o.tile id).map fun t => (o, t)) with
  | none => s
  | some (o, t) =>
    if o.endNow || !tileReady t then s
    else if o.opcode != OP.lkPool then
      -- a scatter takes up its bags as its gradients arrive; the segments of a long bag leave their cores
      if t.segs.any (fun g => decide (1 < g.nseg)) then updTile q seq id (fun t => { t with accs := t.segs.map fun g => (g.bag, []) }) s else s
    else
    -- on the last pass a partial that overflowed is replaced by its rows
    let lastOvr := t.parts.filter fun p => overPart p && (match (t.segs.find? fun g => g.bag == p.bag).bind fun g => o.spec g.table with
      | some sp => decide (lastPass sp ≤ t.pass)
      | none => false)
    match lastOvr with
    | p :: _ => fetchWhole q seq id p.bag p.owner p.table s
    | [] =>
      let bags := (parseBags s o).bags
      if t.segs.any (fun g => decide (1 < g.nseg)) then
        if t.accs.isEmpty then
          let s := updTile q seq id (fun t => { t with accs := t.segs.map fun g => (g.bag, (poolSeg s o t g).accs) }) s
          (t.segs.map (·.bag)).foldl (fun s b => finishLong q seq b bags s) (pmc PMC.tiles (some (partitionOf t.core)) none (some q) 1 s)
        else s
      else
        let s := keepBags q seq id s
        match (findOp s q seq).bind (fun o => o.tile id) with
        | none => s
        | some t' =>
          if t'.open_.isEmpty then writeTile q seq id bags s
          else startPass q seq id (updTile q seq id (fun t => { t with pass := t.pass + 1 }) s)

/-! ### The running lookup -/

/-- Stop every tile of an operation and absorb what is outstanding for them (04 R83; 03 R74). -/
def stopTiles (q seq : Nat) (s : State) : State :=
  match findOp s q seq with
  | none => s
  | some o =>
    let mine := fun (d : Dest) => match d with
      | .tile id _ => o.tiles.any fun t => t.id == id
      | .part id _ _ _ => o.tiles.any fun t => t.id == id
      | _ => false
    let hosts := s.fetches.filter fun f => mine f.dest && localFetch f
    let s := each hosts (fun f s => absorbTag f.tag (orphanReads (fun r => r.dest == f.dest) s)) s
    let s := { s with
      fetches := updWhere (fun f => mine f.dest) (fun f => { f with dest := .nobody }) s.fetches
      tagWait := s.tagWait.filter fun x => !mine x.2 }
    let s := bump (if o.opcode == OP.gsScatter then R.CNT_GS_ABSORBED else R.CNT_LK_ABSORBED) (o.counted - o.settled) s
    updOp q seq (fun o => { o with tiles := [], queueTiles := [], results := [], settled := o.counted }) s

/-- The first bag whose row does not fit (04 R111). -/
def overImage (s : State) (o : Op) (bags : List Bag) : Bool :=
  (List.range bags.length).any fun k => decide (o.pos ≤ k) && decide (imageLimit o < rowOffset s o bags (k + 1))

/-- Count the entries of the bags parsed since the last look, and those of a faulty bag that are at hand (04 R116; 06 R176). -/
def countBags (q seq : Nat) (bags : List Bag) (faulty : Nat) (s : State) : State :=
  match findOp s q seq with
  | none => s
  | some o =>
    let n := sumNat ((bags.drop o.pos).map Bag.count) + faulty
    bump (if o.opcode == OP.gsScatter then R.CNT_GS_ENTRIES else R.CNT_LK_ENTRIES) n (updOp q seq (fun o => { o with pos := bags.length, counted := o.counted + n }) s)

/-- Cut the bags at hand into tiles that wait for dispatch (04 R85). -/
def makeTiles (q seq : Nat) (p : Parsed) (s : State) : State :=
  match findOp s q seq with
  | none => s
  | some o =>
    let cut := cutTiles p.complete ((p.bags.zipIdx.drop o.cut).map fun x => (x.2, x.1)) [] 0
    let n := (nub (cut.flatMap fun t => t.map (·.bag))).length
    let ids := (List.range cut.length).map (s.nextId + ·)
    let ts := (cut.zip ids).map fun x => newTile x.2 (placeEpoch s) x.1
    updOp q seq (fun o => { o with cut := o.cut + n, nTiles := o.nTiles + ts.length, queueTiles := o.queueTiles ++ ts }) { s with nextId := s.nextId + cut.length }

/-- The status vector (04 R109). -/
def statusVector (o : Op) : Bytes := padTo (statusBytes o) ((List.range o.bagCount).map fun k => BitVec.ofNat 8 (mgetD k 0 o.status))

/-- A whole lookup's last results: the status vector ends the image. -/
def endResults (q seq : Nat) (s : State) : State :=
  match findOp s q seq with
  | none => s
  | some o =>
    let s := if o.bagCount == 0 then s
      else if o.outDst then opWrite q seq (bankBase o) (statusVector o) WK.data s
      else updOp q seq (fun o => { o with results := o.results ++ [(0, statusVector o, true)] }) s
    updOp q seq (fun o => { o with resultsDone := true, phase := .drain }) s

/-- Run a lookup as far as it goes: parse, check, cut, and end when every bag is done. -/
def lkRun (q seq : Nat) (s : State) : State :=
  match findOp s q seq with
  | none => s
  | some o =>
    let p := parseBags s o
    if overImage s o p.bags then opEnd q seq SC.capacity (countBags q seq p.bags p.faulty s) else
    let s := countBags q seq p.bags p.faulty s
    match p.fault with
    | some (b, e) => badOperand q seq (whereWord 1 (fld 0 24 b)) (fld 0 32 e) s
    | none =>
      let s := makeTiles q seq p s
      match findOp s q seq with
      | none => s
      | some o => if p.complete && o.bags == o.bagCount && !o.resultsDone then endResults q seq s else s

/-! ### Result buffers (03 R72, R73) -/

/-- Line 0 of a result buffer: PUB_SEQ, PUB_BANK, WRITING, PUB_STATUS, WRITING_SEQ, and the SEQ of each bank. -/
def rbLine (pub bank writing st wseq s0 s1 : Nat) : Bytes :=
  withCheck [word (fld 0 48 pub + fld 48 1 bank + fld 49 1 writing + fld 50 4 st), word (fld 0 48 wseq), word (fld 0 48 s0), word (fld 0 48 s1), 0, 0, 0]

/-- Take a bank (03 R73, item 1), or wait for its reader. -/
def takeBank (q seq : Nat) (s : State) : State :=
  match findOp s q seq with
  | none => s
  | some o =>
    if o.pubMem then (if o.writes.any (fun w => w.what == WK.line0) then s else updOp q seq (fun o => { o with phase := .run }) s) else
    let s := opWant q seq o.rbBase 128 s
    match (findOp s q seq).bind (fun o => o.mem o.rbBase 128) with
    | none => s
    | some h =>
      let w0 := leAt h 0 8
      let b := 1 - bits w0 48 1
      let old := bits (leAt h (16 + 8 * b) 8) 0 48
      if bits (leAt h 64 8) 0 48 < old then
        if o.waitRb then s
        else updOp q seq (fun o => { o with waitRb := true }) (setBitFor R.CMD_CPT_STATUS 0 4 q (bump1 R.CNT_RB_WAIT s))
      else
        let other := bits (leAt h (16 + 8 * (1 - b)) 8) 0 48
        let line := rbLine (bits w0 0 48) (bits w0 48 1) 1 (bits w0 50 4) seq (if b == 0 then seq else other) (if b == 1 then seq else other)
        opWrite q seq o.rbBase line WK.line0 (updOp q seq (fun o => { o with bank := b, pubMem := true, waitRb := false }) s)

/-- Forget the header of a result buffer, so that it is read again. -/
def rereadBank (q seq : Nat) (s : State) : State :=
  updOp q seq (fun o => { o with lines := o.lines.filter fun x => !(decide (o.rbBase ≤ x.1) && decide (x.1 < o.rbBase + 128)) }) s

/-- The last write of line 0: the bank is published, or given up (03 R73, items 3 and 4). -/
def publishLine (o : Op) (ok : Bool) : Bytes :=
  let h := (o.mem o.rbBase 128).getD (zeros 128)
  let w0 := leAt h 0 8
  let other := bits (leAt h (16 + 8 * (1 - o.bank)) 8) 0 48
  let mine := if ok then o.seq else 0
  rbLine (if ok then o.seq else bits w0 0 48) (if ok then o.bank else bits w0 48 1) 0 (if ok then statusOf o.cond else bits w0 50 4) 0
    (if o.bank == 0 then mine else other) (if o.bank == 1 then mine else other)

/-! ### Start of a lookup (04 R84) -/

/-- What a failed record does to an operation. -/
def specEnd (q seq : Nat) (f : SpecFail) (s : State) : State :=
  match f with
  | .retired => opEnd q seq SC.tableRetired s
  | .bad t w b => badOperand q seq (whereWord 2 (fld 0 12 t)) (fld 0 3 w + fld 3 6 b) s

/-- Read and check the inputs of a lookup. -/
def lkFresh (q seq : Nat) (s : State) : State :=
  startInputs q seq (fun s o => (specFail s o).map (specEnd q seq))
    (fun o s => updOp q seq (fun o' => { o' with phase := if o.outDst then .bank else .run }) s) s

/-- Advance a running lookup by what has arrived. -/
def lkAdvance (q seq : Nat) (s : State) : State :=
  let at_ := fun (p : OpPhase) (f : State → State) (s : State) => match findOp s q seq with
    | some o => if o.phase == p && !o.endNow then f s else s
    | none => s
  at_ .run (lkRun q seq) (at_ .bank (takeBank q seq) (at_ .fresh (lkFresh q seq) s))

/-! ### Dispatch (04 R87) -/

/-- Whether a core lies in a reset in progress (14 R375). -/
def inScope (s : State) (phys : Nat) : Bool :=
  s.scopes.any fun c => if c.partition then phys / 36 == c.index else phys / 9 == c.index

/-- Tiles a core holds; a segment that has pooled has left its core. -/
def tilesOn (s : State) (phys : Nat) : Nat := sumNat (s.ops.map fun o => (o.tiles.filter fun t => t.core == phys && t.accs.isEmpty).length)

/-- The lowest logical core that holds fewer than four tiles. -/
def freeCore (s : State) : Option Nat := ((enabledCores s).find? fun c => decide (tilesOn s c.1 < 4)).map (·.1)

/-- The lowest tile slot of a core that no tile pooling there has. A segment that has pooled is read in its slot until another tile takes it (DESIGN CHOICE, log 80). -/
def freeTslot (s : State) (phys : Nat) : Nat :=
  lowestFree (s.ops.flatMap fun o => (o.tiles.filter fun t => t.core == phys && t.accs.isEmpty).map (·.tslot))

/-- Dispatch the next tile of an operation. -/
def dispatchTile (q seq : Nat) (s : State) : State :=
  match findOp s q seq, freeCore s with
  | some o, some c =>
    (match o.queueTiles with
     | [] => s
     | t :: r =>
       completeTile q seq t.id (startPass q seq t.id (updOp q seq (fun o => { o with queueTiles := r, tiles := o.tiles ++ [{ t with core := c, tslot := freeTslot s c, epoch := placeEpoch s }] }) s)))
  | _, _ => s

end Sys2Proof.Machine
end

