-- ==== Sys2Proof/Machine/Arrive.lean ====
section
/-! DEFINITION. What arrives for a requester: rows, partial pools, errors and stale responses, and the prefetch of an issued lookup (04 R89, R101, R114, R115; 10 R280; 14 R372). -/

namespace Sys2Proof.Machine

/-! ### Epochs (14 R372) -/

/-- A response of an earlier epoch is sunk: counted, and charged to the operation that issued its request, if that has not completed (14 R372). src is the block that sent it, none for this block's memory, which echoes no epoch here. -/
def staleArrival (src : Option Nat) (tag echo : Nat) (s : State) : State :=
  let s := bump1 R.CNT_EPOCH_STALE s
  match s.late.find? fun l => l.src == src && l.tag == tag && (src.isNone || l.epoch % 65536 == echo) with
  | none => s
  | some l => updOp l.queue l.seq (fun o => if o.cart.isEmpty then { o with stale := o.stale + 1, cond := maskSet o.cond SC.epochStale } else o) { s with late := s.late.erase l }

/-- A response whose tag is not outstanding under the epoch it echoes (14 R372; 10 Table 10.10). The epoch travels as its low 16 bits (DESIGN CHOICE, log 11). -/
def unexpected (port src tag echo : Nat) (s : State) : State :=
  if echo != placeEpoch s % 65536 then staleArrival (some src) tag echo s
  else bump1 R.CNT_LNK_DISCARD (vlog VK.unsolicited (portSource port) 0 0 0 0 s)

/-- The fetch that a peer's response answers. -/
def answered (s : State) (src tag echo : Nat) : Option Fetch :=
  (findFetch s tag).bind fun f => if f.src == .peer src && f.epoch % 65536 == echo then some f else none

/-! ### Rows for a tile -/

/-- A row of a tile is at hand (04 R89). -/
def tileHas (id key : Nat) (copy : Bytes) (s : State) : State :=
  match opOfTile s id with
  | some o => completeTile o.queue o.seq id (setRow o.queue o.seq id key (.have copy) s)
  | none => s

def tileMisses (id key : Nat) (s : State) : State :=
  match opOfTile s id with
  | some o => completeTile o.queue o.seq id (missRow o.queue o.seq id key s)
  | none => s

def tileNotAdmitted (id key : Nat) (s : State) : State :=
  match opOfTile s id with
  | some o => completeTile o.queue o.seq id (wantDefaults o.queue o.seq id (setRow o.queue o.seq id key .notAdmitted s))
  | none => s

/-- A fill for a tile has its part: the working copy is derived, offered to near memory, and used (08 R213, R214). -/
def fillTile (f : Fetch) (id key : Nat) (part : Bytes) (s : State) : State :=
  match (opOfTile s id).bind (fun o => (opDesc s o f.table).bind fun d => (o.tile id).map fun t => (o, d, t)) with
  | some (o, d, t) =>
    let (copy, fl) := deriveCopy d (o.legend d) part
    tileHas id key copy (retireTag f.tag (fillCopy f.slot d f.row (linesKey f.lines) copy f.stale (poolFlags t.core fl s)))
  | none => absorbTag f.tag s

/-- A fill for a tile that cannot be read ends its operation (08 R234, item 1). -/
def fillTileUE (f : Fetch) (id : Nat) (s : State) : State :=
  match opOfTile s id with
  | some o => opEnd o.queue o.seq SC.faultFatal (retireTag f.tag s)
  | none => absorbTag f.tag s

/-! ### Prefetch entries (08 R217) -/

/-- A prefetched copy joins the buffer, if its operation still waits and the lines are free. -/
def addPrefetch (f : Fetch) (q seq m : Nat) (copy : Bytes) (s : State) : State :=
  let n := nearLines copy.length
  match findOp s q seq with
  | some o =>
    if o.endNow || decide (524288 < pfLines s + n) then s
    else { s with prefetched := s.prefetched ++ [{ queue := q, seq := seq, slot := f.slot, table := f.table, version := f.version, row := f.row, m := m, data := copy, usable := !f.stale, used := false }] }
  | none => s

/-- A fill for a prefetch has its part. The gather engine that derives its copy is that of the row's home vault (05 R145; DESIGN CHOICE, log 90). -/
def fillPrefetch (f : Fetch) (q seq : Nat) (part : Bytes) (s : State) : State :=
  match (findOp s q seq).bind (fun o => (opDesc s o f.table).map fun d => (o, d)) with
  | some (o, d) =>
    if d.usesLegend && (o.mem d.legendBase d.width).isNone then bump1 R.CNT_PF_DROP (retireTag f.tag s)
    else
      let (copy, fl) := deriveCopy d (o.legend d) part
      let s := poolFlags (homeVault s f.slot f.table f.row) fl s
      addPrefetch f q seq (closedStep s f.slot) copy (retireTag f.tag (fillCopy f.slot d f.row (linesKey f.lines) copy f.stale s))
  | none => absorbTag f.tag s

/-! ### Responses of owners -/

/-- Fields of a row response (10 Table 10.7): tag, rows, m, the epoch echoed, EXPIRY, and the rows. -/
structure RowRsp where
  tag : Nat
  n : Nat
  m : Nat
  echo : Nat
  expiry : Nat
  rows : Bytes
deriving DecidableEq, Repr

def readRowRsp (b : Bytes) : RowRsp :=
  let w0 := leAt b 0 8
  let w1 := leAt b 8 8
  { tag := bits w0 0 18, n := bits w0 18 16, m := bits w1 0 48, echo := bits w1 48 16, expiry := bits (leAt b 16 8) 0 48, rows := b.drop 24 }

/-- A row request is answered: its one row. -/
def rowAnswer (f : Fetch) (r : RowRsp) (s : State) : State :=
  let d? := match f.dest with
    | .tile id key => (opOfTile s id).bind fun o => (opDesc s o f.table).map fun d => (d, rawKey d key)
    | .prefetch q seq _ _ => (findOp s q seq).bind fun o => (opDesc s o f.table).map fun d => (d, false)
    | _ => none
  match d? with
  | none => absorbTag f.tag s
  | some (d, raw) =>
    let b := if raw then r.rows.drop 8 else r.rows
    let w := leAt b 0 8
    let copy := slice b 8 d.copyLen
    let s := retireTag f.tag s
    let s := if bits w 41 1 == 1 then installInset f.slot d (bits w 0 40) r.m r.expiry copy s else s
    match f.dest with
    | .tile id key =>
      let s := match opOfTile s id with
        | some o => if raw && bits w 42 1 == 0 then touchRow o.queue o.seq id key (bits w 0 40) s else s
        | none => s
      if bits w 40 1 == 1 then tileMisses id key s else if bits w 42 1 == 1 then tileNotAdmitted id key s else tileHas id key copy s
    | .prefetch q seq _ _ => if bits w 40 1 == 1 then bump1 R.CNT_PF_DROP s else addPrefetch f q seq r.m copy s
    | _ => s

/-- Handle ROW_RSP (04 R89; 14 R372). -/
def rowRsp (port : Nat) (p : Packet) (s : State) : State :=
  let r := readRowRsp p.body
  match answered s p.src r.tag r.echo with
  | some f => rowAnswer f r s
  | none => unexpected port p.src r.tag r.echo s

/-- Handle PART_RSP (04 R101 to R103; 05 R133). -/
def partRsp (port : Nat) (p : Packet) (s : State) : State :=
  let w0 := leAt p.body 0 8
  let w1 := leAt p.body 8 8
  match answered s p.src (bits w0 0 18) (bits w1 48 16) with
  | none => unexpected port p.src (bits w0 0 18) (bits w1 48 16) s
  | some f =>
    match f.dest with
    | .part id _ _ _ =>
      (match (opOfTile s id).bind fun o => (opDesc s o f.table).map fun d => (o, d) with
       | some (o, d) =>
         let st := PartSt.have (partialCols (bits w0 18 2) d.width (p.body.drop 16)) (bits w0 20 20) (bits w0 40 20)
         let s := updTile o.queue o.seq id (fun t => { t with parts := updWhere (fun x => x.st == .sent f.tag) (fun x => { x with st := st }) t.parts }) (retireTag f.tag s)
         completeTile o.queue o.seq id (wantDefaults o.queue o.seq id s)
       | none => absorbTag f.tag s)
    | _ => absorbTag f.tag s

/-! ### Errors (10 Table 10.8) -/

/-- Operation a fetch works for. -/
def fetchOp (s : State) (f : Fetch) : Option (Nat × Nat) :=
  match f.dest with
  | .tile id _ => (opOfTile s id).map fun o => (o.queue, o.seq)
  | .part id _ _ _ => (opOfTile s id).map fun o => (o.queue, o.seq)
  | .opLine q seq _ => some (q, seq)
  | .opWrite q seq _ => some (q, seq)
  | _ => none

/-- Log kind a requester makes for an error code (10 R292; DEDUCED, log 12). -/
def errorKind (code : Nat) : Option Nat :=
  if code == EC.noRoute then some VK.noRoute else if code == EC.jobAbsent then some VK.jobAbsent else if code == EC.digest then some VK.digestMismatch
  else if code == EC.stepPassed then some VK.stepPassed else if code == EC.badPacket then some VK.badPacket else none

/-- An error that ends nothing, since it answers a prefetch, is logged all the same (10 R292; 02 R26). -/
def errorNote (port src code q seq : Nat) (s : State) : State :=
  let s := if code == EC.stepPassed then bump1 R.CNT_STEP_PASSED s else s
  match errorKind code with
  | some k => vlog k (portSource port) q seq src code s
  | none => s

/-- The operation's end for an error code. -/
def errorEnd (port src code q seq : Nat) (s : State) : State :=
  let s := if code == EC.stepPassed then bump1 R.CNT_STEP_PASSED s else s
  match errorKind code with
  | some k => opViolation q seq k (portSource port) src code s
  | none => opEnd q seq (if code == EC.retired then SC.tableRetired else SC.faultFatal) s

/-! ### Prefetch of an issued lookup (04 R114; 03 R65) -/

/-- Read a span for a prefetch by far memory alone, raising no fault; none where it is not at hand. -/
def peekRead (q seq va n : Nat) (s : State) : State :=
  each ((List.range (spanLines va n)).map fun i => lineOf va + 64 * i) (fun l s =>
    match findOp s q seq with
    | some o =>
      if o.hasLine l then s else
      (match translate true (opReq s q l false .probe) s with
       | (.ok e, s) => if e.typ == 1 && !farUE s (e.at l) 64 then addLines q seq l (farRead s (keyOf s e.key) (e.at l) 64) s else s
       | (_, s) => s)
    | none => s) s

/-- An issued operation with the data units that are still staged for it. -/
def stagedView (s : State) (o : Op) : Op :=
  match mfind o.seq (queue s o.queue).data with
  | some x => { o with units := x.units, lastUnit := x.last }
  | none => o

/-- The rows of the bags open to prefetch: table and row, in bag order, each once. -/
def prefetchRows (s : State) (o : Op) : List (Nat × Nat) :=
  nub (((parseBags s (stagedView s o)).bags.take o.pfWindow).flatMap fun b =>
    match o.spec b.table, opDesc s o b.table with
    | some sp, some d => if sp.proj || sp.comp != 0 || d.admits then [] else b.entries.map fun e => (b.table, e.1)
    | _, _ => [])

/-- One fetch of the prefetch (04 R114): nothing where a copy is held, no line is left or the prefetch holds its 57,344 tags. Where the own pool is empty it waits, and its wait is counted (04 R92). -/
def prefetchRow (q seq : Nat) (x : Nat × Nat) (s : State) : State :=
  match (findOp s q seq).bind (fun o => (opDesc s o x.1).map fun d => (o, d)) with
  | none => s
  | some (o, d) =>
    let dest := Dest.prefetch q seq x.1 x.2
    let held := s.prefetched.any (fun p => p.is q seq q d.tableId d.version x.2) || s.fetches.any (fun f => f.dest == dest) || s.tagWait.any (fun w => w.2 == dest)
    if held || decide (524288 < pfLines s + nearLines d.copyLen) || tripped s then s else
    match freeTag .prefetch s with
    | none => if prefetchFull s then s else waitTag .prefetch q dest s
    | some tag =>
      if d.owner x.2 == self s then
        if !prevDone s q o.step || merBegun s q o.step || migComing s q d.tableId d.version o.step then s else
        let r : TReq := { client := CLI.gather (homeVault s q d.tableId x.2), ctx := slotCtx s q, va := 0, write := false, source := 0, who := .probe }
        let rec lines : Nat → Nat → List (Nat × Nat) → State → Option (List (Nat × Nat)) × State
          | 0, _, acc, s => (some acc.reverse, s)
          | f + 1, va, acc, s =>
            match translate true { r with va := va } s with
            | (.ok e, s) => if e.typ == 1 || (e.typ == 2 && hostOpen s) then lines f (va + 64) ((e.at va, if e.typ == 2 then 64 + e.key else e.key) :: acc) s else (none, s)
            | (_, s) => (none, s)
        match lines (d.mstride / 64) (d.masterAddr x.2) [] s with
        | (none, s) => bump1 R.CNT_PF_DROP s
        | (some ls, s) =>
          if (readCopy q d x.2 (linesKey ls) s).1.isSome then s
          else if spillFull s ls then waitSpill .prefetch q dest s
          else beginFill tag .prefetch dest q seq q d x.2 o.step ls s
      else if (usableInset s q d x.2 o.step).isSome then s
      else sendRowReq tag .prefetch (d.owner x.2) dest q d false x.2 o.step 1 false s

/-- Prefetch for the issued lookup, while another operation runs (03 R65; 04 R114). -/
def prefetchOp (s : State) : State :=
  match issued s, running s with
  | some o, some _ =>
    if o.opcode != OP.lkPool || o.pfWindow == 0 || o.endNow then s else
    let q := o.queue
    let seq := o.seq
    let s := peekRead q seq o.specBase (32 * o.tblCount) s
    match findOp s q seq with
    | none => s
    | some o =>
      if !o.specsIn || (specFail s o).isSome then s else
      let s := each (wantedInputs s o) (fun x => peekRead q seq x.1 x.2) s
      let s := if o.bagSrc && decide ((parseBags s o).bags.length < o.pfWindow) then peekRead q seq o.bagBase o.bagBytes s else s
      match findOp s q seq with
      | none => s
      | some o => each (prefetchRows s o) (prefetchRow q seq) s
  | _, _ => s

end Sys2Proof.Machine
end

