-- ==== Sys2Proof/Machine/Serve.lean ====
section
/-! DEFINITION. The owner's side of a lookup: requests held for a meridian, rows and partial pools served, insets granted (04 R90, R101 to R103; 08 R224; 07 R201; 10 R280). -/

namespace Sys2Proof.Machine

/-! ### Requests in service -/

def findServe (s : State) (id : Nat) : Option Serve := s.serves.find? (fun x => x.id == id)

def updServe (id : Nat) (f : Serve → Serve) (s : State) : State := { s with serves := updWhere (fun x => x.id == id) f s.serves }

/-- The key under which a serve waits for its coarse legend. -/
def legendKey : Nat := 2 ^ 100

/-- Whether a fetch works for a serve. -/
def serveDest (id : Nat) (d : Dest) : Bool := match d with
  | .serve i _ => i == id
  | _ => false

/-- End a serve: what is outstanding for it will be absorbed. -/
def dropServe (id : Nat) (s : State) : State :=
  let hosts := s.fetches.filter fun f => serveDest id f.dest && localFetch f
  let s := orphanReads (fun r => serveDest id r.dest) (each hosts (fun f s => absorbTag f.tag s) s)
  { s with
    serves := s.serves.filter fun x => x.id != id
    fetches := updWhere (fun f => serveDest id f.dest) (fun f => { f with dest := .nobody }) s.fetches
    tagWait := s.tagWait.filter fun x => !serveDest id x.2 }

/-- Answer the requester of a serve with an error, and end it (10 R280). -/
def serveFail (id code : Nat) (s : State) : State :=
  match findServe s id with
  | none => s
  | some v => sendError v.src v.jobId v.tag code v.epoch (dropServe id s)

/-- The descriptor a serve reads under, as it is in force for the request's step. -/
def serveDesc (s : State) (v : Serve) : Option Desc := (findDesc s v.slot v.table v.version).map (atStep s v.slot v.step)

/-! ### Insets (08 R224) -/

/-- A job slot's meridian is running: it has begun and is not complete. -/
def inMeridian (s : State) (slot : Nat) : Bool := match (job s slot).mer with
  | some m => m.phase == 3
  | none => false

def IDir.is (e : IDir) (slot table version row : Nat) : Bool := e.slot == slot && e.table == table && e.version == version && e.row == row

def findIDir (s : State) (slot table version row : Nat) : Option IDir := s.idir.find? (fun e => e.is slot table version row)

/-- Directory set of a row in its home vault. -/
def idirSet (slot table row : Nat) : Nat := Config.dirHash slot table row % 16384

/-- Whether an inset of a row may be granted (08 R224; 14 Table 14.6, step 3). -/
def mayGrant (s : State) (slot : Nat) (d : Desc) (row : Nat) : Bool :=
  let vault := homeVault s slot d.tableId row
  let set := idirSet slot d.tableId row
  !inMeridian s slot && (d.state == 2 || d.state == 3) && !d.released && !d.rowmode
  && !s.awaits.any (fun a => a.what == 3) && !(match s.mig with
      | some m => m.withdrawn && m.slot == slot && m.table == d.tableId && m.owner == self s
      | none => false) && (homeInService s slot d.tableId row).isSome
  && ((findIDir s slot d.tableId d.version row).isSome || decide ((s.idir.filter fun e => e.vault == vault && e.set == set).length < 8))

/-- Grant an inset to a block: its bit in the holder mask, and the entry's expiry raised. -/
def grantInset (slot : Nat) (d : Desc) (row block expiry : Nat) (s : State) : State :=
  let s := bump1 R.CNT_INSET_GRANT s
  match findIDir s slot d.tableId d.version row with
  | some _ => { s with idir := updWhere (fun e => e.is slot d.tableId d.version row) (fun e => { e with holders := maskSet e.holders block, expiry := max e.expiry expiry }) s.idir }
  | none =>
    { s with idir := s.idir ++ [{ slot := slot, table := d.tableId, version := d.version, row := row, vault := homeVault s slot d.tableId row,
                                  set := idirSet slot d.tableId row, holders := maskSet 0 block, expiry := expiry }] }

/-- A request for an inset that is not granted. -/
def denyInset (s : State) : State := setBit R.NM_STATUS 2 (bump1 R.CNT_INSET_DENY s)

/-! ### Answers -/

/-- One row of a response: the identifier of an admitting table, the prefix, and the copy (10 Table 10.7). -/
def rowBody (v : Serve) (granted : Bool) (id : Nat) : Bytes :=
  let row := mgetD id id v.found
  let pre := fun (miss na : Bool) => (if v.raw then leBytes 8 id else []) ++ leBytes 8 (fld 0 40 row + fld 40 1 (natOfBool miss) + fld 41 1 (natOfBool granted) + fld 42 1 (natOfBool na))
  match mgetD id .missing v.rows with
  | .have c => pre false false ++ c
  | .notAdmitted => pre false true
  | _ => pre true false

/-- Whether a row of a serve was read. -/
def Serve.got (v : Serve) (id : Nat) : Bool := match mgetD id .missing v.rows with
  | .have _ => true
  | _ => false

/-- Send the rows of a row request, granting what may be granted; a response with a grant travels in SYNC (10 Table 10.7, R285). -/
def answerRows (v : Serve) (d : Desc) (s : State) : State :=
  let m := closedStep s v.slot
  let e := v.step + fget s R.NM_CFG F.NM_CFG_LEASE
  let (gs, s) := v.order.foldl (fun (x : List Nat × State) id =>
    if !v.inset.contains id then x
    else if v.got id && mayGrant x.2 v.slot d id then (x.1 ++ [id], grantInset v.slot d id v.src e x.2)
    else (x.1, denyInset x.2)) ([], s)
  let body := leBytes 8 (fld 0 18 v.tag + fld 18 16 v.order.length) ++ leBytes 8 (fld 0 48 m + fld 48 16 v.epoch)
    ++ leBytes 8 (if gs.isEmpty then 0 else fld 0 48 e) ++ v.order.flatMap fun id => rowBody v (gs.contains id) id
  sendPacket v.src (if gs.isEmpty then CL.rsp else CL.sync) K.rowRsp v.jobId body s

/-- The owner's columns of a partial pool, with the flags of its terms (04 R101; 05 R133). -/
def partialPool (v : Serve) (d : Desc) : List ColAcc × Flags :=
  let sp : Spec := { readSpec [] with mode := v.mode }
  v.entries.foldl (fun (x : List ColAcc × Flags) e =>
    match mgetD e.1 .missing v.rows with
    | .have c =>
      let (a, f) := addEntry v.mode v.grid x.1 (weighTerms sp (fp32.dec e.2.1) ((rowVals d (v.legend.getD []) c).map fun t => [t])) e.2.2
      (a, x.2.or f)
    | _ => x) (List.replicate d.width {}, {})

/-- Entries, with their multiplicities, whose row stands at a state. -/
def Serve.count (v : Serve) (p : RowSt → Bool) : Nat := sumNat ((v.entries.filter fun e => p (mgetD e.1 .missing v.rows)).map fun e => e.2.2)

/-- Send a partial pool (04 R101 to R103). The core that serves it, and holds its flags, is the home vault of the request's first identifier (05 R146; DESIGN CHOICE, log 89). -/
def answerPart (v : Serve) (d : Desc) (s : State) : State :=
  let (accs, f) := partialPool v d
  let (form, vals) := partialBody v.mode accs
  let miss := v.count fun r => r == .missing
  let na := v.count fun r => r == .notAdmitted
  let body := leBytes 8 (fld 0 18 v.tag + fld 18 2 form + fld 20 20 miss + fld 40 20 na) ++ leBytes 8 (fld 0 48 (closedStep s v.slot) + fld 48 16 v.epoch) ++ vals
  let phys := homeVault s v.slot v.table (v.order.head?.getD 0)
  let s := pmc PMC.poolLane (some (partitionOf phys)) none (some v.slot) (d.width * v.count fun r => r != .missing && r != .notAdmitted) s
  let nOver := (v.mode != 2 && v.mode != 3) && accs.any fun a => a.termOvf && a.special.isNone
  let inv := accs.any fun a => (a.zinf || (a.pinf && a.ninf)) && !a.nan
  sendPacket v.src CL.rsp K.partRsp v.jobId body (poolFlags phys (f.or { ovf := nOver, inv := inv }) s)

/-- Answer a serve whose legend and rows are all settled. -/
def serveDone (id : Nat) (s : State) : State :=
  match findServe s id with
  | none => s
  | some v =>
    match serveDesc s v with
    | none => serveFail id EC.retired s
    | some d =>
      if (d.usesLegend && v.legend.isNone) || !v.rows.all (fun x => rowSettled x.2) then s
      else if v.part then answerPart v d (dropServe id s) else answerRows v d (dropServe id s)

/-! ### Reading the rows of a serve -/

/-- Set a row of a serve; a row that needs no further read gives up a tag held for its translation. -/
def setServeRow (id key : Nat) (st : RowSt) (s : State) : State :=
  updServe id (fun v => { v with rows := mput key st v.rows }) (if rowEnds st then endHold (.serve id key) s else s)

/-- Read a row of this block's sheet for a serve (04 R88, Table 4.4 sources 2 and 3; 08 R238). -/
def serveFill (v : Serve) (d : Desc) (key row : Nat) (s : State) : State :=
  let id := v.id
  match rowLines (homeVault s v.slot v.table row) v.slot d row (.serveRow id key) s with
  | (.fatal, s) => setServeRow id key .missing s
  | (.wait, s) => setServeRow id key .waitFault (holdTag .service (.serve id key) v.slot d row v.step s)
  | (.ok ls, s) =>
    match readCopy v.slot d row (linesKey ls) s with
    | (some c, s) => setServeRow id key (.have c) s
    | (none, s) =>
      if ls.any hostLine && !hostOpen s then setServeRow id key .missing s
      else if fillShut s ls then setServeRow id key .waitTag (waitFill .service v.slot (.serve id key) s)
      else match fetchTag .service (.serve id key) s with
        | none => setServeRow id key .waitTag (waitTag .service v.slot (.serve id key) s)
        | some tag => beginFill tag .service (.serve id key) 16 0 v.slot d row v.step ls (setServeRow id key (.fetching tag) s)

/-- Occurrences of an identifier that a request names, to be recorded (02 R40). -/
def Serve.occurs (v : Serve) (key : Nat) : Nat := if v.again then 0 else sumNat ((v.entries.filter fun e => e.1 == key).map fun e => e.2.2)

/-- Read what one identifier of a serve names: the directory answers a raw identifier once, recording its occurrences (02 R39, R40). A directory that cannot be read fails the request: the requester's operation ends with FAULT_FATAL (04 R112; log 7). -/
def serveRow (id key : Nat) (s : State) : State :=
  match (findServe s id).bind (fun v => (serveDesc s v).map fun d => (v, d)) with
  | none => s
  | some (v, d) =>
    if !v.raw then serveFill v d key key s
    else match mfind key v.found with
      | some r => serveFill v d key r s
      | none =>
        match dirLookup v.slot d key v.step (v.occurs key) (.serveRow id key) s with
        | (.wait, s) => setServeRow id key .waitFault s
        | (.failed, s) => serveFail id EC.inputFault s
        | (.notAdmitted, s) => setServeRow id key .notAdmitted s
        | (.row r, s) => serveFill v d key r (updServe id (fun v => { v with found := mput key r v.found }) s)

/-- Read the coarse legend of a serve (04 R112: a legend that cannot be read is an INPUT_FAULT). -/
def serveLegend (id : Nat) (s : State) : State :=
  match (findServe s id).bind (fun v => (serveDesc s v).map fun d => (v, d)) with
  | none => s
  | some (v, d) =>
    if !d.usesLegend || v.legend.isSome then s else
    match rowLinesAux { client := CLI.command, ctx := slotCtx s v.slot, va := 0, write := false, source := 0, who := .serveRow id legendKey }
        (spanLines d.legendBase d.width) d.legendBase [] s with
    | (.wait, s) => s
    | (.fatal, s) => serveFail id EC.inputFault s
    | (.ok ls, s) =>
      if ls.any hostLine then
        if hostOpen s then readRuns 16 0 (slotCtx s v.slot) (.serve id legendKey) d.legendBase ls s else serveFail id EC.inputFault s
      else match linesUE s ls with
        | some pa => serveFail id EC.inputFault (hbmUE pa s)
        | none => updServe id (fun v => { v with legend := some ((readLines s ls).take d.width) }) s

/-- Bytes of the host memory that holds a serve's legend have arrived. -/
def serveLegendGot (id : Nat) (s : State) : State :=
  match (findServe s id).bind (fun v => (serveDesc s v).map fun d => (v, d)) with
  | none => s
  | some (v, d) =>
    match rowLinesAux { client := CLI.command, ctx := slotCtx s v.slot, va := 0, write := false, source := 0, who := .serveRow id legendKey }
        (spanLines d.legendBase d.width) d.legendBase [] s with
    | (.ok ls, s) =>
      (match partOf s (.serve id legendKey) ls with
       | some b => serveDone id (dropHostReads (.serve id legendKey) (updServe id (fun v => { v with legend := some (b.take d.width) }) s))
       | none => s)
    | (.fatal, s) => serveFail id EC.inputFault s
    | (.wait, s) => s

/-- A fill for a serve has its part (08 R213, R214). The gather engine that derives its copy is that of the row's home vault (05 R145; DESIGN CHOICE, log 90). -/
def fillServe (f : Fetch) (id key : Nat) (part : Bytes) (s : State) : State :=
  match (findServe s id).bind (fun v => (serveDesc s v).map fun d => (v, d)) with
  | none => absorbTag f.tag s
  | some (v, d) =>
    if d.usesLegend && v.legend.isNone then
      -- the copy waits for the legend it is derived with
      setServeRow id key .need (retireTag f.tag s)
    else
      let (copy, fl) := deriveCopy d (v.legend.getD []) part
      let s := poolFlags (homeVault s v.slot v.table f.row) fl s
      serveDone id (setServeRow id key (.have copy) (retireTag f.tag (fillCopy f.slot d f.row (linesKey f.lines) copy f.stale s)))

/-- A fill for a serve that cannot be read (08 R234, item 1). -/
def fillServeUE (f : Fetch) (id : Nat) (s : State) : State := serveFail id EC.farUE (retireTag f.tag s)

/-- Take up a row of a serve again, after a tag, a fault or its legend has let it go on. -/
def retryServe (id key : Nat) (s : State) : State :=
  if key == legendKey then
    let s := serveLegend id s
    match findServe s id with
    | none => s
    | some v => serveDone id (each ((v.rows.filter fun x => x.2 == .need).map (·.1)) (serveRow id) s)
  else serveDone id (serveRow id key s)

/-! ### Requests -/

/-- The request a packet carries: identifiers in order, inset requests, and entries. -/
def readRows (c : Common) (raw : Bool) (b : Bytes) : List Nat × List Nat × List (Nat × Nat × Nat) :=
  let ws := (List.range c.n).map fun i => leAt b (24 + 8 * i) 8
  let ids := ws.map fun w => if raw then w else bits w 0 40
  (nub ids, if raw then [] else (ws.filter fun w => bits w 40 1 == 1).map fun w => bits w 0 40, ids.map fun i => (i, 0x3F800000, 1))

def readParts (c : Common) (raw : Bool) (b : Bytes) : List Nat × List (Nat × Nat × Nat) :=
  let es := (List.range c.n).map fun i =>
    let w0 := leAt b (24 + 16 * i) 8
    let w1 := leAt b (32 + 16 * i) 8
    (if raw then w0 else bits w0 0 40, bits w1 0 32, bits w1 32 20)
  (nub (es.map (·.1)), es)

/-- Refuse a request on arrival: logged with its port, and answered with an error. -/
def refuse (port : Nat) (p : Packet) (kind code : Nat) (s : State) : State :=
  let c := readCommon p.body
  sendError p.src p.jobId c.tag code (c.epoch % 65536) (vlog kind (portSource port) 0 0 (fld 0 12 c.table + fld 12 16 c.version) 0 s)

/-- Whether this block holds a request of a sheet that is on its way here (14 R385). -/
def migHolds (s : State) (slot : Nat) (c : Common) : Bool := migComing s slot c.table c.version c.step

/-- A serve for a request, with its first reads begun. -/
def beginServe (p : Packet) (part : Bool) (slot : Nat) (c : Common) (d : Desc) (s : State) : State :=
  let (id, s) := newId s
  let raw := d.admits && c.aux / 128 == 0
  let (order, inset, entries) := if part then let (o, e) := readParts c raw p.body; (o, ([] : List Nat), e) else readRows c raw p.body
  let v : Serve :=
    { id := id, part := part, src := p.src, jobId := p.jobId, slot := slot, table := c.table, version := c.version, step := c.step, epoch := c.epoch % 65536,
      tag := c.tag, raw := raw, again := bits c.aux 6 1 == 1 || (part && bits c.aux 3 2 != 0), held := false, legend := none, order := order, rows := order.map (fun k => (k, RowSt.need)) |>.foldl (fun m x => mput x.1 x.2 m) [],
      found := [], inset := inset, entries := entries, mode := bits c.aux 0 3, grid := signed 8 c.grid + 8 * (bits c.aux 3 2 : Int) }
  let s := serveLegend id { s with serves := s.serves ++ [v] }
  serveDone id (each order (serveRow id) s)

/-- An owner takes up a request, or holds it (04 R90; 02 R26, R43, R44; 07 R201; 14 R385). fresh says that the packet has just arrived, and is counted if it is held. -/
def serveRequest (fresh : Bool) (port : Nat) (p : Packet) (part : Bool) (s : State) : State :=
  let c := readCommon p.body
  match slotOfJob s p.jobId with
  | none => refuse port p VK.jobAbsent EC.jobAbsent s
  | some slot =>
    match (findDesc s slot c.table c.version).map (atStep s slot c.step) with
    | none => sendError p.src p.jobId c.tag EC.retired (c.epoch % 65536) s
    | some d =>
      if d.digest % 65536 != c.digest then refuse port p VK.digestMismatch EC.digest s
      else if merBegun s slot c.step then refuse port p VK.stepPassed EC.stepPassed (bump1 R.CNT_STEP_PASSED s)
      else if !prevDone s slot c.step || migHolds s slot c then
        { when fresh (bump1 R.CNT_LK_STEP_HOLD) s with serveHeld := s.serveHeld ++ [(port, p)] }
      else
        let s := if ownBinding s slot c.table c.step == some c.version then s else jobBit R.CMD_GZ_STATUS 2 slot (bump1 R.CNT_VER_SKEW s)
        beginServe p part slot c d s

/-- Take up the held requests that may now go on. -/
def releaseServes (s : State) : State :=
  each s.serveHeld (fun x s => serveRequest false x.1 x.2 (x.2.kind == K.partReq) s) { s with serveHeld := [] }

end Sys2Proof.Machine
end

