-- ==== Sys2Proof/Machine/Grad.lean ====
section
/-! DEFINITION. Gradient records: their packing, what an owner does with one, the totals and residuals, phase markers, and the in-link adders (06 R160 to R171, R173; 10 R293; 14 R378). -/

namespace Sys2Proof.Machine

/-! ### Records (06 R160, R161; 10 Table 10.7) -/

/-- Bytes of a block of k elements in a form. -/
def blockBytes (form k : Nat) : Nat := if form == 0 then 1 + k else if form == 1 then 1 + 2 * k else if form == 2 then 4 * k else 12 * k

/-- Bytes of one element in a form. -/
def formWidth (form : Nat) : Nat := if form == 0 then 1 else if form == 1 then 2 else if form == 2 then 4 else 12

def GBlock.bytes (b : GBlock) : Bytes :=
  (if b.form ≤ 1 then leBytes 1 (pattern 8 b.s) else []) ++ b.codes.flatMap fun c => leBytes (formWidth b.form) (pattern (8 * formWidth b.form) c)

/-- One block of k elements from its bytes. -/
def readBlock (form k : Nat) (b : Bytes) : GBlock :=
  let h := if form ≤ 1 then 1 else 0
  let n := formWidth form
  { form := form, s := if form ≤ 1 then signed 8 (leAt b 0 1) else 0, codes := (List.range k).map fun i => signed (8 * n) (leAt b (h + n * i) n) }

/-- Blocks of 32 elements, the last one as long as its bytes make it. -/
def readBlocks (forms : Nat) : Nat → Nat → Bytes → List GBlock
  | 0, _, _ => []
  | f + 1, i, b =>
    if b.isEmpty then [] else
    let form := bits forms (2 * i) 2
    let full := blockBytes form 32
    if full ≤ b.length then readBlock form 32 b :: readBlocks forms f (i + 1) (b.drop full)
    else [readBlock form ((b.length - (if form ≤ 1 then 1 else 0)) / formWidth form) b]

def readRec (p : Packet) : GRec :=
  let c := readCommon p.body
  { jobId := p.jobId, table := c.table, version := c.version, digest := c.digest, step := c.step, epoch := c.epoch, target := leAt p.body 24 8,
    count := c.n, combine := bits c.aux 0 1 == 1, blocks := readBlocks (leAt p.body 32 8) 32 0 (p.body.drop 40) }

/-- The body of a record. -/
def GRec.body (r : GRec) : Bytes :=
  leBytes 8 (fld 0 12 r.table + fld 12 16 r.version + fld 28 16 r.digest) ++ leBytes 8 (fld 0 48 r.step)
  ++ leBytes 8 (fld 0 32 r.epoch + fld 32 24 r.count + fld 56 1 (natOfBool r.combine)) ++ leBytes 8 r.target
  ++ leBytes 8 (r.blocks.zipIdx.foldl (fun a x => a + fld (2 * x.2) 2 x.1.form) 0) ++ r.blocks.flatMap GBlock.bytes

/-- Element values of a block, as integers on the grid 2^gg (06 Table 6.4). -/
def GBlock.vals (gg : Int) (b : GBlock) : List Int :=
  if b.form ≤ 1 then b.codes.map fun c => c * ((2 ^ (b.s - gg).toNat : Nat) : Int) else b.codes

def GRec.vals (gg : Int) (r : GRec) : List Int := r.blocks.flatMap (GBlock.vals gg)

/-- Whether every exponent lies from gg to gg + 24 (06 R161). -/
def GRec.inRange (gg : Int) (r : GRec) : Bool := r.blocks.all fun b => 2 ≤ b.form || (decide (gg ≤ b.s) && decide (b.s ≤ gg + 24))

/-- Sheet epoch of a job slot (14 R378). -/
def sheetEpoch (s : State) (slot : Nat) : Nat := fget s (R.MG_Jj_EPOCH slot) F.MG_Jj_EPOCH_SHEET_EPOCH

/-! ### Residuals (06 R162 to R164) -/

/-- The sizes in force of the stores of a slot: those its journal line records, where it has stores (09 R246; 15 Table 15.1). -/
def storeCfg (s : State) (slot : Nat) : Word := if (mfind slot s.stores).isSome then word (journalOf s slot).storeCfg else rget s (R.CMD_GS_Jj_CFG slot)

/-- Order of the entries of one target: by step, a flush after the scatters. -/
def Resid.age (r : Resid) : Nat := 2 * r.step + natOfBool r.flush

def residLines (w : Nat) : Nat := 1 + ceilDiv w 16

def Resid.is (r : Resid) (table version target : Nat) : Bool := r.table == table && r.version == version && r.target == target

/-- The residual a read finds: the newest pending one, else the committed one; none where it is consumed. -/
def residRead (j : Job) (table version target : Nat) : Option Resid :=
  let l := j.resid.filter fun r => r.is table version target
  let r : Option Resid := match sortBy Resid.age (l.filter fun (r : Resid) => r.pending) with
    | [] => l.find? fun (r : Resid) => !r.pending
    | x :: xs => some ((x :: xs).getLast?.getD x)
  r.bind fun r => if r.vals.all (· == 0) then none else some r

/-- Lines in use of a residual store: a pending entry takes twice its lines, one that stands for a consumed residual too (DESIGN CHOICE, log 81). -/
def residUsed (j : Job) : Nat :=
  sumNat (j.resid.map fun r =>
    if r.pending && j.resid.any (fun x => x.flush && !r.flush && x.pending && x.step == r.step && x.is r.table r.version r.target) then 0
    else if r.pending then 2 * residLines r.vals.length
    else if j.resid.any (fun x => x.pending && x.is r.table r.version r.target) then 0 else residLines r.vals.length)

def residRoom (s : State) (slot : Nat) (used : Nat) : Bool :=
  let l := wfield (storeCfg s slot) F.CMD_GS_Jj_CFG_RES_LOG2
  l != 0 && decide (used ≤ 2 ^ l)

/-- Put a residual in the pending layer for a step. -/
def residPut (slot table version target step : Nat) (flush : Bool) (vals : List Int) (s : State) : State :=
  updJob slot (fun j => { j with resid := (j.resid.filter fun r => !(r.pending && r.step == step && r.flush == flush && r.is table version target))
    ++ [{ table := table, version := version, target := target, step := step, pending := true, flush := flush, vals := vals }] }) s

/-- Consume a residual in a step: nothing is left of it in the pending layer. -/
def residTake (slot table version target step w : Nat) (flush : Bool) (s : State) : State :=
  if (residRead (job s slot) table version target).isNone then s else residPut slot table version target step flush (List.replicate w 0) s

/-- Pending entries of steps up to s become committed (06 R164). -/
def residCommit (slot st : Nat) (s : State) : State :=
  updJob slot (fun j =>
    let ripe := j.resid.filter fun r => r.pending && decide (r.step ≤ st)
    let newest := ripe.filter fun r => !ripe.any fun x => x.is r.table r.version r.target && decide (r.age < x.age)
    let rest := j.resid.filter fun r => if r.pending then decide (st < r.step) else !ripe.any fun x => x.is r.table r.version r.target
    { j with resid := rest ++ (newest.filter fun r => !r.vals.all (· == 0)).map fun r => { r with pending := false, flush := false } }) s

/-! ### Totals (06 R165, R168) -/

def satLimit : Int := 2 ^ 127

/-- A 128-bit total, saturated (06 R165). -/
def satTotal (v : Int) : Int := max (-satLimit) (min (satLimit - 1) v)

def Total.is (t : Total) (table version row step : Nat) : Bool := t.table == table && t.version == version && t.row == row && t.step == step

/-- Lines in use of a coalescing store: a row that has records of two open steps has a total, and lines, for each (DESIGN CHOICE, log 81). -/
def coalUsed (j : Job) : Nat := sumNat (j.totals.map fun t => 1 + ceilDiv t.vals.length 4)

/-- Whether a row has, or can be given, a place in the coalescing store. -/
def coalRoom (s : State) (slot : Nat) (d : Desc) (row step : Nat) : Bool :=
  (job s slot).totals.any (fun t => t.is d.tableId d.version row step)
  || decide (coalUsed (job s slot) + 1 + ceilDiv d.width 4 ≤ 2 ^ wfield (storeCfg s slot) F.CMD_GS_Jj_CFG_COAL_LOG2)

/-- A condition that the job's MERIDIAN closing a step will carry. -/
def merCond (slot st code : Nat) (s : State) : State :=
  updJob slot (fun j => { j with conds := mput st (maskSet (mgetD st 0 j.conds) code) j.conds }) s

/-- A total of a step leaves the 128-bit range (06 R165). The flag is that of the unit whose controller serves the first line of the total's entry in the coalescing store (17 Table 17.5): where an entry lies there is the block's own affair, so the unit is a free value (log 2). -/
def totalOver (slot step : Nat) (s : State) : State :=
  let (k, s) := freeNat s
  unitFlags (k % 8) { ovf := true } (jobBit R.CMD_GS_STATUS 3 slot (merCond slot step SC.saturated s))

/-- Add element values into a row's total (06 R165). -/
def addTotal (slot : Nat) (d : Desc) (row step count : Nat) (vals : List Int) (s : State) : State :=
  let old := ((job s slot).totals.find? fun t => t.is d.tableId d.version row step).getD { table := d.tableId, version := d.version, row := row, step := step, count := 0, vals := List.replicate d.width 0 }
  let raw := (old.vals.zip (vals ++ List.replicate d.width 0)).map fun x => x.1 + x.2
  let new := raw.map satTotal
  let s := when (new != raw) (totalOver slot step) s
  updJob slot (fun j => { j with totals := (j.totals.filter fun t => !t.is d.tableId d.version row step) ++ [{ old with count := old.count + count, vals := new }] }) s

/-! ### Sending records (06 R159, R165, R177) -/

def addCount (k n : Nat) (l : List (Nat × Nat)) : List (Nat × Nat) := mput k (mgetD k 0 l + n) l

/-- Lines that a held record takes in staging. -/
def recLines (r : GRec) : Nat := ceilDiv r.body.length 64

/-- Staging in use by records of open steps (06 R177). -/
def stagedLines (j : Job) : Nat := sumNat (j.sentRecs.map fun x => recLines x.r)

/-! ### At the owner -/

/-- Count a record's COUNT as received: an original, or one forwarded under R166. -/
def countRec (slot : Nat) (fwd : Bool) (r : GRec) (s : State) : State :=
  updJob slot (fun j => if fwd then { j with fwdRecv := addCount r.step r.count j.fwdRecv } else { j with recv := addCount r.step r.count j.recv })
    (bump R.CNT_GS_REC_RECV r.count s)

/-- A record that is refused (06 R161; 10 R293): its COUNT is received and missing, as an original or, where fwd says so, as one forwarded under R166. -/
def refuseRec (port slot : Nat) (fwd : Bool) (r : GRec) (s : State) : State :=
  let s := vlog VK.gradRefused (portSource port) 0 0 (fld 0 12 r.table + fld 12 16 r.version) r.target s
  merCond slot r.step SC.violation (bump R.CNT_GS_MISSING r.count (countRec slot fwd r s))

/-- A record whose job is not enabled here (10 R293). -/
def absentRec (port : Nat) (r : GRec) (s : State) : State :=
  bump R.CNT_GS_REC_RECV r.count (bump R.CNT_GS_MISSING r.count (vlog VK.jobAbsent (portSource port) 0 0 (fld 0 12 r.table + fld 12 16 r.version) r.target s))

/-- A record of another sheet epoch, or of a step whose meridian has begun (14 R378). -/
def staleRec (slot : Nat) (r : GRec) (s : State) : State :=
  let s := bump R.CNT_GS_REC_RECV r.count (bump R.CNT_GS_STALE r.count s)
  if (job s slot).closedAny && decide (r.step ≤ closedStep s slot) then s else merCond slot r.step SC.epochStale s

/-- Hold a record: for room in the coalescing store, where it keeps its flits at the link (06 R165; 10 R277), or for its admission state. -/
def keepRec (port slot : Nat) (p : Packet) (room : Bool) (s : State) : State := updJob slot (fun j => { j with held := j.held ++ [(port, p, room)] }) s

/-- A record for a row of this block's sheet: into its total, or held for want of room, which is counted once (06 R165). -/
def recordRow (fresh : Bool) (port slot : Nat) (d : Desc) (p : Packet) (fwd : Bool) (row : Nat) (r : GRec) (s : State) : State :=
  if coalRoom s slot d row r.step then addTotal slot d row r.step r.count (r.vals d.gradGrid) (countRec slot fwd r s)
  else jobBit R.CMD_GS_STATUS 1 slot (keepRec port slot p true (when fresh (bump1 R.CNT_GS_COAL_HOLD) s))

/-- Forward a record to the owner of DEFAULT_ROW (06 R166). -/
def forwardRec (slot : Nat) (d : Desc) (r : GRec) (s : State) : State :=
  let to_ := d.owner d.defaultRow
  let s := bump R.CNT_GS_REDIRECT r.count (countRec slot false r s)
  let s := updJob slot (fun j => { j with fwdTo := addCount (to_ + 64 * r.step) r.count j.fwdTo, sentRecs := j.sentRecs ++ [{ dest := to_, kind := 2, r := r }] }) s
  sendPacket to_ CL.grad K.gradRec r.jobId r.body s

/-- Whether the admission state that the lookups of a record's step see is in force: every meridian of a lower step is complete. A MERIDIAN of the record's step or a higher one that has stood aside is the next to change it (06 R166, R173; 04 R90). -/
def admStateOf (s : State) (slot st : Nat) : Bool := prevDone s slot st || (match (job s slot).mer with
  | some m => decide (st ≤ m.step)
  | none => false)

/-- A record of an admitting table, resolved under the admission state of its step (06 R166; 02 R40). A directory that cannot be read leaves the record without a row (06 R167; DESIGN CHOICE, log 7). -/
def recordIdentifier (fresh : Bool) (port slot : Nat) (d : Desc) (p : Packet) (r : GRec) (s : State) : State :=
  if admOwner d r.target != self s then recordRow fresh port slot d p true d.defaultRow r s
  else if !admStateOf s slot r.step then keepRec port slot p false s
  else
    match dirLookup slot d r.target r.step 0 (.update slot (2 ^ 110)) s with
    | (.wait, s) => keepRec port slot p false s
    | (.row row, s) => recordRow fresh port slot d p false row r s
    | (.notAdmitted, s) =>
      if !d.defaultValid then bump R.CNT_ADM_GRAD_DISCARD r.count (countRec slot false r s)
      else if d.owner d.defaultRow == self s then recordRow fresh port slot d p false d.defaultRow r s
      else forwardRec slot d r s
    | (_, s) => merCond slot r.step SC.partialMissing (bump R.CNT_GS_MISSING r.count (countRec slot false r s))

/-- A gradient record at its destination (06 R161, R165, R166; 10 R293; 14 R378). fresh says that it has not been held for room before. -/
def gradArrive (fresh : Bool) (port : Nat) (p : Packet) (s : State) : State :=
  let r := readRec p
  match slotOfJob s p.jobId with
  | none => absentRec port r s
  | some slot =>
    if r.epoch != sheetEpoch s slot || merBegun s slot r.step then staleRec slot r s else
    match (findDesc s slot r.table r.version).map (atStep s slot r.step) with
    | none => refuseRec port slot false r s
    | some d =>
      if d.digest % 65536 != r.digest || !r.inRange d.gradGrid then refuseRec port slot (d.admits && admOwner d r.target != self s) r s
      else if d.admits then recordIdentifier fresh port slot d p r s
      else recordRow fresh port slot d p false r.target r s

/-- Take up the records that wait, in order. -/
def releaseRecs (slot : Nat) (s : State) : State :=
  let l := (job s slot).held
  each l (fun x s => gradArrive (!x.2.2) x.1 x.2.1 s) (updJob slot (fun j => { j with held := [] }) s)

/-- Send a record that this block made: counted for its owner's marker, held in staging (06 R165, R172, R176, R177). -/
def sendRec (slot dest kind : Nat) (r : GRec) (s : State) : State :=
  let s := bump1 R.CNT_GS_REC_SENT s
  let s := updJob slot (fun j => { j with sentTo := addCount (dest + 64 * r.step) r.count j.sentTo, sentRecs := j.sentRecs ++ [{ dest := dest, kind := kind, r := r }] }) s
  if dest == self s then gradArrive true 0 (mkPacket s dest CL.grad K.gradRec r.jobId r.body) s
  else sendPacket dest CL.grad K.gradRec r.jobId r.body s

/-- Owner of a target of a version. -/
def targetOwner (d : Desc) (target : Nat) : Nat := if d.admits then admOwner d target else d.owner target

/-- A record of this block for a target, with its blocks. -/
def newRec (s : State) (slot : Nat) (d : Desc) (target step : Nat) (blocks : List GBlock) : GRec :=
  { jobId := slotJobId s slot, table := d.tableId, version := d.version, digest := d.digest % 65536, step := step, epoch := sheetEpoch s slot,
    target := target, count := 1, combine := fbit s (R.CMD_GS_Jj_CFG slot) F.CMD_GS_Jj_CFG_ADD_EN, blocks := blocks }

/-- Integers cut into blocks of 32. -/
def blocks32 : Nat → List Int → List (List Int)
  | 0, _ => []
  | f + 1, l => if l.isEmpty then [] else l.take 32 :: blocks32 f (l.drop 32)

/-- Send a residual as a correction, every block in G32 (06 R163). -/
def sendCorrection (slot kind : Nat) (d : Desc) (target step : Nat) (vals : List Int) (s : State) : State :=
  let bs := (blocks32 (vals.length + 1) vals).map fun l => ({ form := 2, s := 0, codes := l } : GBlock)
  sendRec slot (targetOwner d target) kind (newRec s slot d target step bs) (bump1 R.CNT_GS_CORR s)

/-- Whether a residual is due at a MERIDIAN of step st (06 R163; 02 R47). -/
def residDue (s : State) (slot st : Nat) (r : Resid) : Bool :=
  match findDesc s slot r.table r.version with
  | some d => decide (r.step + d.horizon ≤ st) || (d.state == 3 && decide (d.lastStep ≤ st))
  | none => false

/-- The flush of a MERIDIAN of step st: each due residual goes out and is consumed. -/
def flushResiduals (slot st : Nat) (s : State) : State :=
  let names := nub ((job s slot).resid.map fun r => (r.table, r.version, r.target))
  each names (fun x s =>
    match residRead (job s slot) x.1 x.2.1 x.2.2, findDesc s slot x.1 x.2.1 with
    | some r, some d =>
      if residDue s slot st r then
        sendCorrection slot 1 (atStep s slot st d) r.target st r.vals (residTake slot r.table r.version r.target st r.vals.length true s)
      else s
    | _, _ => s) s

/-! ### Phase markers (06 R172, R173) -/

/-- Send a marker of a kind to one block of the job; this block presents its own to itself. -/
def sendMarker (slot kind st dest count : Nat) (s : State) : State :=
  let s := updJob slot (fun j => { j with sentMarks := j.sentMarks ++ [(kind, dest, st, count)] }) s
  if dest == self s then
    let m : Marker := { src := dest, step := st, count := count }
    updJob slot (fun j => if kind == K.mark1 then { j with mark1 := j.mark1 ++ [m] } else { j with mark2 := j.mark2 ++ [m] }) s
  else
    sendPacket dest CL.grad kind (slotJobId s slot) (leBytes 8 (fld 0 48 st + fld 48 16 (sheetEpoch s slot)) ++ leBytes 8 count) s

/-- COUNT sent to a block in steps up to st, of counts kept by block + 64 · step. -/
def countTo (l : List (Nat × Nat)) (b st : Nat) : Nat := sumNat ((l.filter fun x => x.1 % 64 == b && decide (x.1 / 64 ≤ st)).map (·.2))

/-- Counts of the steps above st. -/
def countAbove (l : List (Nat × Nat)) (st : Nat) : List (Nat × Nat) := l.filter fun x => decide (st < x.1 / 64)

/-- Send the phase-1 markers of a MERIDIAN, each with the COUNT sent to its block since the last (06 R172). -/
def sendMark1 (slot st : Nat) (s : State) : State :=
  let l := (job s slot).sentTo
  each (self s :: jobOthers s) (fun b s => sendMarker slot K.mark1 st b (countTo l b st) s) (updJob slot (fun j => { j with sentTo := countAbove l st }) s)

/-- Send the phase-2 markers, each with the COUNT forwarded to its block in the step (06 R173, item 2). -/
def sendMark2 (slot st : Nat) (s : State) : State :=
  let l := (job s slot).fwdTo
  each (self s :: jobOthers s) (fun b s => sendMarker slot K.mark2 st b (countTo l b st) s) (updJob slot (fun j => { j with fwdTo := countAbove l st }) s)

/-- A marker at its destination (14 R378). -/
def markArrive (port : Nat) (p : Packet) (s : State) : State :=
  match slotOfJob s p.jobId with
  | none => bump1 R.CNT_LNK_DISCARD (vlog VK.jobAbsent (portSource port) 0 0 0 0 s)
  | some slot =>
    let w := leAt p.body 0 8
    let m : Marker := { src := p.src, step := bits w 0 48, count := leAt p.body 8 8 }
    if bits w 48 16 != sheetEpoch s slot % 65536 || merBegun s slot m.step then s
    else updJob slot (fun j => if p.kind == K.mark1 then { j with mark1 := j.mark1 ++ [m] } else { j with mark2 := j.mark2 ++ [m] }) s

/-- The markers of a block up to and including the first that reaches a step; none where none reaches it. -/
def marksTo (st : Nat) : List Marker → Option (List Marker)
  | [] => none
  | m :: r => if st ≤ m.step then some [m] else (marksTo st r).map (m :: ·)

/-- The markers of every block of the job that a phase of step st takes. -/
def phaseMarks (s : State) (l : List Marker) (st : Nat) : Option (List Marker) :=
  (jobBlocks s).foldl (fun a b => match a, marksTo st (l.filter fun m => m.src == b) with
    | some x, some y => some (x ++ y)
    | _, _ => none) (some [])

/-- COUNTs received of records of steps up to st. -/
def recvUpTo (l : List (Nat × Nat)) (st : Nat) : Nat := sumNat ((l.filter fun x => decide (x.1 ≤ st)).map (·.2))

/-- Whether a phase of step st ends: a marker of every block, and every declared COUNT received (06 R173). -/
def phaseDone (s : State) (l : List Marker) (got : List (Nat × Nat)) (st : Nat) : Bool :=
  match phaseMarks s l st with
  | none => false
  | some ms => decide (sumNat (ms.map (·.count)) ≤ recvUpTo got (maxNat st (ms.map (·.step))))

/-- Take n from counts, lowest step first. -/
def takeCounts : Nat → List (Nat × Nat) → List (Nat × Nat)
  | _, [] => []
  | n, (k, v) :: r => if v ≤ n then takeCounts (n - v) r else (k, v - n) :: r

/-- The markers that remain when a phase of step st has taken its own: one that closes later steps stays, its COUNT taken. -/
def marksLeft (ms : List Marker) (st : Nat) (l : List Marker) : List Marker :=
  (l.filter fun m => !ms.contains m) ++ (ms.filter fun m => decide (st < m.step)).map fun m => { m with count := 0 }

/-! ### In-link adders (06 R169 to R171) -/

/-- Whether integers fit the 8-bit or 16-bit codes of a form at an exponent above gg by f. -/
def exactCodes (n : Nat) (f : Nat) (vals : List Int) : Option (List Int) :=
  if vals.all (fun v => v % ((2 ^ f : Nat) : Int) == 0 && fitsBits n (v / ((2 ^ f : Nat) : Int))) then some (vals.map fun v => v / ((2 ^ f : Nat) : Int)) else none

/-- Merge two blocks exactly, or not at all (06 R169). -/
def mergeBlocks (gg : Int) (a b : GBlock) : Option GBlock :=
  let exp := fun (x : GBlock) => if x.form ≤ 1 then x.s else gg
  let e := min (exp a) (exp b)
  let base := min e gg
  let on := fun (x : GBlock) => x.codes.map fun c => c * ((2 ^ (exp x - base).toNat : Nat) : Int)
  let vals := ((on a).zip (on b)).map fun x => x.1 + x.2
  let at_ := fun (n : Nat) (k : Int) => exactCodes n (k - base).toNat vals
  match at_ 8 e, at_ 16 e, at_ 32 gg, at_ 96 gg with
  | some c, _, _, _ => some { form := 0, s := e, codes := c }
  | _, some c, _, _ => some { form := 1, s := e, codes := c }
  | _, _, some c, _ => some { form := 2, s := 0, codes := c }
  | _, _, _, some c => some { form := 3, s := 0, codes := c }
  | _, _, _, _ => none

def mergeAll (gg : Int) : List GBlock → List GBlock → Option (List GBlock)
  | [], [] => some []
  | a :: r, b :: t => match mergeBlocks gg a b, mergeAll gg r t with
    | some x, some y => some (x :: y)
    | _, _ => none
  | _, _ => none

/-- The grid of a record's table, where this block holds its version under the record's digest; an adder merges no other record (DESIGN CHOICE, log 13). -/
def recGrid (s : State) (r : GRec) : Option Int :=
  (slotOfJob s r.jobId).bind fun slot => (findDesc s slot r.table r.version).bind fun d => if d.digest % 65536 == r.digest then some d.gradGrid else none

/-- Merge two records as R169 states. -/
def mergeRecs (gg : Int) (a b : GRec) : Option GRec :=
  if !a.combine || !b.combine || a.jobId != b.jobId || a.table != b.table || a.version != b.version || a.digest != b.digest
    || a.step != b.step || a.epoch != b.epoch || a.target != b.target || decide (2 ^ 24 ≤ a.count + b.count) then none
  else match mergeAll gg a.blocks b.blocks with
    | none => none
    | some bs =>
      let r := { a with count := a.count + b.count, blocks := bs }
      if r.body.length ≤ a.body.length + b.body.length then some r else none

/-- The packet of a record that an adder has formed. -/
def recPacket (p : Packet) (r : GRec) : Packet := { p with body := r.body, bodyBytes := r.body.length, lenM1 := flitsOf r.body.length - 1 }

/-- Whether an adder of this block takes part in a packet's record: one that waits in a receiver's GRAD adaptive buffer, which holds no ESCAPED packet (10 R277, R283). -/
def adderTakes (s : State) (p : Packet) (r : GRec) : Bool := fbit s R.CMD_GS_ADDCFG F.CMD_GS_ADDCFG_ENABLE && p.kind == K.gradRec && !p.escaped && r.combine

/-- Job identifiers an adder serves now (06 R170). -/
def adderJobs (s : State) (port : Nat) : List Nat := nub ((s.holds.filter fun h => h.port == port).map fun h => h.r.jobId)

/-- Hold a record that has no credit, or let it go on (06 R170). -/
def holdRec (port : Nat) (p : Packet) (r : GRec) (s : State) : State :=
  match tryRoute (some port) p s with
  | some s => s
  | none => { s with holds := s.holds ++ [{ port := port, dest := p.dest, p := p, r := r }] }

/-- The record of a receive buffer that a merge has grown stands in place of the first, and the flits of the second are free (10 R277). -/
def mergedKept (port : Nat) (p q : Packet) (s : State) : State := { s with kept := updWhere (fun a => a.port == port && a.p == p) (fun a => { a with p := q }) s.kept }

/-- A record that passes through the adder of a port (06 R169, R170). -/
def adderPass (port : Nat) (p : Packet) (r : GRec) (s : State) : State :=
  if 16 ≤ (adderJobs s port).length && !(adderJobs s port).contains r.jobId then routePacket (some port) p (bump1 R.CNT_GS_ADD_PASS s) else
  let partner := (recGrid s r).bind fun gg =>
    (s.holds.find? fun h => h.port == port && h.dest == p.dest && (mergeRecs gg h.r r).isSome).bind fun h => (mergeRecs gg h.r r).map fun m => (h, m)
  match partner with
  | some (h, m) => holdRec port (recPacket h.p m) m (mergedKept port h.p (recPacket h.p m) (bump1 R.CNT_GS_ADD_MERGE { s with holds := s.holds.filter fun x => x != h }))
  | none => holdRec port p r s

/-- Forward a packet that is not for this block (10 R277, R283; 06 R169): without a route it is logged, and a request is refused, any other packet held (10 Table 10.10). -/
def forwardPacket (port : Nat) (p : Packet) (s : State) : State :=
  let lostRoute := !reachable s p.dest
  let s := when lostRoute (vlog VK.noRoute (portSource port) 0 0 p.dest 0) s
  if lostRoute && p.cls == CL.req then sendError p.src p.jobId (requestTag p) EC.noRoute (requestEcho p) s
  else
    let r := readRec p
    if adderTakes s p r then adderPass port p r s else routePacket (some port) p s

/-- Let go the held records that have credit now. -/
def pumpHolds (s : State) : State :=
  each s.holds (fun h s => match tryRoute (some h.port) h.p s with
    | some s => s
    | none => { s with holds := s.holds ++ [h] }) { s with holds := [] }

/-! ### Commands -/

/-- ADD_HOLD_EXPIRE: the oldest record an adder holds is forwarded (06 R170). -/
def execAddHoldExpire (port : Nat) (s : State) : Host.Outcome State Fault Refusal :=
  act s fun s => match s.holds.find? fun h => h.port == port with
    | some h => routePacket (some port) h.p { s with holds := s.holds.erase h }
    | none => s

end Sys2Proof.Machine
end

