-- ==== Sys2Proof/Machine/Scatter.lean ====
section
/-! DEFINITION. The scatter: contributions of bags, gradients of weights and projections, coalescing and quantising at the sender (06 R148 to R158, R162, R164, R177). -/

namespace Sys2Proof.Machine

/-! ### Output gradients (06 R151) -/

def dyBytes (o : Op) : Nat := if o.dyFmt == 0 then 4 else 2

/-- Bytes of the gradient row of a bag of a table. -/
def dyRow (s : State) (o : Op) (table : Nat) : Nat :=
  match o.spec table, opDesc s o table with
  | some sp, some da => roundUp (outWidth sp da.width (((opDesc s o sp.compB).map Desc.width).getD 0) * dyBytes o) 64
  | _, _ => 0

/-- Offset of the gradient row of bag k in the image. -/
def dyOffset (s : State) (o : Op) (bags : List Bag) (k : Nat) : Nat := sumNat ((bags.take k).map fun b => dyRow s o b.table)

/-- Where the image begins in the data stream. -/
def dyStart (o : Op) : Nat := if o.bagSrc then 0 else roundUp o.bagBytes 64

/-- The gradient row of bag k, where it is at hand. -/
def dyOf (s : State) (o : Op) (bags : List Bag) (k : Nat) : Option Bytes :=
  (bags[k]?).bind fun b =>
    let off := dyOffset s o bags k
    let n := dyRow s o b.table
    if o.dySrc then o.mem (o.dyBase + off) n
    else
      let x := (o.dataStream).1
      if dyStart o + off + n ≤ x.length then some (slice x (dyStart o + off) n) else none

/-- The gradients of a row of D columns. -/
def dyVals (o : Op) (b : Bytes) (n : Nat) : List Val :=
  (List.range n).map fun j => if o.dyFmt == 0 then fp32.dec (leAt b (4 * j) 4) else bf16.dec (leAt b (2 * j) 2)

/-- The first bag whose gradients a stream that has ended does not hold (06 R151). -/
def dyShort (s : State) (o : Op) (bags : List Bag) : Option Nat :=
  if o.dySrc || !(o.dataStream).2 then none
  else findIdx (fun k => (dyOf s o bags k).isNone) (List.range bags.length)

/-! ### Contributions (06 R153 to R155) -/

def contribLimit : Int := 2 ^ 79 - 1

/-- One contribution v / d on the grid: its integer, its flags, whether it was clamped, and whether it was not finite. -/
def contribInt (gg : Int) (v : Val) (d : Nat) : Int × Flags × Bool × Bool :=
  match v with
  | .num m e =>
    let (q, ex) := rneScaled m d (e - gg)
    let c := max (-contribLimit) (min contribLimit q)
    (c, { inx := !ex, unf := q == 0 && m != 0, ovf := c != q }, c != q, false)
  | .negZero => (0, {}, false, false)
  | .inf neg => (if neg then -contribLimit else contribLimit, { ovf := true, inv := true }, true, true)
  | _ => (0, { ovf := true, inv := true }, true, true)

/-- What a set of contributions to one element comes to. -/
structure Sum1 where
  sum : Int := 0
  flags : Flags := {}
  clamped : Bool := false
  wild : Nat := 0
deriving DecidableEq, Repr

def sumContribs (gg : Int) (l : List (Val × Nat)) : Sum1 :=
  l.foldl (fun y x => let (q, f, c, w) := contribInt gg x.1 x.2
    { sum := y.sum + q, flags := y.flags.or f, clamped := y.clamped || c, wild := y.wild + natOfBool w }) {}

/-- Equality of exact values, +0 and −0 being equal. -/
def Val.same (a b : Val) : Bool := (a.isZero && b.isZero) || (!a.lt b && !b.lt a)

/-- What a bag has of a row: its values, +0 for an identifier that is not admitted and has no default, or +0 because it is missing (06 R157; 02 R39). -/
inductive GRow where
  | vals (l : List Val)
  | zero (n : Nat)
  | missing (n : Nat)
deriving DecidableEq, Repr

def GRow.list : GRow → List Val
  | .vals l => l
  | .zero n => zeroRow n
  | .missing n => zeroRow n

def GRow.isMissing : GRow → Bool
  | .missing _ => true
  | _ => false

/-- Whether a row enters the pool as +0 whatever its weight and its partner (05 R126). -/
def GRow.isZero : GRow → Bool
  | .vals _ => false
  | _ => true

/-- A row of a bag. -/
def gsVals (s : State) (o : Op) (ts : List Tile) (key : Nat) : GRow :=
  match opDesc s o (keyTable key) with
  | none => .missing 0
  | some d =>
    let st := fun k => ((ts.filterMap fun t => mfind k t.rows).head?).getD .missing
    match st key with
    | .have c => .vals (rowVals d (o.legend d) c)
    | .notAdmitted =>
      if d.defaultValid then (match st (defaultKey d) with
        | .have c => .vals (rowVals d (o.legend d) c)
        | _ => .missing d.width)
      else .zero d.width
    | _ => .missing d.width

/-- An entry of a bag with what it needs: identifier, weight, keys, and its rows. -/
structure GEnt where
  id : Nat
  w : Val
  keys : List Nat
  rows : List GRow
deriving DecidableEq, Repr

def GEnt.vals (e : GEnt) : List (List Val) := e.rows.map GRow.list

/-- Whether a row of an entry is missing. -/
def GEnt.miss (e : GEnt) : Bool := e.rows.any GRow.isMissing

/-- Terms of an entry whose components form them together, one of which enters as +0 (06 R157). -/
def zeroTerms (sp : Spec) (ts : List (List Val)) : List (List Val) := ts.map fun _ => List.replicate (termsPer sp) .zero

/-- The terms of each pooled column of an entry, before its weight. -/
def GEnt.terms (sp : Spec) (e : GEnt) : List (List Val) :=
  match e.rows with
  | [a] => a.list.map fun x => [x]
  | [a, b] =>
    let ts := composeTerms sp a.list b.list
    if decide (2 ≤ sp.comp) && (a.isZero || b.isZero) then zeroTerms sp ts else ts
  | _ => []

/-- The terms of each pooled column of an entry as the pool adds them: a row that enters as +0 carries no weight. -/
def GEnt.weighed (sp : Spec) (e : GEnt) : List (List Val) :=
  let w := fun (r : GRow) => if r.isZero || sp.mode != 4 then r.list else r.list.map e.w.mul
  match e.rows with
  | [a] => (w a).map fun x => [x]
  | [a, b] =>
    if sp.comp == 1 then composeTerms sp (w a) (w b)
    else if a.isZero || b.isZero then e.terms sp else weighTerms sp e.w (e.terms sp)
  | _ => []

/-- The terms of an entry that its weight gradient takes: none of a missing row (06 R156). -/
def GEnt.gradTerms (sp : Spec) (e : GEnt) : List (List Val) :=
  match e.rows with
  | [a, b] =>
    if sp.comp == 1 && (a.isMissing != b.isMissing) then (if a.isMissing then b else a).list.map fun x => [x]
    else if e.miss then [] else e.terms sp
  | _ => if e.miss then [] else e.terms sp

/-- The winner of a MAX or MIN column: none where the result is NaN (06 R154). -/
def winner (sp : Spec) (es : List GEnt) (c : Nat) : Option Nat :=
  let ts := es.map fun e => (e.terms sp).getD c []
  match ts.flatten with
  | [] => none
  | x :: r =>
    let best := r.foldl (pickTerm (sp.mode == 2)) x
    if best.isNaN then none
    else
      let hits := ((es.zip ts).zipIdx.filter fun y => y.1.2.any fun t => t.same best).map fun y => (y.1.1.id, y.2)
      (sortBy (fun (y : Nat × Nat) => y.1) hits).head?.map (·.2)

/-- The contribution of each pooled column for entry i: value and divisor, or none. -/
def modeContrib (sp : Spec) (n : Nat) (wins : List (Option Nat)) (dv : List Val) (i : Nat) (w : Val) : List (Option (Val × Nat)) :=
  dv.zipIdx.map fun x =>
    if sp.mode == 0 then some (x.1, 1)
    else if sp.mode == 1 then some (x.1, n)
    else if sp.mode == 4 then some (w.mul x.1, 1)
    else if wins.getD x.2 none == some i then some (x.1, 1) else none

def optList {α : Type} : Option α → List α
  | some x => [x]
  | none => []

/-- What the rows of an entry receive: key, and the contributions to each element (06 Table 6.2). -/
def entryContribs (sp : Spec) (e : GEnt) (ds : List (Option (Val × Nat))) : List (Nat × List (List (Val × Nat))) :=
  let ka := e.keys.getD 0 0
  let kb := e.keys.getD 1 0
  let va := e.vals.getD 0 []
  let vb := e.vals.getD 1 []
  let by_ := fun (x : Val) (d : Option (Val × Nat)) => (optList d).map fun y => (y.1.mul x, y.2)
  if sp.comp == 0 then [(ka, ds.map optList)]
  else if sp.comp == 1 then [(ka, ds.map optList), (kb, ds.map optList)]
  else if sp.comp == 2 then [(ka, (ds.zip vb).map fun x => by_ x.2 x.1), (kb, (ds.zip va).map fun x => by_ x.2 x.1)]
  else
    let q := sp.matQ
    let p := va.length / q
    let t := vb.length / q
    let d := fun i k => ds.getD (i * t + k) none
    [(ka, (List.range va.length).map fun x => (List.range t).flatMap fun k => by_ (vb.getD (x % q * t + k) .zero) (d (x / q) k)),
     (kb, (List.range vb.length).map fun x => (List.range p).flatMap fun i => by_ (va.getD (i * q + x / t) .zero) (d i (x % t)))]

/-- Exact sum in which a NaN operand stays a NaN, and a NaN made from other operands is a zeroInf (05 R126). -/
def sumTerm (a b : Val) : Val :=
  if a == .nan || b == .nan then .nan
  else if a == .zeroInf || b == .zeroInf || (a.add b).isNaN then .zeroInf
  else a.add b

/-- Exact sum of products (06 R154, R156). -/
def dotSum (l : List (Val × Val)) : Val := (l.map fun x => x.1.mul x.2).foldl sumTerm .zero

/-- The flags of rounding an exact sum once to FP32 (05 R139, R140, R145). -/
def rneFlags (v : Val) : Flags :=
  match v with
  | .num m e =>
    if m == 0 then {} else
    let (m', q, ex, tiny) := fp32.round m 1 e
    if fp32.tooBig m' q then { ovf := true, inx := true } else { inx := !ex, unf := tiny && !ex }
  | .zeroInf => { inv := true }
  | _ => {}

/-- The first stage of a projection as the forward pool delivered it, with SAT taken as 0 and any integer format disregarded (06 R152, R154), and the flags of the pool engine and of the fold array. -/
def poolP (sp : Spec) (es : List GEnt) (v n : Nat) : List Val × Flags × Flags :=
  let sp' := { sp with outFmt := 1, satInf := false }
  let pass := fun r => (es.foldl (fun (y : List ColAcc × Flags) e =>
    let (a, f) := addTerms sp (sp.grid + 8 * (r : Int)) y.1 (e.terms sp) (e.weighed sp)
    (a, y.2.or f)) (List.replicate v {}, {}))
  let r := ((List.range 4).find? fun r => !mustReplay sp' r (pass r).1).getD 3
  let (a, f) := pass r
  let cs := a.map fun a => (a.deliver sp.mode 1 false (sp.grid + 8 * (r : Int)) sp.grid n).conv
  (cs.map fun c => bf16.dec c.code, (cs.map (·.flags)).foldl Flags.or (f.or { ovf := decide (0 < r) }), foldInv a)

/-! ### Scattering one bag -/

def addInts (a b : List Int) : List Int := (List.range (max a.length b.length)).map fun i => a.getD i 0 + b.getD i 0

def gradGridOf (s : State) (o : Op) (key : Nat) : Int := ((opDesc s o (keyTable key)).map Desc.gradGrid).getD 0

/-- Scatter one bag whose rows and gradients are at hand, on the core of its tile (06 R153 to R157). -/
def scatterBag (q seq phys k : Nat) (bag : Bag) (ts : List Tile) (dy : Bytes) (s : State) : State :=
  match (findOp s q seq).bind (fun o => (o.spec bag.table).bind fun sp => (opDesc s o bag.table).map fun da => (o, sp, da)) with
  | none => s
  | some (o, sp, da) =>
    let v := poolWidth sp da.width (((opDesc s o sp.compB).map Desc.width).getD 0)
    let out := dyVals o dy (if sp.proj then sp.projD else v)
    let mat := o.matrix sp v
    let n := bag.count
    let es : List GEnt := bag.entries.map fun e =>
      let keys := compKeys sp bag.table da e.1
      { id := e.1, w := weightVal o.wgtFmt e.2, keys := keys, rows := if needsRows o sp then keys.map (gsVals s o ts) else keys.map fun _ => .vals [] }
    let pairs := if sp.proj then (List.range v).map fun i => (List.range sp.projD).map fun j => (projElem sp mat v i j, out.getD j .zero) else []
    let sums := pairs.map dotSum
    let s := foldFlags phys ((sums.map rneFlags).foldl Flags.or {}) s
    let dv := if sp.proj then sums.map fp32.rneVal else out
    let wins := if sp.mode == 2 || sp.mode == 3 then (List.range v).map (winner sp es) else []
    let parts := es.zipIdx.flatMap fun x => entryContribs sp x.1 (modeContrib sp n wins dv x.2 x.1.w)
    let done : List (Nat × List Sum1) := parts.map fun x => (x.1, x.2.map (sumContribs (gradGridOf s o x.1)))
    let all := done.flatMap (·.2)
    let s := pmc PMC.poolLane (some (partitionOf phys)) none (some q) (sumNat (parts.map fun x => sumNat (x.2.map (·.length)))) (pmc PMC.foldMac (some (partitionOf phys)) none (some q) pairs.flatten.length s)
    let s := updOp q seq (fun o => { o with sums := done.foldl (fun m x => mput x.1 (addInts (mgetD x.1 [] m) (x.2.map (·.sum))) m) o.sums }) s
    let s := poolFlags phys ((all.map (·.flags)).foldl Flags.or {}) s
    let s := bump R.CNT_GS_NONFINITE (sumNat (all.map (·.wild))) s
    let s := when (all.any (·.clamped)) (fun s => jobBit R.CMD_GS_STATUS 3 q (opCond q seq SC.saturated s)) s
    let s := when (es.any (·.miss)) (opCond q seq SC.partialMissing) s
    let s := if !o.wgradOn then s else
      let ls := es.map fun e => dotSum (((e.gradTerms sp).zip dv).flatMap fun x => x.1.map fun t => (t, x.2))
      let ws := ls.flatMap fun v => leBytes 4 (fp32.encVal (fp32.rneVal v))
      updOp q seq (fun o => { o with wgrad := mput k ws o.wgrad }) (poolFlags phys ((ls.map rneFlags).foldl Flags.or {}) s)
    let s := if !sp.proj then s else
      let (p, f, g) := poolP sp es v n
      let s := poolFlags phys f (foldFlags phys g s)
      let g := p.flatMap fun a => (List.range sp.projD).map fun j => a.mul (out.getD j .zero)
      updOp q seq (fun o => { o with pgrad := mput bag.table ((mgetD bag.table (List.replicate g.length .zero) o.pgrad).zip g |>.map fun x => sumTerm x.1 x.2) o.pgrad }) s
    updOp q seq (fun o => { o with bags := o.bags + 1, flagged := o.flagged + natOfBool (es.any (·.miss)) }) s

/-! ### Staging (06 R177) -/

/-- Lines the sums of an operation take. -/
def sumLines (o : Op) : Nat := sumNat (o.sums.map fun x => 1 + ceilDiv x.2.length 4)

def stageLimit (s : State) (slot : Nat) : Nat := 2 ^ wfield (storeCfg s slot) F.CMD_GS_Jj_CFG_STAGE_LOG2

/-- An operation whose sums, with the records held, do not fit ends with CAPACITY. -/
def stageCheck (q seq extra : Nat) (s : State) : State :=
  match findOp s q seq with
  | none => s
  | some o =>
    if sumLines o + stagedLines (job s q) + extra ≤ stageLimit s q then s
    else jobBit R.CMD_GS_STATUS 0 q (opEnd q seq SC.capacity s)

/-! ### Quantising (06 R157, R158) -/

/-- Encode one block: the form, and the residual of each element (06 R158). -/
def encodeBlock (gg : Int) (vals : List Int) : GBlock × List Int :=
  let code := fun (f : Nat) (v : Int) => rneDiv v (2 ^ f)
  match firstBelow (fun f => decide (gg + (f : Int) ≤ 127) && vals.all fun v => decide (-128 ≤ code f v) && decide (code f v ≤ 127)) 25 with
  | some f => ({ form := 0, s := gg + f, codes := vals.map (code f) }, vals.map fun v => v - code f v * ((2 ^ f : Nat) : Int))
  | none => ({ form := 3, s := 0, codes := vals }, vals.map fun _ => 0)

/-- A sum with its residual, clamped. -/
def clampSum (v : Int) : Int := max (-contribLimit) (min contribLimit v)

/-- The integers of a target with its residual, before and after the clamp. -/
def targetSums (s : State) (slot : Nat) (d : Desc) (target : Nat) (vals : List Int) : List Int :=
  addInts vals (match residRead (job s slot) d.tableId d.version target with
    | some r => r.vals
    | none => [])

/-- The blocks and residuals of a target. -/
def encodeTarget (d : Desc) (vals : List Int) : List GBlock × List Int :=
  let bs := (blocks32 (vals.length + 1) (vals.map clampSum)).map (encodeBlock d.gradGrid)
  (bs.map (·.1), bs.flatMap (·.2))

/-- Keep a new residual, or send it at once where the store has no room (06 R162, R164). -/
def keepResidual (slot : Nat) (d : Desc) (target step : Nat) (res : List Int) (s : State) : State :=
  let s := residTake slot d.tableId d.version target step d.width false s
  if res.all (· == 0) then s else
  let s' := residPut slot d.tableId d.version target step false res s
  if residRoom s' slot (residUsed (job s' slot)) then s'
  else sendCorrection slot 0 d target step res (jobBit R.CMD_GS_STATUS 2 slot s)

/-- Send the record of one target. -/
def commitTarget (q seq key : Nat) (vals : List Int) (s : State) : State :=
  match (findOp s q seq).bind (fun o => (opDesc s o (keyTable key)).map fun d => (o, d)) with
  | none => s
  | some (o, d) =>
    let target := keyId key
    let raw := targetSums s q d target vals
    let s := when (raw.map clampSum != raw) (fun s =>
      poolFlags ((physOf s 0).getD 0) { ovf := true } (jobBit R.CMD_GS_STATUS 3 q (opCond q seq SC.saturated s))) s
    let (bs, res) := encodeTarget d raw
    let s := bump R.CNT_GS_WIDE (bs.filter fun b => b.form == 3).length s
    let s := keepResidual q d target o.step res s
    sendRec q (targetOwner d target) 0 (newRec s q d target o.step bs) s

/-- Send the records of a scatter, with the corrections its residuals need: target by target, by ascending table and target, which decides which residual finds the store full (DESIGN CHOICE, log 81). -/
def commitTargets (q seq : Nat) (o : Op) (s : State) : State := each o.sums (fun x s => commitTarget q seq x.1 x.2 s) s

/-- Send every record of a scatter that has ended well, and count its entries (06 R157, R176). -/
def gsCommit (q seq : Nat) (s : State) : State :=
  match findOp s q seq with
  | none => s
  | some o =>
    if stopsWork o.cond then s else
    let s := commitTargets q seq o s
    updOp q seq (fun o => { o with sums := [], settled := o.counted }) (bump R.CNT_GS_STAGED (o.counted - o.settled) s)

/-- Lines of the records a scatter will hold: those that sending them would add, the corrections of a full residual store among them (06 R164). -/
def recordLines (s : State) (o : Op) : Nat :=
  let lines := fun (t : State) => sumNat ((job t o.queue).sentRecs.map fun x => if x.kind == 0 then recLines x.r else 0)
  lines (commitTargets o.queue o.seq o s) - lines s

/-! ### The running scatter -/

/-- The tiles that complete together with a tile: itself, or, where it runs the first segment of a long bag, all of that bag (04 R86). -/
def tileGroup (o : Op) (t : Tile) : List Tile :=
  match t.segs.find? fun g => decide (1 < g.nseg) with
  | none => [t]
  | some g => if g.seg != 0 then [] else
    let ts := o.tiles.filter fun x => x.segs.any fun y => y.bag == g.bag
    if ts.length == g.nseg then ts else []

/-- A tile completes, once the rows and the gradients of all its bags are at hand: it adds its contributions to sender staging (14 R367). -/
def gsTile (q seq : Nat) (bags : List Bag) (id : Nat) (s : State) : State :=
  match (findOp s q seq).bind (fun o => (o.tile id).map fun t => (o, tileGroup o t)) with
  | none => s
  | some (o, ts) =>
    let phys := (ts.head?.map (·.core)).getD 0
    let ks := nub (ts.flatMap fun t => t.segs.map (·.bag))
    if o.endNow || ts.isEmpty || !ts.all tileReady || !ks.all fun k => (dyOf s o bags k).isSome then s else
    let one := fun (k : Nat) (s : State) => match bags[k]?, dyOf s o bags k with
      | some b, some dy => scatterBag q seq phys k b ts dy s
      | _, _ => s
    let s := updOp q seq (fun o => { o with tiles := o.tiles.filter fun t => !ts.any fun x => x.id == t.id }) (each ks one s)
    pmc PMC.tiles (some (partitionOf phys)) none (some q) ts.length (stageCheck q seq 0 s)

/-- The writes of weight and projection gradients (06 R156). The flags are those of a pool engine (17 Table 17.5): a gradient over all bags is formed by that of logical core 0 (DESIGN CHOICE, log 13). -/
def gsWrites (q seq : Nat) (s : State) : State :=
  match findOp s q seq with
  | none => s
  | some o =>
    let wg := (o.wgrad.map (·.2)).flatten
    let s := if o.wgradOn && !wg.isEmpty then opWrite q seq o.wgBase (padTo (roundUp wg.length 64) wg) WK.data s else s
    let imgs := (o.inUse.filter fun x => x.2.proj).map fun x =>
      let v := match opDesc s o x.1 with
        | some da => poolWidth x.2 da.width (((opDesc s o x.2.compB).map Desc.width).getD 0)
        | none => 0
      let vs := mgetD x.1 (List.replicate (v * x.2.projD) .zero) o.pgrad
      let b := vs.flatMap fun a => leBytes 4 (fp32.encVal (fp32.rneVal a))
      (padTo (roundUp b.length 64) b, (vs.map rneFlags).foldl Flags.or {})
    let pg := (imgs.map (·.1)).flatten
    let s := if o.npay == 1 then poolFlags ((physOf s 0).getD 0) ((imgs.map (·.2)).foldl Flags.or {}) s else s
    if o.npay == 1 && !pg.isEmpty then opWrite q seq o.pgBase pg WK.data s else s

/-- Run a scatter as far as it goes: parse, check, cut, take up bags, and end when every bag is done. -/
def gsRun (q seq : Nat) (s : State) : State :=
  match findOp s q seq with
  | none => s
  | some o =>
    let p := parseBags s o
    let s := countBags q seq p.bags p.faulty s
    match p.fault with
    | some (b, e) => badOperand q seq (whereWord 1 (fld 0 24 b)) (fld 0 32 e) s
    | none =>
      match (if p.complete then dyShort s o p.bags else none) with
      | some b => badOperand q seq (whereWord 1 (fld 0 24 b)) noEntry s
      | none =>
        let s := if o.dySrc then opWant q seq o.dyBase (dyOffset s o p.bags p.bags.length) s else s
        let s := each (o.tiles.map (·.id)) (gsTile q seq p.bags) (makeTiles q seq p s)
        match findOp s q seq with
        | none => s
        | some o =>
          if p.complete && o.bags == o.bagCount && !o.endNow then
            let s := stageCheck q seq (recordLines s o) s
            match findOp s q seq with
            | none => s
            | some o => if o.endNow then s else updOp q seq (fun o => { o with phase := .drain }) (gsWrites q seq s)
          else s

/-- A version in ROWMODE whose gradients a scatter would write (02 R49). -/
def gsRowmode (s : State) (o : Op) : Option (Nat × Nat) :=
  (((o.inUse.flatMap fun x => if x.2.comp == 0 then [x.1] else [x.1, x.2.compB]).filterMap (opDesc s o)).find? fun d => d.rowmode).map fun d => (d.tableId, d.version)

/-- Read and check the inputs of a scatter (06 R152). -/
def gsFresh (q seq : Nat) (s : State) : State :=
  startInputs q seq (fun s o => match specFail s o with
      | some f => some (specEnd q seq f)
      | none => (gsRowmode s o).map fun x => tableState q seq x.1 x.2)
    (fun _ s => updOp q seq (fun o => { o with phase := .run }) s) s

/-- Advance a running scatter by what has arrived. -/
def gsAdvance (q seq : Nat) (s : State) : State :=
  let at_ := fun (p : OpPhase) (f : State → State) (s : State) => match findOp s q seq with
    | some o => if o.phase == p && !o.endNow then f s else s
    | none => s
  at_ .run (gsRun q seq) (at_ .fresh (gsFresh q seq) s)

end Sys2Proof.Machine
end

