-- ==== Sys2Proof/Machine/Update.lean ====
section
/-! DEFINITION. The update rules: parameters, state records, the arithmetic of one row (07 R179 to R189). -/

namespace Sys2Proof.Machine

/-! ### Rounded assignments (07 R183, R187) -/

/-- What the arithmetic of a row has raised: flags, and whether an element saturated. -/
structure Raised where
  flags : Flags := {}
  sat : Bool := false
deriving DecidableEq, Repr

abbrev U (α : Type) : Type := StateM Raised α

def raise (f : Flags) (sat : Bool) : U Unit := fun r => ((), { flags := r.flags.or f, sat := r.sat || sat })

/-- Largest finite value of a format, of a sign. -/
def Fmt.maxVal (f : Fmt) (neg : Bool) : Val := .num (if neg then -(f.maxM : Int) else f.maxM) f.maxE

/-- Round n / d × 2^e once to a format whose overflow saturates, with its flags. -/
def satRound (f : Fmt) (n : Int) (d : Nat) (e : Int) : U Val :=
  if n == 0 then pure .zero else
  let neg := decide (n < 0)
  let (m, q, ex, tiny) := f.round n d e
  if f.tooBig m q then do
    raise { ovf := true, inx := true } true
    pure (f.maxVal neg)
  else do
    raise { inx := !ex, unf := (tiny && !ex) || m == 0 } false
    pure (if m == 0 then (if neg then .negZero else .zero) else .num m q)

/-- A NaN is invalid where no operand was one. -/
def nanOf (ops : List Val) : U Val := do
  raise { inv := !ops.any (fun v => v == .nan) } false
  pure .nan

/-- One assignment: the exact value of its right-hand side, formed from the operands, rounded to FP32. -/
def rnd (ops : List Val) (v : Val) : U Val :=
  match v with
  | .num m e => satRound fp32 m 1 e
  | .negZero => pure .negZero
  | .inf neg => do
    raise { ovf := true, inx := true } true
    pure (fp32.maxVal neg)
  | _ => nanOf ops

/-- A division that is an assignment of its own. -/
def divU (a b : Val) : U Val :=
  if a.isNaN || b.isNaN then nanOf [a, b]
  else match a, b with
    | .inf _, .inf _ => nanOf [a, b]
    | .inf n, b => rnd [a, b] (.inf (n != b.neg))
    | a, .inf n => pure (if a.neg != n then .negZero else .zero)
    | a, b =>
      if b.isZero then (if a.isZero then nanOf [a, b] else rnd [a, b] (.inf (a.neg != b.neg)))
      else if a.isZero then pure (if a.neg != b.neg then .negZero else .zero)
      else match a, b with
        | .num m e, .num m' e' => satRound fp32 (if m' < 0 then -m else m) m'.natAbs (e - e')
        | _, _ => pure .zero

/-- A quotient of an exact sum, rounded once: the assignments of FTRL that divide a sum by the learning rate. -/
def divSum (ops : List Val) (a b : Val) : U Val := if a.isNaN then nanOf ops else divU a b

/-- A square root that is an assignment of its own. -/
def sqrtU (a : Val) : U Val :=
  match a with
  | .num m e =>
    if m == 0 then pure .zero
    else if m < 0 then nanOf [a]
    else do
      let r := fp32.sqrtRne m.toNat e
      raise { inx := !(r.mul r).same a } false
      pure r
  | .negZero => pure .negZero
  | .inf neg => if neg then nanOf [a] else rnd [a] a
  | _ => nanOf [a]

/-- Exact sum of values. -/
def sumVals (l : List Val) : Val := match l with
  | [] => .zero
  | x :: r => r.foldl Val.add x

/-- The smaller or larger of two values, exactly. -/
def minVal (a b : Val) : Val := if a.isNaN then a else if b.isNaN then b else if b.lt a then b else a
def maxVal (a b : Val) : Val := if a.isNaN then a else if b.isNaN then b else if a.lt b then b else a

def eachU (l : List Val) (f : Val → U Val) : U (List Val) := l.mapM f
def eachU2 (a b : List Val) (f : Val → Val → U Val) : U (List Val) := (a.zip b).mapM fun x => f x.1 x.2

/-! ### Parameters (07 Table 7.2, R181) -/

def par (c : Nat) : Val := fp32.dec c

/-- 1 − b, exactly. -/
def oneMinus (b : Val) : Val := (Val.num 1 0).add b.negate

/-- A power, exactly. -/
def powVal (b : Val) (t : Nat) : Val := match b with
  | .num m e => .num (m ^ t) (e * t)
  | v => if t == 0 then .num 1 0 else v

/-- The bias corrections of a step (07 R181). -/
def biasCorr (d : Desc) (st b : Nat) : Val :=
  if !d.biasCorr then .num 1 0 else
  let t := if d.origin ≤ st then st - d.origin + 1 else 1
  fp32.rneVal (oneMinus (powVal (par b) t))

/-! ### Stored parts (07 R182) -/

/-- A tiny value: not zero, and below the smallest normal magnitude of FP32 and of BF16 (07 R187). -/
def Val.tiny (v : Val) : Bool := match v with
  | .num m e => m != 0 && (Val.num m.natAbs e).lt (.num 1 (-126))
  | _ => false

/-- Bytes and stored values of a state part of W elements in the moment format; part 1 holds signed codes. -/
def storePart (ofmt : Nat) (part : Nat) (vs : List Val) : U (Bytes × List Val) :=
  if ofmt == 0 then pure (vs.flatMap fun v => leBytes 4 (fp32.encVal v), vs)
  else if ofmt == 1 then do
    let qs ← vs.mapM fun v => match v with
      | .num m e => satRound bf16 m 1 e
      | .zeroInf => pure Val.nan
      | v => pure v
    pure (qs.flatMap fun v => leBytes 2 (bf16.encVal v), qs)
  else do
    let sgn := part == 1
    let n := ceilDiv vs.length 32
    let ex := (List.range n).map fun b => fineExp 1 sgn (((vs.drop (32 * b)).take 32).map fun v => (v, 0))
    let cs := vs.zipIdx.map fun x => codeOne 1 sgn x.1 (ex.getD (x.2 / 32) 0)
    let toZero := fun (x : (Nat × Flags) × Val) => codeVal 1 sgn x.1.1 == .num 0 0 && !x.2.isZero && x.2.isFin
    let tiny := fun (x : (Nat × Flags) × Val) => x.1.2.inx && x.2.tiny
    raise ((cs.map (·.2)).foldl Flags.or { unf := (cs.zip vs).any fun x => toZero x || tiny x }) (cs.any fun c => c.2.ovf)
    let st := cs.zipIdx.map fun x => (codeVal 1 sgn x.1.1).scale (ex.getD (x.2 / 32) 0)
    pure ((ex.flatMap fun e => leBytes 1 (pattern 8 e)) ++ cs.flatMap fun c => leBytes 1 c.1, st)

/-- The values of a stored part. -/
def loadPart (ofmt part w : Nat) (scalar : Bool) (b : Bytes) : List Val :=
  if scalar then [fp32.dec (leAt b 0 4)]
  else (List.range w).map fun e =>
    if ofmt == 0 then fp32.dec (leAt b (4 * e) 4)
    else if ofmt == 1 then bf16.dec (leAt b (2 * e) 2)
    else (codeVal 1 (part == 1) (leAt b (ceilDiv w 32 + e) 1)).scale (signed 8 (leAt b (e / 32) 1))

/-- Offset of a part in the state record. -/
def partOff (d : Desc) (part : Nat) : Nat :=
  sumNat (((ruleParts d.rule).takeWhile fun p => p.1 != part).map fun p => partLen d.ofmt d.width p.2)

/-- Values of a part of a state record. -/
def statePart (d : Desc) (rec : Bytes) (part : Nat) : List Val :=
  match (ruleParts d.rule).find? fun p => p.1 == part with
  | some p => loadPart d.ofmt part d.width p.2 (rec.drop (partOff d part + 16))
  | none => []

/-- Whether every part of a state record carries a stamp. -/
def stateStamped (d : Desc) (rec : Bytes) (st : Nat) : Bool := (ruleParts d.rule).all fun p => hdrStamp (rec.drop (partOff d p.1)) == st

/-- Values of the weights of a master part. -/
def rowWeights (d : Desc) (part : Bytes) : List Val := (List.range d.width).map fun e => masterVal d.mfmt (leAt part (16 + 4 * e) 4)

/-- Old weights of a master part, as the arithmetic takes them: an old pair is rounded to FP32 (07 R187, R188). -/
def oldWeights (d : Desc) (part : Bytes) : U (List Val) :=
  (rowWeights d part).mapM fun v => match v with
    | .num m x => if d.mfmt == 1 then satRound fp32 m 1 x else pure v
    | _ => pure v

/-! ### The gradient (07 R184) -/

/-- g0 as FP32 patterns: the value the ledger logs. -/
def gradZero (d : Desc) (total : List Int) : U (List Nat) := do
  let vs ← total.mapM fun t => rnd [] (.num t d.gradGrid)
  pure (vs.map fp32.encVal)

def sumSquares (g : List Val) : Val := sumVals (g.map fun x => x.mul x)

def prepareGrad (d : Desc) (g0 w : List Val) : U (List Val) := do
  let clip := par d.clip
  let g ← if d.clipMode == 1 then pure (g0.map fun x => minVal clip (maxVal clip.negate x))
    else if d.clipMode == 2 then do
      let q ← rnd g0 (sumSquares g0)
      let nrm ← sqrtU q
      if !nrm.isNaN && clip.lt nrm then do
        let f ← divU clip nrm
        eachU g0 fun x => rnd [x, f] (x.mul f)
      else pure g0
    else pure g0
  if d.decayMode == 1 then eachU2 g w fun x y => rnd [x, y] (x.add ((par d.decay).mul y)) else pure g

/-! ### New state (07 R185) -/

/-- Mean of the squares of a row. -/
def meanSquare (d : Desc) (g : List Val) : U Val := do
  match sumSquares g with
  | .num m e => satRound fp32 m d.width e
  | v => rnd g v

/-- The new state parts of a row: part number and values before they are stored. FTRL stores its squared sum before its linear term. -/
def newParts (d : Desc) (g w : List Val) (rec : Bytes) : U (List (Nat × List Val)) := do
  let b1 := par d.b1
  let b2 := par d.b2
  let m := statePart d rec 1
  let v := statePart d rec 2
  let sc := (statePart d rec 3).headD .zero
  let first := eachU2 m g fun x y => rnd [x, y] ((b1.mul x).add ((oneMinus b1).mul y))
  match d.rule with
  | 1 => do
    let m ← eachU2 m g fun x y => rnd [x, y] ((b1.mul x).add y)
    pure [(1, m)]
  | 2 => do
    let v ← eachU2 v g fun x y => rnd [x, y] (x.add (y.mul y))
    pure [(2, v)]
  | 3 => do
    let q ← meanSquare d g
    let old := v.headD .zero
    let x ← rnd [old, q] (old.add q)
    pure [(2, [x])]
  | 5 | 7 => do
    let m ← first
    let q ← meanSquare d g
    let old := v.headD .zero
    let x ← rnd [old, q] ((b2.mul old).add ((oneMinus b2).mul q))
    pure [(1, m), (2, [x])]
  | 4 | 6 | 9 => do
    let m ← first
    let v ← eachU2 v g fun x y => rnd [x, y] ((b2.mul x).add (((oneMinus b2).mul y).mul y))
    pure [(1, m), (2, v)]
  | 8 => do
    let nn ← eachU2 v g fun x y => rnd [x, y] (x.add (y.mul y))
    let (_, st) ← storePart d.ofmt 2 nn
    let a ← eachU st sqrtU
    let b ← eachU v sqrtU
    let lr := par d.lr
    let sg ← eachU2 a b fun x y => divSum [x, y] (x.add y.negate) lr
    let z ← (m.zip (g.zip (sg.zip w))).mapM fun x =>
      let z := x.1
      let y := x.2.1
      let s := x.2.2.1
      let o := x.2.2.2
      rnd [z, y, s, o] ((z.add y).add (s.mul o).negate)
    pure [(1, z), (2, nn)]
  | 10 => do
    let m ← first
    let q ← meanSquare d g
    let x ← rnd [sc, q] (sc.add q)
    pure [(1, m), (3, [x])]
  | _ => pure []

/-- The new state record of a row (07 R182, R196). -/
def newRecord (d : Desc) (row st : Nat) (g w : List Val) (rec : Bytes) : U Bytes := do
  let ps ← newParts d g w rec
  let bs ← (ruleParts d.rule).mapM fun (p : Nat × Bool) => do
    let vs := ((ps.find? fun x => x.1 == p.1).map (·.2)).getD []
    let b ← if p.2 then pure (vs.flatMap fun v => leBytes 4 (fp32.encVal v)) else do
      let (b, _) ← storePart d.ofmt p.1 vs
      pure b
    pure (padTo (partLen d.ofmt d.width p.2) (partHeader row d.tableId p.1 st d.version ++ b))
  pure bs.flatten

/-! ### New weights (07 R185, R188, R189) -/

/-- One pass of the preconditioner product on a grid. -/
def precPass (mat : Bytes) (m : List Val) (G : Int) : List ColAcc × Flags :=
  let w := m.length
  let r := (List.range w).map fun j =>
    m.zipIdx.foldl (fun (y : ColAcc × Flags) x => let (a, f) := y.1.add 0 G ((bf16.dec (leAt mat (2 * (j * w + x.2)) 2)).mul x.1) 1; (a, y.2.or f)) (({} : ColAcc), ({} : Flags))
  (r.map (·.1), (r.map (·.2)).foldl Flags.or {})

/-- The product of R189 with its replays: the values, the flags of the fold array, and whether a column saturated. -/
def precProduct (d : Desc) (mat : Bytes) (m : List Val) : List Val × Flags × Bool :=
  let r := ((List.range 4).find? fun (r : Nat) => r == 3 || !(precPass mat m (d.precGrid + 8 * ((r : Nat) : Int))).1.any ColAcc.tooBig).getD 3
  let G := d.precGrid + 8 * (r : Int)
  let (a, f) := precPass mat m G
  let cols := a.map fun x => x.deliver 0 0 false G d.precGrid 1
  (cols.map fun c => fp32.dec c.conv.code, (cols.map (·.conv.flags)).foldl Flags.or (f.or { ovf := decide (0 < r) || a.any ColAcc.tooBig }),
   cols.any fun c => c.satur || c.conv.satur)

/-- r := sqrt(v); d := r + eps. -/
def denom (d : Desc) (v : Val) : U Val := do
  let r ← sqrtU v
  rnd [r] (r.add (par d.eps))

/-- The step of ADAM and the rules built on it: u for each element. -/
def adamStep (d : Desc) (st : Nat) (rec : Bytes) : U (List Val) := do
  let c1 := biasCorr d st d.b1
  let c2 := biasCorr d st d.b2
  let m := statePart d rec 1
  let v := statePart d rec 2
  let v := if d.rule == 5 || d.rule == 7 then List.replicate m.length (v.headD .zero) else v
  (m.zip v).mapM fun x => do
    let mh ← divU x.1 c1
    let vh ← divU x.2 c2
    let dn ← denom d vh
    divU mh dn

/-- The new weights of a row, from its stored new state (07 R185, R186). -/
def newWeights (d : Desc) (st : Nat) (g w : List Val) (rec mat : Bytes) : U (List Val) := do
  let lr := par d.lr
  let minus := fun (x u : Val) => rnd [x, u] (x.add (lr.mul u).negate)
  match d.rule with
  | 1 => eachU2 w (statePart d rec 1) minus
  | 2 => (w.zip (g.zip (statePart d rec 2))).mapM fun x => do
      let dn ← denom d x.2.2
      let u ← divU x.2.1 dn
      minus x.1 u
  | 3 => do
      let dn ← denom d ((statePart d rec 2).headD .zero)
      eachU2 w g fun x y => do
        let u ← divU y dn
        minus x u
  | 4 | 5 => do
      let u ← adamStep d st rec
      eachU2 w u minus
  | 6 | 7 => do
      let u ← adamStep d st rec
      eachU2 w u fun x y => rnd [x, y] ((x.add (lr.mul y).negate).add ((lr.mul (par d.decay)).mul x).negate)
  | 8 => (w.zip ((statePart d rec 1).zip (statePart d rec 2))).mapM fun x => do
      let z := x.2.1
      let l1 := par d.l1
      let az := if z.neg then z.negate else z
      if z.isNaN then pure .nan
      else if !l1.lt az then pure .zero
      else do
        let a ← sqrtU x.2.2
        let d0 ← divSum [a] ((par d.ftrlBeta).add a) lr
        let dn ← rnd [d0] (d0.add (par d.l2))
        let y ← rnd [z] ((if z.neg then l1.negate else l1).add z.negate)
        divU y dn
  | 9 => do
      let u0 ← adamStep d st rec
      let u ← eachU2 u0 w fun x y => rnd [x, y] (x.add ((par d.decay).mul y))
      let pw2 ← rnd w (sumSquares w)
      let pu2 ← rnd u (sumSquares u)
      let pw ← sqrtU pw2
      let pu ← sqrtU pu2
      let ratio ← if pw.isZero || pu.isZero then pure (Val.num 1 0) else divU pw pu
      let ratio := minVal ratio (par d.trustMax)
      eachU2 w u fun x y => rnd [x, y, ratio] (x.add ((lr.mul ratio).mul y).negate)
  | 10 => do
      let (u0, _, sat) := precProduct d mat (statePart d rec 1)
      raise {} sat
      -- the rounding of u is an assignment: an infinite product saturates
      let u ← eachU u0 fun x => rnd [x] x
      let dn ← denom d ((statePart d rec 3).headD .zero)
      eachU2 w u fun x y => do
        let y ← divU y dn
        minus x y
  | _ => eachU2 w g minus

/-- The new weight part of a row (07 R188, R196). Its header is written whole, ROW_ID, TABLE_ID and PART as at its creation (02 R32; DESIGN CHOICE, log 87). -/
def newPart (d : Desc) (row st : Nat) (w : List Val) : Bytes :=
  weightPart d row st d.version (w.flatMap fun v => leBytes 4 (masterEnc d.mfmt v))

/-- Flags of storing a master element: a compensated pair that does not hold its value exactly is inexact, and underflows where what its low half rounds is tiny (05 R121; 07 R187, R188). -/
def storeFlags (mfmt : Nat) (v : Val) : Flags :=
  match v with
  | .num _ _ =>
    let c := pairEnc v
    let lost := mfmt == 1 && !(pairVal c).same v
    { inx := lost, unf := lost && (v.add (bf16.dec (bits c 16 16)).negate).tiny }
  | _ => {}

/-- What an update of one row writes, and what it raises. -/
structure Plan where
  record : Bytes
  part : Bytes
  raised : Raised
  fold : Flags
  nan : Bool
deriving DecidableEq, Repr

def hasNaN (l : List Val) : Bool := l.any fun v => v.isNaN

/-- NaN among the elements of a state record. -/
def recordNaN (d : Desc) (rec : Bytes) : Bool := (ruleParts d.rule).any fun p => hasNaN (statePart d rec p.1)

/-- The update of a row from its old parts and the logged gradient (07 R184 to R188). state says that the state record is yet to be formed; otherwise the given one is the stored new state. -/
def planUpdate (d : Desc) (row st : Nat) (g0 : List Nat) (part rec mat : Bytes) (state : Bool) : Plan :=
  let run : U (Bytes × List Val) := do
    let w ← oldWeights d part
    let g ← prepareGrad d (g0.map fp32.dec) w
    let rec ← if state then newRecord d row st g w rec else pure rec
    let nw ← newWeights d st g w rec mat
    raise ((nw.map (storeFlags d.mfmt)).foldl Flags.or {}) false
    pure (rec, nw)
  let ((rec', nw), r) := run {}
  { record := rec', part := newPart d row st nw, raised := r,
    fold := if d.rule == 10 then (precProduct d mat (statePart d rec' 1)).2.1 else {},
    nan := hasNaN nw || recordNaN d rec' }

end Sys2Proof.Machine
end

