-- ==== Sys2Proof/Machine/Meridian.lean ====
section
/-! DEFINITION. The meridian of a job on this block: phases, dispatch of rows, the ledger and its order of writes, working copies and insets, the admission pass, completion, recovery (06 R172 to R174; 07 R191 to R206; 02 R41, R42). -/

namespace Sys2Proof.Machine

def setMstate (slot v : Nat) (s : State) : State := fset (R.CMD_GS_Jj_STEP slot) F.CMD_GS_Jj_STEP_MSTATE v s
def setClosed (slot v : Nat) (s : State) : State := fset (R.CMD_GS_Jj_STEP slot) F.CMD_GS_Jj_STEP_CLOSED v s

def updMer (slot : Nat) (f : Mer → Mer) (s : State) : State := updJob slot (fun j => { j with mer := j.mer.map f }) s

/-- A condition of the meridian that is running. -/
def merNow (slot code : Nat) (s : State) : State := updMer slot (fun m => { m with cond := maskSet m.cond code }) s

/-- The MERIDIAN that stands aside for a meridian. -/
def merOp (s : State) (slot st : Nat) : Option Op := s.ops.find? fun o => o.queue == slot && o.opcode == OP.meridian && o.place == .aside && o.step == st

/-! ### Phases (06 R172, R173) -/

/-- Begin to wait for the markers of a step. -/
def newMer (st : Nat) : Mer := { step := st, phase := 1, todo := [], cond := 0, marksSent := false, redo := false, resume := false }

/-- A MERIDIAN stands aside: its meridian waits in phase 1, behind an earlier one of the job if there is one. -/
def standAside (slot st : Nat) (s : State) : State :=
  match (job s slot).mer with
  | some _ => updJob slot (fun j => { j with merNext := j.merNext ++ [st] }) s
  | none => setMstate slot 1 (updJob slot (fun j => { j with mer := some (newMer st) }) s)

/-- A version in ROWMODE that the MERIDIAN of a step would write (02 R49). -/
def merRowmode (s : State) (slot st : Nat) : Option (Nat × Nat) :=
  let l := ((job s slot).totals.filter fun t => decide (t.step ≤ st)).map (fun t => (t.table, t.version))
    ++ ((job s slot).resid.filter fun r => residDue s slot st r).map fun r => (r.table, r.version)
  l.find? fun x => match findDesc s slot x.1 x.2 with
    | some d => d.rowmode
    | none => false

/-- The effect of a MERIDIAN: its flushes and markers; then it stands aside (06 R172). -/
def startMeridian (q seq : Nat) (s : State) : State :=
  match findOp s q seq with
  | none => s
  | some o =>
    match merRowmode s q o.step with
    | some x => tableState q seq x.1 x.2 s
    | none =>
      let s := sendMark1 q o.step (flushResiduals q o.step s)
      releaseRecs q (standAside q o.step (updOp q seq (fun o => { o with place := .aside, phase := .run, effectDue := false }) s))

/-- Phase 1 ends: the phase-2 markers go out (06 R173, item 2). Records of an admitting table have been forwarded as they arrived. -/
def phase1End (slot : Nat) (s : State) : State :=
  match (job s slot).mer with
  | none => s
  | some m =>
    let j := job s slot
    if m.phase != 1 || !phaseDone s j.mark1 j.recv m.step then s else
    let ms := (phaseMarks s j.mark1 m.step).getD []
    let s := updJob slot (fun j => { j with mark1 := marksLeft ms m.step j.mark1, recv := takeCounts (sumNat (ms.map (·.count))) j.recv, mer := some { m with phase := 2 } }) s
    sendMark2 slot m.step (setMstate slot 2 s)

/-! ### Rows of a meridian -/

def merKey (table version row : Nat) : Nat := (table * 65536 + version) * 2 ^ 40 + row
def merRow (k : Nat) : Nat := k % 2 ^ 40
def merVersion (k : Nat) : Nat := k / 2 ^ 40 % 65536
def merTable (k : Nat) : Nat := k / 2 ^ 56

def Total.of (t : Total) (key st : Nat) : Bool := merKey t.table t.version t.row == key && decide (t.step ≤ st)

/-- The gradient of a row: every total of a step up to st, added exactly and held in 128 bits, and whether the sum left them (06 R165, R174). -/
def rowTotal (s : State) (slot key st : Nat) : List Int × Bool :=
  (((job s slot).totals.filter fun t => t.of key st).map (·.vals)).foldl (fun a b =>
    let v := addInts a.1 b
    (v.map satTotal, a.2 || v.map satTotal != v)) ([], false)

/-- COUNTs of a row's totals whose part in the meridian is not over. -/
def rowCount (s : State) (slot key st : Nat) : Nat := sumNat (((job s slot).totals.filter fun t => t.of key st && !t.done).map (·.count))

/-- A row's part in the meridian is over: its totals stay until item 3 of R174. -/
def endTotal (slot key st : Nat) (s : State) : State :=
  updJob slot (fun j => { j with totals := updWhere (fun t => t.of key st) (fun t => { t with done := true }) j.totals }) s

/-- Whether a row's part in a meridian is over. -/
def rowOver (s : State) (slot key st : Nat) : Bool := (job s slot).totals.all fun t => !t.of key st || t.done

/-- A row that takes no update: its COUNTs are missing (06 R167, R176). -/
def rowMissing (slot key code : Nat) (m : Mer) (s : State) : State :=
  merNow slot code (endTotal slot key m.step (bump R.CNT_GS_MISSING (rowCount s slot key m.step) s))

/-- The totals of a row end as merged (06 R176). -/
def rowMerged (slot key st : Nat) (s : State) : State := endTotal slot key st (bump R.CNT_GS_MERGED (rowCount s slot key st) s)

/-- The descriptor of a row's version, as it is in force for the meridian's step. -/
def merDesc (s : State) (slot key st : Nat) : Option Desc := (findDesc s slot (merTable key) (merVersion key)).map (atStep s slot st)

/-! ### Translating the parts of a row (07 R192, R451) -/

/-- Spans of a row's parts: number, address and length. -/
def rowParts (d : Desc) (row : Nat) : List (Nat × Nat × Nat) :=
  (0, d.masterAddr row, d.mstride) :: (ruleParts d.rule).map fun p => (p.1, d.stateAddr row + partOff d p.1, partLen d.ofmt d.width p.2)

inductive SpanRes where
  | at_ (pa key : Nat)
  | spilled
  | broken
  | fatal
  | wait
deriving DecidableEq, Repr

/-- Translate a span line by line: it must be far memory, contiguous, under one selector. -/
def spanAux (r : TReq) : Nat → Nat → Option (Nat × Nat) → State → SpanRes × State
  | 0, _, some (pa, k), s => (.at_ pa k, s)
  | 0, _, none, s => (.broken, s)
  | f + 1, va, at0, s =>
    match translate false { r with va := va } s with
    | (.fatal, s) => (.fatal, s)
    | (.wait, s) => (.wait, s)
    | (.ok e, s) =>
      if e.typ == 2 then (.spilled, s)
      else if e.typ != 1 then (.broken, s)
      else match at0 with
        | none => spanAux r f (va + 64) (some (e.at va, e.key)) s
        | some (pa, k) => if e.at va == pa + (va - r.va) && e.key == k then spanAux r f (va + 64) at0 s else (.broken, s)

/-- Translate one part for reading and for writing. -/
def spanOf (client slot key va n : Nat) (s : State) : SpanRes × State :=
  let r : TReq := { client := client, ctx := slotCtx s slot, va := va, write := true, source := 0, who := .update slot key }
  match spanAux r (n / 64) va none s with
  | (.at_ _ _, s) => spanAux { r with write := false } (n / 64) va none s
  | x => x

/-- How the translation of every part of a row ends. -/
inductive PartsRes where
  | ok (l : List (Nat × Nat × Nat × Nat))
  | spilled
  | fatal
  | wait
deriving DecidableEq, Repr

/-- Part number, physical address, selector and length of every part of a row. -/
def partsAux (client slot key : Nat) : List (Nat × Nat × Nat) → List (Nat × Nat × Nat × Nat) → State → PartsRes × State
  | [], acc, s => (.ok acc.reverse, s)
  | (p, va, n) :: r, acc, s =>
    match spanOf client slot key va n s with
    | (.at_ pa k, s) => partsAux client slot key r ((p, pa, k, n) :: acc) s
    | (.spilled, s) => (.spilled, s)
    | (.broken, s) => (.fatal, s)
    | (.fatal, s) => (.fatal, s)
    | (.wait, s) => (.wait, s)

/-! ### Inputs of a table: its legend and its preconditioner -/

def precBytes (d : Desc) : Nat := if d.rule == 10 then roundUp (2 * d.width * d.width) 64 else 0

inductive InRes where
  | got (b : Bytes)
  | wait
  | failed
deriving DecidableEq, Repr

/-- Bytes that a meridian reads once, before its first row, through the MERIDIAN that stands aside or what a restart has put in its place (07 R189, R206). -/
def merInput (slot va n : Nat) (s : State) : InRes × State :=
  if n == 0 then (.got [], s) else
  match (job s slot).mer.bind fun m => merOp s slot m.step with
  | some o =>
    (match o.mem va n with
     | some b => (.got b, s)
     | none => (if (List.range (spanLines va n)).any fun i => !o.hasLine (lineOf va + 64 * i) then .failed else .wait, s))
  | none => (.failed, s)

/-! ### Dispatch (07 R191, R197) -/

def vaultLimit : Nat := 96
def unitLimit : Nat := 4096

/-- Flights of an updater: a core's engine, or a unit. -/
def onCore (s : State) (phys : Nat) : Nat := (s.flights.filter fun x => x.2.core == some phys).length
def onUnit (s : State) (k : Nat) : Nat := (s.flights.filter fun x => x.2.core.isNone && x.1 / 16384 == k).length

/-- The core whose vault caches a row's master. -/
def vaultOf (s : State) (slot : Nat) (d : Desc) (row : Nat) : Option Nat :=
  (findNear s slot d.tableId d.version row NK.weight).bind fun e => (e.pieces.head?.map (·.vault)).bind fun v =>
    if (enabledCores s).any fun c => c.1 == v then some v else none

/-- A free ledger slot of a ring. -/
def freeLedger (s : State) (k : Nat) : Nat :=
  16384 * k + lowestFree (((s.ledger.map (·.1)) ++ s.flights.map (·.1)).filter (fun i => i / 16384 == k) |>.map fun i => i - 16384 * k)

/-- CHECK of a ledger slot: CRC-32 over its first 56 header bytes and its payload (07 Table 7.4). -/
def ledgerCheck (e : LSlot) : Nat :=
  let w0 := fld 0 40 e.row + fld 40 12 e.table + fld 52 2 e.state + fld 54 1 (natOfBool e.bucket) + fld 56 4 e.slot
  let w1 := fld 0 48 e.step + fld 48 16 e.version
  let w2 := fld 0 8 e.engine + fld 8 8 e.widthCode + fld 16 4 e.rule
  crc32 (wordsBytes ([w0, w1, w2].map word) ++ (List.range 4).flatMap (fun i => leBytes 8 (fld 0 40 (e.addrs.getD i 0) + fld 40 6 (e.keys.getD i 0))) ++ e.payload.flatMap (leBytes 4))

/-- The LOGGED entry of a row update. -/
def rowEntry (slot : Nat) (d : Desc) (row st engine : Nat) (parts : List (Nat × Nat × Nat × Nat)) (g0 : List Nat) : LSlot :=
  let of_ := fun i (f : Nat × Nat → Nat) => ((parts.find? fun p => p.1 == i).map fun p => f (p.2.1, p.2.2.1)).getD 0
  let e : LSlot :=
    { row := row, table := d.tableId, state := 1, bucket := false, slot := slot, step := st, version := d.version, engine := engine, widthCode := d.widthCode,
      rule := d.rule, addrs := (List.range 4).map fun i => of_ i (·.1), keys := (List.range 4).map fun i => of_ i (·.2), payload := g0, check := 0 }
  { e with check := ledgerCheck e }

def readParts' (s : State) (parts : List (Nat × Nat × Nat × Nat)) : List Bytes := parts.map fun p => farRead s (keyOf s p.2.2.1) p.2.1 p.2.2.2

/-- Bytes of an old part that near memory holds, under the selector of the row's master weight part: the vault serves its engine's reads (07 R192, Table 7.3; 09 R250). -/
def cachedPart (s : State) (slot : Nat) (d : Desc) (row key part : Nat) : Option Bytes :=
  if part == 0 then (findNear s slot d.tableId d.version row NK.weight).map fun e => e.read key s
  else (findNear s slot d.tableId d.version row NK.state).bind fun e =>
    ((ruleParts d.rule).find? fun p => p.1 == part).map fun p => slice (e.read key s) (partOff d part) (partLen d.ofmt d.width p.2)

/-- The selector of a row's master weight part, under which its lines of near memory stand (09 R250). -/
def partKey (parts : List (Nat × Nat × Nat × Nat)) : Nat := ((parts.head?).map fun p => p.2.2.1).getD 0

/-- Count the reads of a row's old parts: those near memory serves, and the lines read from far memory. -/
def countPartReads (slot : Nat) (d : Desc) (row : Nat) (parts : List (Nat × Nat × Nat × Nat)) (s : State) : State :=
  let hits := (if (findNear s slot d.tableId d.version row NK.weight).isSome then 1 else 0) + (if parts.length != 1 && (findNear s slot d.tableId d.version row NK.state).isSome then 1 else 0)
  let far := (parts.filter fun p => (cachedPart s slot d row (partKey parts) p.1).isNone).flatMap fun p => (List.range (p.2.2.2 / 64)).map fun i => p.2.1 + 64 * i
  let near := (parts.filter fun p => (cachedPart s slot d row (partKey parts) p.1).isSome).map fun p => nearLines p.2.2.2
  let s := pmc PMC.nmRead ((vaultOf s slot d row).map partitionOf) none none (sumNat near) s
  each far (fun pa s => pmc PMC.farRead none (some (stackOf pa)) none 1 s) (bump R.CNT_NM_HIT hits s)

/-- The far-memory lines of a span of a context that translate without a fault, by a walk that counts nothing. -/
def peekLines (s : State) (ctx va n : Nat) : List (Nat × Nat) :=
  (List.range (spanLines va n)).filterMap fun i => match walk s ctx (lineOf va + 64 * i) with
    | .entry e => if e.typ == 1 && e.rd && keyLoaded s e.key then some (e.at (lineOf va + 64 * i), e.key) else none
    | _ => none

/-- Lock or release the cached master and state of a row (08 R215). -/
def lockMaster (slot : Nat) (d : Desc) (row : Nat) (on : Bool) (s : State) : State :=
  { s with near := updWhere (fun e => e.is slot d.tableId d.version row NK.weight || e.is slot d.tableId d.version row NK.state) (fun e => { e with lock := on }) s.near }

def unTodo (slot key : Nat) (s : State) : State := updMer slot (fun m => { m with todo := m.todo.filter fun k => k != key }) s

/-- Multiply-adds of a row's preconditioner product: three passes over 32 by 32 tiles of P, padded with zeros (07 R189). -/
def precMacs (d : Desc) : Nat := if d.rule == 10 then 3 * (roundUp d.width 32) ^ 2 else 0

/-- Compute a row's update and send its ledger entry (07 R196, steps 1 and 2). -/
def flyRow (slot key : Nat) (m : Mer) (d : Desc) (core : Option Nat) (parts : List (Nat × Nat × Nat × Nat)) (bs : List Bytes) (legend : Option Bytes) (mat : Bytes) (s : State) : State :=
  let row := merRow key
  let part := bs.headD []
  let rec_ := (bs.drop 1).flatten
  let (tot, over_) := rowTotal s slot key m.step
  let s := when over_ (totalOver slot m.step) s
  let (g0, r0) := gradZero d tot {}
  let pl := planUpdate d row m.step g0 part rec_ mat true
  let pa := (parts.head?.map fun p => p.2.1).getD 0
  let k := stackOf pa
  let id := freeLedger s k
  let (copy, cf) := match legend with
    | some l => let (c, f) := deriveCopy d l pl.part; (some c, f)
    | none => (none, {})
  let fl := (r0.flags.or pl.raised.flags).or cf
  let e := { rowEntry slot d row m.step (core.getD (0xF0 + k)) parts g0 with prec := peekLines s (slotCtx s slot) d.precBase (precBytes d) }
  let f : Flight := { ledger := id, stage := 0, entry := e, job := slot, state := pl.record, weight := pl.part, copy := copy, core := core,
                      satur := r0.sat || pl.raised.sat, nanw := pl.nan, desc := d }
  let s := match core with
    | some c => lockMaster slot d row true (updFlags c fl (foldFlags c pl.fold s))
    | none => unitFlags k (fl.or pl.fold) s
  let s := pmc PMC.foldMac (core.map partitionOf) none (some slot) (if core.isNone then 0 else precMacs d) s
  unTodo slot key { s with flights := mput id f s.flights }

/-- Place a PRECOND row's master in its home vault (07 R191; 08 R213, item 2). -/
def placePrec (slot : Nat) (d : Desc) (row sel : Nat) (part : Bytes) (s : State) : State :=
  if d.rule != 10 || (vaultOf s slot d row).isSome then s else install (mkEntry slot d row NK.weight sel part) s

/-- The core whose engine updates a row: that of the vault that caches its master, and for PRECOND that of its home vault, where the master is placed first; none leaves the row to an HBM update unit (07 R191). A PRECOND row whose home vault is out of service goes to a unit (DESIGN CHOICE, log 14). -/
def updaterOf (s : State) (slot : Nat) (d : Desc) (row : Nat) : Option Nat :=
  (vaultOf s slot d row).or (if d.rule == 10 then homeInService s slot d.tableId row else none)

/-- Dispatch one row of a running meridian, if an updater has room (07 R191, R192, R197; 06 R167; 08 R238). -/
def dispatchRow (slot key : Nat) (s : State) : State :=
  match (job s slot).mer with
  | none => s
  | some m =>
    match merDesc s slot key m.step with
    | none => rowMissing slot key SC.partialMissing m (unTodo slot key s)
    | some d =>
      let row := merRow key
      match merInput slot d.precBase (precBytes d) s with
      | (.wait, s) => s
      | (.failed, s) => rowMissing slot key SC.faultFatal m (unTodo slot key s)
      | (.got mat, s) =>
        match merInput slot d.legendBase (if d.usesLegend then d.width else 0) s with
        | (.wait, s) => s
        | (leg, s) =>
          let core := vaultOf s slot d row
          let full := match core with
            | some c => decide (vaultLimit ≤ onCore s c)
            | none => false
          if full then s else
          let client := match core with
            | some c => CLI.update c
            | none => CLI.hbm (stackOf (d.masterAddr row))
          match partsAux client slot key (rowParts d row) [] s with
          | (.wait, s) => unTodo slot key s
          | (.fatal, s) => rowMissing slot key SC.partialMissing m (unTodo slot key s)
          | (.spilled, s) => rowMissing slot key SC.partialMissing m (unTodo slot key (setBit R.HBM_STATUS 3 (bump1 R.CNT_SPILL_NOUPD s)))
          | (.ok parts, s) =>
            let cached := fun (p : Nat) => cachedPart s slot d row (partKey parts) p
            match parts.find? fun p => (cached p.1).isNone && farUE s p.2.1 p.2.2.2 with
            | some p =>
              if rowOver s slot key m.step then unTodo slot key s
              else rowMissing slot key SC.faultFatal m (unTodo slot key (elog 0x11 EU.slot slot 1 d.tableId row (jobBit R.CMD_UPD_STATUS 3 slot (bump1 R.CNT_UPD_LOST (hbmUE ((firstUE s p.2.1 p.2.2.2).getD p.2.1) s)))))
            | none =>
              let bs := (parts.zip (readParts' s parts)).map fun p => (cached p.1.1).getD p.2
              let part := bs.headD []
              if hdrStamp part == m.step then rowMerged slot key m.step (unTodo slot key (bump1 R.CNT_UPD_SKIPPED s))
              else if rowOver s slot key m.step then unTodo slot key s
              else
                let core := updaterOf s slot d row
                let k := stackOf ((parts.head?.map fun p => p.2.1).getD 0)
                let full := match core with
                  | some c => decide (vaultLimit ≤ onCore s c)
                  | none => decide (unitLimit ≤ onUnit s k)
                if full then s
                else
                  let s := placePrec slot d row ((parts.head?.map fun p => p.2.2.1).getD 0) part (countPartReads slot d row parts s)
                  flyRow slot key m d core parts bs (match leg with
                    | .got b => some b
                    | _ => none) mat s

/-! ### After the writes of a row (07 R196, R198; 08 R213, R224) -/

/-- Send the refresh of a row to every holder of its inset. -/
def refreshInsets (slot : Nat) (d : Desc) (row st : Nat) (copy : Bytes) (s : State) : State :=
  match findIDir s slot d.tableId d.version row with
  | none => s
  | some e =>
    each ((maskList 64 e.holders).filter fun b => b != self s) (fun b s =>
      sendPacket b CL.sync K.refresh (slotJobId s slot) (leBytes 8 (fld 0 12 d.tableId + fld 12 16 d.version) ++ leBytes 8 (fld 0 48 st) ++ leBytes 8 (fld 0 40 row) ++ copy)
        (bump1 R.CNT_INSET_REFRESH s)) s

/-- Body of a withdrawal: table and version, sheet slot, first local index and count (DESIGN CHOICE: a word each, the sheet slot at bit 28 of the first; log 15). -/
def withdrawBody (table version sheet first count : Nat) : Bytes :=
  leBytes 8 (fld 0 12 table + fld 12 16 version + fld 28 6 sheet) ++ leBytes 8 first ++ leBytes 8 count

/-- Withdraw the insets of local indices [first, first + count) of a table's sheet, of one version or of all (0), and let what wait for their acknowledgement (08 R226). -/
def withdrawRange (what slot table version sheet first count : Nat) (p : IDir → Bool) (s : State) : State :=
  let q := fun (e : IDir) => e.slot == slot && e.table == table && (version == 0 || e.version == version) && p e
  let holders := (s.idir.filter q).foldl (fun m e => m ||| e.holders) 0
  sendAwaited K.withdraw what ((maskList 64 holders).filter fun b => b != self s) (slotJobId s slot) (withdrawBody table version sheet first count)
    { s with idir := s.idir.filter fun e => !q e }

/-- Step 5 of R196: the new working copy replaces cached ones and goes to the holders of insets. Where the legend could not be read, every copy is given up (DESIGN CHOICE, log 14). -/
def newCopy (f : Flight) (s : State) : State :=
  let row := f.entry.row
  match f.copy with
  | some c => refreshInsets f.job f.desc row f.entry.step c (replaceCopy f.job f.desc row (f.entry.keys.getD 0 0) c s)
  | none =>
    let i := f.desc.localIndex row
    withdrawRange 4 f.job f.desc.tableId f.desc.version (f.desc.ownerSlot row) i 1 (fun e => e.row == row) (invalidateRow f.job f.desc row s)

/-- The same bytes into the vault that caches a row's weight part or state record (07 R192). -/
def writeCached (f : Flight) (kind : Nat) (data : Bytes) (s : State) : State :=
  let mine := fun (e : NEntry) => e.is f.job f.desc.tableId f.desc.version f.entry.row kind
  each (s.near.filter mine) (fun e s => nmWrote e.vault (nearLines data.length) s)
    { s with near := updWhere mine (fun e => { e with key := f.entry.keys.getD 0 0, data := data }) s.near }

/-- Write a part of an update, and the same bytes into the vault that caches it (07 R192). -/
def writeRecord (f : Flight) (s : State) : State :=
  writeCached f NK.state f.state (each (ruleParts f.desc.rule) (fun (p : Nat × Bool) s =>
    farWrite (keyOf s (f.entry.keys.getD p.1 0)) (f.entry.addrs.getD p.1 0) (slice f.state (partOff f.desc p.1) (partLen f.desc.ofmt f.desc.width p.2)) s) s)

def writeWeights (f : Flight) (s : State) : State :=
  writeCached f NK.weight f.weight (farWrite (keyOf s (f.entry.keys.getD 0 0)) (f.entry.addrs.getD 0 0) f.weight s)

/-- What the retirement of a row's entry frees, counts and shows: the slot; saturated and NaN elements; and a row that migrates and has been sent is sent again (07 R187, R196; 14 R384, step 2). -/
def countRetired (f : Flight) (s : State) : State :=
  let slot := f.job
  let d := f.desc
  let row := f.entry.row
  let s := { s with flights := mdel f.ledger s.flights, ledger := mdel f.ledger s.ledger }
  let s := bump1 (if f.core.isSome then R.CNT_UPD_VAULT else R.CNT_UPD_HBM) (bump1 R.CNT_UPD_RETIRED (bump1 R.CNT_UPD_ROWS s))
  let s := when f.satur (fun s => jobBit R.CMD_UPD_STATUS 0 slot (bump1 R.CNT_UPD_SAT (merNow slot SC.saturated s))) s
  let s := when f.nanw (fun s => jobBit R.CMD_UPD_STATUS 1 slot (bump1 R.CNT_UPD_NAN s)) s
  match s.mig with
  | some m =>
    if m.owner == self s && m.slot == slot && m.table == d.tableId && m.version == d.version && d.ownerSlot row == m.sheet && decide (d.localIndex row < m.next) then
      { s with mig := some { m with again := insertBy id (d.localIndex row) (m.again.filter fun i => i != d.localIndex row) } }
    else s
  | none => s

/-- Step 6 of R196 has been acknowledged: the slot is free, the row counted, its totals merged. A unit's row whose region is hot enough is installed (08 R213, item 2). -/
def retireRow (f : Flight) (s : State) : State :=
  let slot := f.job
  let d := f.desc
  let row := f.entry.row
  let s := countRetired f s
  let s := match f.core with
    | some _ => lockMaster slot d row false s
    | none =>
      let t := fget s R.NM_CFG F.NM_CFG_MPROMOTE
      if t != 255 && decide (t ≤ contour s slot d.tableId row) && cacheable s slot d.tableId d.version && !tripped s then
        let s := install (mkEntry slot d row NK.weight (f.entry.keys.getD 0 0) f.weight) s
        if d.sstride == 0 then s else install (mkEntry slot d row NK.state (f.entry.keys.getD 0 0) f.state) s
      else s
  rowMerged slot (merKey d.tableId d.version row) f.entry.step s

/-- A unit of an update is acknowledged: it stands in far memory, and the next write of R196 is issued. -/
def unitAck (id : Nat) (s : State) : State :=
  match mfind id s.flights with
  | none => s
  | some f =>
    let go := fun (n : Nat) (s : State) => { s with flights := mput id { f with stage := n } s.flights }
    if f.stage == 0 then
      go (if f.desc.sstride == 0 then 2 else 1) (bump1 R.CNT_UPD_LOGGED { s with ledger := mput id f.entry s.ledger })
    else if f.stage == 1 then go 2 (writeRecord f s)
    else if f.stage == 2 then go 3 (newCopy f (writeWeights f s))
    else retireRow f s

/-! ### The running meridian -/

/-- Rows left of a meridian: rows not yet dispatched or waiting on a fault, and updates in flight. -/
def merRows (s : State) (slot : Nat) (m : Mer) : Bool :=
  !m.todo.isEmpty || (job s slot).totals.any (fun t => decide (t.step ≤ m.step) && !t.done) || s.flights.any fun x => x.2.job == slot

/-- Refresh markers of a step to every other block of the job (07 R200). -/
def refreshMarks (slot st : Nat) (s : State) : State :=
  each (jobOthers s) (fun b s => sendPacket b CL.sync K.refreshMark (slotJobId s slot) (leBytes 8 (fld 0 48 st)) s) s

/-- Dispatch what can be dispatched, nothing during a trip (08 R237); when every row is retired, send the refresh markers (07 R200). A meridian taken up after a warm restart sends them last (07 R206). -/
def merPump (slot : Nat) (s : State) : State :=
  match (job s slot).mer with
  | none => s
  | some m =>
    if m.phase != 3 then s else
    let s := if tripped s then s else each m.todo (dispatchRow slot) s
    match (job s slot).mer with
    | none => s
    | some m =>
      if m.marksSent || merRows s slot m then s
      else
        let s := updMer slot (fun m => { m with marksSent := true }) s
        if m.resume then s else refreshMarks slot m.step s

/-- Rows with a total of a step up to st. -/
def totalKeys (s : State) (slot st : Nat) : List Nat :=
  sortBy id (nub (((job s slot).totals.filter fun t => decide (t.step ≤ st)).map fun t => merKey t.table t.version t.row))

/-- Legends and matrices that the rows of a meridian call for. -/
def merWants (s : State) (slot st : Nat) : List (Nat × Nat) :=
  (nub ((totalKeys s slot st).map fun k => k / 2 ^ 40)).flatMap fun t =>
    match merDesc s slot (t * 2 ^ 40) st with
    | some d => (if d.usesLegend then [(d.legendBase, d.width)] else []) ++ (if d.rule == 10 then [(d.precBase, precBytes d)] else [])
    | none => []

/-- Write the journal line of a meridian that begins (07 R197). -/
def openJournal (slot st : Nat) (s : State) : State :=
  setJournal slot
    { journalOf s slot with
      step := st
      isOpen := true
      jobId := slotJobId s slot
      ctx := slotCtx s slot
      storeCfg := (storeCfg s slot).toNat
      sheetEpoch := sheetEpoch s slot
      admTable := 0
      admBucket := 0 } s

/-- Rows of a version in ROWMODE, whose records came after the MERIDIAN had begun to wait, take no update: the MERIDIAN carries VIOLATION with a TABLE_STATE entry for the version, and their COUNTs are missing (02 R49; DEDUCED, log 74). -/
def refuseRowmode (slot : Nat) (m : Mer) (s : State) : State :=
  let bad := (totalKeys s slot m.step).filter fun k => match findDesc s slot (merTable k) (merVersion k) with
    | some d => d.rowmode && !rowOver s slot k m.step
    | none => false
  let s := each (nub (bad.map fun k => k / 2 ^ 40)) (fun v s =>
    let w := fld 0 12 (v / 65536) + fld 12 16 (v % 65536)
    match merOp s slot m.step with
    | some o => opVlog o.queue o.seq VK.tableState 3 w 0 s
    | none => s) s
  each bad (fun k s => rowMissing slot k SC.violation m s) s

/-- The rows of a meridian go to their updaters. -/
def merStart (slot : Nat) (m : Mer) (s : State) : State :=
  let s := refuseRowmode slot m (updJob slot (fun j => { j with mer := some { m with phase := 3 } }) s)
  let s := setMstate slot 3 (updMer slot (fun m' => { m' with todo := (totalKeys s slot m.step).filter fun k => m.resume || !rowOver s slot k m.step }) s)
  let s := match merOp s slot m.step with
    | some o => each (merWants s slot m.step) (fun x => opWant o.queue o.seq x.1 x.2) s
    | none => s
  merPump slot s

/-- A ROW_EXPORT of a step is running: the meridian of the step waits for it (07 R199). -/
def exporting (s : State) (slot st : Nat) : Bool := match running s with
  | some o => o.queue == slot && o.opcode == OP.rowExport && o.step == st
  | none => false

/-- Phase 2 ends and the meridian begins (06 R173; 07 R197). -/
def meridianBegin (slot : Nat) (s : State) : State :=
  match (job s slot).mer with
  | none => s
  | some m =>
    let j := job s slot
    if m.phase != 2 || exporting s slot m.step || !phaseDone s j.mark2 j.fwdRecv m.step || (m.redo && !phaseDone s j.mark1 j.recv m.step) then s else
    let m1 := if m.redo then (phaseMarks s j.mark1 m.step).getD [] else []
    let s := updJob slot (fun j => { j with mark1 := marksLeft m1 m.step j.mark1, recv := takeCounts (sumNat (m1.map (·.count))) j.recv }) s
    let ms := (phaseMarks s j.mark2 m.step).getD []
    let s := updJob slot (fun j => { j with mark2 := marksLeft ms m.step j.mark2, fwdRecv := takeCounts (sumNat (ms.map (·.count))) j.fwdRecv }) s
    merStart slot m (openJournal slot m.step s)

/-! ### The admission pass (02 R41, R42; 07 R204) -/

/-- The key under which a meridian's admission pass waits on a fault. -/
def admKey : Nat := 2 ^ 111

/-- Parts of a newly admitted row: address and bytes (02 R42). -/
def admitParts (d : Desc) (st id row : Nat) : List (Nat × Bytes) :=
  let els := (List.range d.width).flatMap fun e => leBytes 4 (initElem d id e)
  (d.masterAddr row, weightPart d row st d.version els) :: (if d.sstride == 0 then [] else [(d.stateAddr row, zeroState d row st d.version)])

/-- Whether a span translates for writing (09 R241: every line first). -/
def unitReady (slot va n : Nat) (s : State) : TRes × State :=
  match unitLines slot true (.update slot admKey) (spanLines va n) (lineOf va) [] s with
  | ((r, _), s) => (r, s)

/-- Whether every span of a list translates for writing. -/
def spansReady (slot : Nat) : List (Nat × Nat) → State → TRes × State
  | [], s => unitReady slot 0 0 s
  | x :: r, s =>
    match unitReady slot x.1 x.2 s with
    | (.ok _, s) => spansReady slot r s
    | a => a

/-- Write the parts of a newly admitted row, once all their lines translate. -/
def admitRow (slot : Nat) (d : Desc) (st id row : Nat) (s : State) : TRes × State :=
  let ps := admitParts d st id row
  match spansReady slot (ps.map fun p => (p.1, p.2.length)) s with
  | (.ok e, s) => (.ok e, each ps (fun p s => (unitWrite slot p.1 p.2 (.update slot admKey) s).2) (invalidateRow slot d row s))
  | a => a

/-- A bucket that migrates and has been sent is sent again when the pass changes it, as are the rows admitted below the copy cursor (14 R384, step 2). -/
def migBucket (slot : Nat) (d : Desc) (b : Nat) (words rows : List Nat) (s : State) : State :=
  match s.mig with
  | some m =>
    if m.owner == self s && m.slot == slot && m.table == d.tableId && m.version == d.version then
      let dirs := (b :: words.map (2 ^ d.dirLog2 + ·)).foldl (fun l i => if i < m.dirNext then insertBy id i (l.filter fun x => x != i) else l) m.againDir
      let again := rows.foldl (fun l i => if i < m.next then insertBy id i (l.filter fun x => x != i) else l) m.again
      { s with mig := some { m with againDir := dirs, again := again } }
    else s
  | none => s

/-- The admission cursor moves past a bucket (07 R204). -/
def admCursor (slot table b : Nat) (s : State) : State := setJournal slot { journalOf s slot with admTable := table, admBucket := b + 1 } s

def updPass (slot : Nat) (f : PassAt → PassAt) (s : State) : State := updMer slot (fun m => { m with pass := m.pass.map f }) s

/-- A directory or a part of an admitted row that cannot be read or written: the pass goes on without it, and the MERIDIAN carries FAULT_FATAL (04 R112; 08 R234, item 4; DEDUCED, log 7). -/
def passFault (slot : Nat) (s : State) : State := merNow slot SC.faultFatal s

/-- Words of 8 bytes that differ between two bitmaps. -/
def bitmapWords (a b : Bytes) : List Nat := (List.range (ceilDiv a.length 8)).filter fun w => slice a (8 * w) 8 != slice b (8 * w) 8

/-- The BUCKET entry of a bucket (07 R194, R204). Its payload holds the bucket's far-memory offset and its new bytes, then offset and new value of every changed word of the bitmap. PART_ADDR and KEYSEL 0 are the bucket's, KEYSEL 1 is the bitmap's, and PART_ADDR 1 marks the ways newly admitted (DESIGN CHOICE, log 73). -/
def bucketEntry (slot : Nat) (d : Desc) (b st : Nat) (at0 : Nat × Nat) (key1 fresh : Nat) (ways : Bytes) (words : List (Nat × Bytes)) : LSlot :=
  let w4 := fun (x : Bytes) => (List.range (x.length / 4)).map fun i => leAt x (4 * i) 4
  let pay := w4 (leBytes 8 at0.1 ++ ways ++ words.flatMap fun w => leBytes 8 w.1 ++ w.2)
  let e : LSlot :=
    { row := b, table := d.tableId, state := 1, bucket := true, slot := slot, step := st, version := d.version, engine := 0xF0 + stackOf at0.1, widthCode := d.widthCode,
      rule := d.rule, addrs := [at0.1, fresh, 0, 0], keys := [at0.2, key1, 0, 0], payload := pay, check := 0 }
  { e with check := ledgerCheck e }

/-- Bytes of a ledger payload. -/
def payBytes (e : LSlot) : Bytes := e.payload.flatMap (leBytes 4)

/-- Write what a BUCKET entry logs: the bucket, and the bitmap words (07 R204, step 2). -/
def writeBucket (e : LSlot) (s : State) : State :=
  let p := payBytes e
  let s := farWrite (keyOf s (e.keys.getD 0 0)) (leAt p 0 8) (slice p 8 128) s
  each (List.range ((p.length - 136) / 16)) (fun i s => farWrite (keyOf s (e.keys.getD 1 0)) (leAt p (136 + 16 * i) 8) (slice p (144 + 16 * i) 8) s) s

/-- Rows that a BUCKET entry admits: identifier and local index. -/
def bucketRows (e : LSlot) : List (Nat × Nat) :=
  ((bucketEnts (slice (payBytes e) 8 128)).zipIdx.filter fun x => maskBit (e.addrs.getD 1 0) x.2).map fun x => (x.1.key, x.1.loc)

/-- Physical address and selector of a translated line. -/
def lineAt (slot va : Nat) (s : State) : (Nat × Nat) × State :=
  match unitLines slot true (.update slot admKey) 1 (lineOf va) [] s with
  | ((_, l), s) => ((((l.head?.map (·.1)).getD 0) + va % 64, (l.head?.map (·.2)).getD 0), s)

/-- How a part of the pass ends. -/
inductive PassRes where
  | done
  | wait
deriving DecidableEq, Repr

/-- Steps 3 and 4 of R204: the parts of the rows the head bucket admits, the cursor, and the entry's retirement. -/
def passRows (slot : Nat) (d : Desc) (sheet st b : Nat) : List (Nat × Nat) → State → PassRes × State
  | [], s =>
    let s := admCursor slot d.tableId b s
    let led := ((job s slot).mer.bind fun m => m.pass).bind fun p => p.entry
    let s := match led with
      | some i => { s with ledger := mdel i s.ledger }
      | none => s
    -- the bucket's occurrences have been applied
    (.done, updPass slot (fun p => { p with entry := none, rows := [], buckets := p.buckets.map (·.drop 1) })
      (updJob slot (fun j => { j with occ := j.occ.map fun x => if x.1 / 2 ^ 64 == d.tableId * 65536 + d.version && admBucket d (x.1 % 2 ^ 64) == b then (x.1, x.2 / 2 ^ 32 * 2 ^ 32) else x }) s))
  | x :: r, s =>
    match admitRow slot d st x.1 (d.rowOf sheet x.2) s with
    | (.wait, s) => (.wait, updPass slot (fun p => { p with rows := x :: r }) s)
    | (.fatal, s) => passRows slot d sheet st b r (passFault slot s)
    | (.ok _, s) => passRows slot d sheet st b r s

/-- Steps 1 and 2 of R204 for the head bucket, then its rows. -/
def passOne (slot : Nat) (d : Desc) (sheet st rows b : Nat) (s : State) : PassRes × State :=
  let skip := fun (s : State) => passRows slot d sheet st b [] (passFault slot s)
  let va := d.dirBase + dirBucketOff b
  let bv := d.dirBase + dirBitmapOff d
  match unitRead slot va 128 (.update slot admKey) s with
  | (.wait, s) => (.wait, s)
  | (.data bytes, s) =>
    (match unitRead slot bv (roundUp (ceilDiv rows 8) 8) (.update slot admKey) s with
     | (.wait, s) => (.wait, s)
     | (.data bm, s) =>
       let mine := (occOf s slot d).filter fun x => admBucket d x.1 == b
       let (ways, p) := passBucket d st rows mine (bucketEnts bytes) { bm := bm, rows := [], admits := 0, evicts := 0, drops := 0, full := 0 }
       let words := bitmapWords bm p.bm
       (match spansReady slot ((va, 128) :: words.map fun w => (bv + 8 * w, 8)) s with
        | (.wait, s) => (.wait, s)
        | (.fatal, s) => skip s
        | (.ok _, s) =>
          let (at0, s) := lineAt slot va s
          let (ws, s) := words.foldl (fun (x : List (Nat × Bytes × Nat) × State) w => let (a, s) := lineAt slot (bv + 8 * w) x.2; (x.1 ++ [(a.1, slice p.bm (8 * w) 8, a.2)], s)) ([], s)
          let fresh := sumNat (ways.zipIdx.map fun x => if x.1.kind == 2 && p.rows.any (fun y => y.1 == x.1.key) then 2 ^ x.2 else 0)
          let i := freeLedger s (stackOf at0.1)
          let e := bucketEntry slot d b st at0 ((ws.head?.map fun w => w.2.2).getD 0) fresh (ways.flatMap DirEnt.bytes) (ws.map fun w => (w.1, w.2.1))
          let s := updPass slot (fun q => { q with entry := some i }) { s with ledger := mput i e s.ledger }
          let s := when (p.full != 0) (jobBit R.CMD_GZ_STATUS 0 slot) (migBucket slot d b words (p.rows.map (·.2)) (writeBucket e s))
          passRows slot d sheet st b p.rows
            (bump R.CNT_ADM_ADMIT p.admits (bump R.CNT_ADM_EVICT p.evicts (bump R.CNT_ADM_DROP p.drops (bump R.CNT_ADM_FULL p.full s)))))
     | (_, s) => skip s)
  | (_, s) => skip s

/-- The buckets of a sheet, in ascending index; a bucket whose entry is logged goes on with its rows. -/
def passBuckets (slot : Nat) (d : Desc) (sheet st rows : Nat) : List Nat → State → PassRes × State
  | [], s => (.done, s)
  | b :: r, s =>
    let at_ := (job s slot).mer.bind fun m => m.pass
    let one := match at_.bind fun p => p.entry.map fun _ => p.rows with
      | some l => passRows slot d sheet st b l s
      | none => passOne slot d sheet st rows b s
    match one with
    | (.wait, s) => (.wait, s)
    | (.done, s) => passBuckets slot d sheet st rows r s

/-- Buckets of a sheet that the pass processes: those touched in the step, by an identifier that an overflow has discarded too, and those under the sweep cursor, from the journal's cursor on. -/
def passList (s : State) (slot : Nat) (d : Desc) (cur : Nat) : List Nat :=
  let n := 2 ^ d.dirLog2
  let sweep := (List.range (2 ^ (d.dirLog2 - 10))).map fun i => (cur + i) % n
  let j := journalOf s slot
  let gone := (job s slot).occDrop.filter fun k => k / 2 ^ 64 == d.tableId * 65536 + d.version
  let touched := (occOf s slot d).map (fun (x : Nat × Nat) => admBucket d x.1) ++ gone.map (fun k => admBucket d (k % 2 ^ 64))
  (sortBy id (nub (touched ++ sweep))).filter fun (b : Nat) => !(j.admTable == d.tableId && decide (b < j.admBucket))

/-- The head sheet is passed: its sweep cursor moves, and the journal's cursor past its last bucket. -/
def passMoved (slot : Nat) (d : Desc) (cv cur : Nat) (s : State) : PassRes × State :=
  let n := 2 ^ d.dirLog2
  -- a second version of the table begins again at bucket 0
  let same := (((job s slot).mer.bind fun m => m.pass).bind fun p => (p.sheets.drop 1).head?).any fun x => x.1 == d.tableId
  let go := fun (s : State) => (PassRes.done, updPass slot (fun p => { p with sheets := p.sheets.drop 1, buckets := none })
    (setJournal slot { journalOf s slot with admTable := d.tableId, admBucket := if same then 0 else n } s))
  match spansReady slot [(cv, 8)] s with
  | (.wait, s) => (.wait, s)
  | (.fatal, s) => go (passFault slot s)
  | (.ok _, s) => go (unitWrite slot cv (leBytes 8 ((cur + 2 ^ (d.dirLog2 - 10)) % n)) (.update slot admKey) s).2

/-- The pass over one version's sheet on this block. -/
def passSheet (slot : Nat) (d : Desc) (sheet st : Nat) (s : State) : PassRes × State :=
  let j := journalOf s slot
  let cv := d.dirBase + dirCursorOff d sheet
  let leave := fun (s : State) => (PassRes.done, updPass slot (fun p => { p with sheets := p.sheets.drop 1, buckets := none }) s)
  if j.admTable == d.tableId && decide (2 ^ d.dirLog2 ≤ j.admBucket) then leave s else
  match unitRead slot cv 8 (.update slot admKey) s with
  | (.wait, s) => (.wait, s)
  | (.data c, s) =>
    let cur := leNat c % 2 ^ d.dirLog2
    let p := ((job s slot).mer.bind fun m => m.pass).getD { sheets := [] }
    let bs := p.buckets.getD (match (p.entry.bind fun i => mfind i s.ledger) with
      | some e => e.row :: (passList s slot d cur).filter fun b => decide (e.row < b)
      | none => passList s slot d cur)
    let s := updPass slot (fun p => { p with buckets := some bs }) s
    (match passBuckets slot d sheet st (sheetRows d sheet) bs s with
     | (.wait, s) => (.wait, s)
     | (.done, s) => passMoved slot d cv cur s)
  | (_, s) => leave (passFault slot s)

/-- The sheets of a pass, in ascending TABLE_ID. -/
def passSheets (slot st : Nat) : List (Nat × Nat) → State → PassRes × State
  | [], s => (.done, s)
  | x :: r, s =>
    let one := match (findDesc s slot x.1 x.2).map (atStep s slot st) with
      | some d => (match d.sheetOf (self s) with
        | some sheet => passSheet slot d sheet st s
        | none => (.done, updPass slot (fun p => { p with sheets := r, buckets := none }) s))
      | none => (.done, updPass slot (fun p => { p with sheets := r, buckets := none }) s)
    match one with
    | (.wait, s) => (.wait, s)
    | (.done, s) => passSheets slot st r s

/-- Versions whose sheets a pass takes: every live one of an admitting table, whatever its STATE and its steps, from the journal's cursor on (02 R41; DESIGN CHOICE, log 86). -/
def passVersions (s : State) (slot : Nat) : List Desc :=
  (slotDescs s slot).filter fun d => d.admits && decide ((journalOf s slot).admTable ≤ d.tableId)

/-- Begin the pass. After a warm restart it takes up the bucket whose entry recovery has left LOGGED (07 R204). -/
def passBegin (slot : Nat) (s : State) : State :=
  let p : PassAt := { sheets := (passVersions s slot).map fun d => (d.tableId, d.version) }
  let p := match s.ledger.find? fun x => x.2.bucket && x.2.slot == slot with
    | some (i, e) => if p.sheets.any (fun x => x == (e.table, e.version)) then
        { p with sheets := p.sheets.dropWhile (fun x => x != (e.table, e.version)), entry := some i, rows := bucketRows e }
      else p
    | none => p
  updMer slot (fun m => { m with pass := some p }) s

/-- The pass ends: the step's overflow lists are cleared, and its record of occurrences is forgotten. -/
def passEnd (slot : Nat) (s : State) : State :=
  let s := each ((slotDescs s slot).filter fun d => d.admits) (fun d s =>
    let n := ((occOf s slot d).filter fun x => occPlace x.2 == 2).length
    if n == 0 then s else (unitWrite slot (d.dirBase + dirOverOff d) (zeros (16 * n)) .probe s).2) s
  updJob slot (fun j => { j with occ := [], occDrop := [] }) s

/-- Begin the admission pass of a meridian, or go on with it; it may wait on a fault. -/
def admissionPass (slot st : Nat) (s : State) : PassRes × State :=
  let s := match (job s slot).mer.bind fun m => m.pass with
    | some _ => s
    | none => passBegin slot s
  match (job s slot).mer.bind fun m => m.pass with
  | none => (.done, s)
  | some p =>
    if p.waits then (.wait, s) else
    match passSheets slot st p.sheets s with
    | (.wait, s) => (.wait, updPass slot (fun p => { p with waits := true }) s)
    | (.done, s) => (.done, passEnd slot s)

/-- A fatal answer to the fault a pass waits on: it goes on without the row, the bucket or the sheet that waited. -/
def passFatal (slot : Nat) (s : State) : State :=
  passFault slot (updPass slot (fun p => if !p.rows.isEmpty then { p with rows := p.rows.drop 1 }
    else match p.buckets with
      | some (_ :: r) => { p with buckets := some r }
      | _ => { p with sheets := p.sheets.drop 1, buckets := none }) s)

/-! ### Completion (06 R174; 07 R197, R200) -/

/-- Whether a refresh marker of a step has come from every other block of the job. -/
def refreshedAll (s : State) (slot st : Nat) : Bool := (jobOthers s).all fun b => match mfind b (job s slot).refreshed with
  | some t => decide (st ≤ t)
  | none => false

/-- Conditions that the records of the steps up to st have left for their MERIDIAN. -/
def closeConds (j : Job) (st : Nat) : Nat := (j.conds.filter fun x => decide (x.1 ≤ st)).foldl (fun m x => m ||| x.2) 0

/-- A meridian whose last act before the cutover of a migration is still due withdraws the sheet's insets, and waits (14 R384, step 3). -/
def migHoldsMer (s : State) (slot st : Nat) : Bool := match s.mig with
  | some m => m.owner == self s && m.slot == slot && !m.cut && decide (m.step ≤ st + 1) && (!m.withdrawn || s.awaits.any fun a => a.what == 2)
  | none => false

def migWithdraw (slot st : Nat) (s : State) : State := match s.mig with
  | some m =>
    if m.owner == self s && m.slot == slot && decide (m.step ≤ st + 1) && !m.withdrawn then
      let rows := match findDesc s slot m.table m.version with
        | some d => sheetRows d m.sheet
        | none => 0
      withdrawRange 2 slot m.table 0 m.sheet 0 rows (fun _ => true) { s with mig := some { m with withdrawn := true } }
    else s
  | none => s

/-- Items 3 and 4 of R174: the totals and residuals, the registers. -/
def closeMeridian (slot : Nat) (m : Mer) (s : State) : State :=
  let s := residCommit slot m.step s
  let s := updJob slot (fun j => { j with
    mer := none
    totals := j.totals.filter fun t => decide (m.step < t.step)
    sentRecs := j.sentRecs.filter fun x => decide (m.step < x.r.step)
    sentMarks := j.sentMarks.filter fun x => decide (m.step < x.2.2.1)
    conds := j.conds.filter fun x => decide (m.step < x.1)
    closedAny := true }) s
  let s := endResuming slot (setJournal slot { journalOf s slot with isOpen := false } s)
  let s := { s with
    idir := s.idir.filter fun e => !(e.slot == slot && decide (e.expiry ≤ m.step + 1))
    mig := s.mig.map fun g => if g.slot == slot && decide (g.step ≤ m.step + 1) then { g with cut := true } else g }
  bump1 R.CNT_MERIDIAN (setMstate slot 0 (setClosed slot m.step s))

/-- The next MERIDIAN of the job that stands aside begins to wait for its markers. -/
def nextMer (slot : Nat) (s : State) : State :=
  match (job s slot).merNext with
  | [] => s
  | st :: r => setMstate slot 1 (updJob slot (fun j => { j with mer := some (newMer st), merNext := r }) s)

/-- The reads of a meridian that a restart has taken up end with it. -/
def dropReader (slot : Nat) (s : State) : State :=
  let mine := fun (d : Dest) => match d with
    | .opLine q seq _ => q == slot && seq == 0
    | _ => false
  orphanReads (fun r => mine r.dest) { s with
    ops := s.ops.filter fun o => !o.is slot 0
    fetches := updWhere (fun f => mine f.dest) (fun f => { f with dest := .nobody }) s.fetches
    tagWait := s.tagWait.filter fun x => !mine x.2 }

/-- The MERIDIAN of a completed meridian ends with its conditions; its cartouche is due. One that a restart has taken up has none (07 R206). -/
def endMerOp (slot st cond : Nat) (s : State) : State :=
  match merOp s slot st with
  | none => s
  | some o => if o.seq == 0 then dropReader slot s else updOp o.queue o.seq (fun o => { o with cond := o.cond ||| cond, place := .ended, phase := .deliver }) s

/-- The MERIDIANs of a slot that stand aside end with ABORTED. -/
def abortAside (slot : Nat) (s : State) : State :=
  each (s.ops.filter fun o => o.queue == slot && o.place == .aside) (fun o s =>
    if o.seq == 0 then dropReader slot s else updOp slot o.seq (fun o => { o with place := .ended, phase := .deliver }) (opEnd slot o.seq SC.aborted s)) s

/-- Rows of the job's lookups that waited for this block's own meridian are taken up (07 R199). -/
def releaseRows (slot : Nat) (s : State) : State :=
  each (s.ops.filter fun o => o.queue == slot) (fun o s => each o.tiles (fun t s =>
    completeTile o.queue o.seq t.id (each t.waiting (retryRow o.queue o.seq t.id) s)) s) s

/-- Complete a meridian whose rows are retired and whose refresh markers are held: item 2 of R174, which may wait on a fault, then the others. -/
def meridianComplete (slot : Nat) (s : State) : State :=
  match (job s slot).mer with
  | none => s
  | some m =>
    if m.phase != 3 || !m.marksSent || merRows s slot m || (!m.resume && !refreshedAll s slot m.step) then s else
    let s := migWithdraw slot m.step s
    if migHoldsMer s slot m.step then s else
    match admissionPass slot m.step s with
    | (.wait, s) => s
    | (.done, s) =>
      let m := ((job s slot).mer).getD m
      let cond := m.cond ||| closeConds (job s slot) m.step
      let s := closeMeridian slot m s
      releaseRecs slot (releaseRows slot (endMerOp slot m.step cond (nextMer slot (releaseServes (if m.resume then refreshMarks slot m.step s else s)))))

/-- A fault that a meridian's admission pass waits on is answered: it goes on. -/
def passAgain (slot : Nat) (s : State) : State := meridianComplete slot (updPass slot (fun p => { p with waits := false }) s)

/-! ### Recovery (07 R202, R203, R205) -/

/-- A recovered entry is counted and shown. -/
def rolledForward (slot : Nat) (s : State) : State := jobBit R.CMD_UPD_STATUS 2 slot (bump1 R.CNT_UPD_ROLLFWD s)

/-- What a recovered row's total comes to: merged, or missing with the condition of R192 where the row is lost, while its meridian runs; after a restart it is only over (DEDUCED, log 73). -/
def recoverTotal (e : LSlot) (lost : Bool) (s : State) : State :=
  let key := merKey e.table e.version e.row
  match (job s e.slot).mer with
  | some m => if lost then rowMissing e.slot key SC.faultFatal m s else rowMerged e.slot key e.step s
  | none => endTotal e.slot key e.step s

/-- A row whose entry cannot be recovered: its entry is freed without further writes (07 R203; class UPD_LOST of 14 Table 14.7). -/
def recoverLost (id : Nat) (e : LSlot) (s : State) : State :=
  let s := recoverTotal e true { s with ledger := mdel id s.ledger, flights := mdel id s.flights }
  elog 0x11 EU.slot e.slot 1 e.table e.row (jobBit R.CMD_UPD_STATUS 3 e.slot (bump1 R.CNT_UPD_LOST s))

/-- The matrix of a PRECOND row in recovery, from the lines its entry holds, which can be read (07 R190). -/
def recoverPrec (d : Desc) (e : LSlot) (s : State) : Option Bytes :=
  let n := precBytes d
  if n == 0 then some []
  else if 64 * e.prec.length < n then none
  else some ((readLines s e.prec).drop (d.precBase % 64))

/-- Recover one LOGGED ROW entry from far memory alone (07 R203). copy is the new working copy where the lost engine's is at hand; where it is not, every copy is given up. sat says whether an element saturated, where that is at hand: after a restart nothing tells it of a part that is written, and it is a free value (log 73). -/
def recoverRow (id : Nat) (e : LSlot) (copy : Option Bytes) (sat : Option Bool) (s : State) : State :=
  match findDesc s e.slot e.table e.version with
  | none => recoverLost id e s
  | some d =>
    let spans := (0, d.mstride) :: (ruleParts d.rule).map fun p => (p.1, partLen d.ofmt d.width p.2)
    let parts := spans.map fun p => (p.1, e.addrs.getD p.1 0, e.keys.getD p.1 0, p.2)
    match parts.find? fun p => farUE s p.2.1 p.2.2.2 with
    | some p => recoverLost id e (hbmUE ((firstUE s p.2.1 p.2.2.2).getD p.2.1) s)
    | none =>
      let bs := readParts' s parts
      let part := bs.headD []
      let rec_ := (bs.drop 1).flatten
      let fresh := !stateStamped d rec_ e.step
      let done := hdrStamp part == e.step
      match (if done then none else linesUE s (if precBytes d == 0 then [] else e.prec)), (if done then some [] else recoverPrec d e s) with
      | some pa, _ => recoverLost id e (hbmUE pa s)
      | none, none => recoverLost id e s
      | none, some mat =>
        let (k, s) := if sat.isSome || (fresh && !done) then (0, s) else freeNat s
        let pl := planUpdate d e.row e.step e.payload part rec_ mat fresh
        let f : Flight :=
          { ledger := id, stage := 1, entry := e, job := e.slot, state := if fresh then pl.record else rec_, weight := if done then part else pl.part, copy := copy, core := none,
            satur := sat.getD ((!done && pl.raised.sat) || k % 2 == 1), nanw := if done then hasNaN (rowWeights d part) || recordNaN d rec_ else pl.nan, desc := d }
        let s := if fresh && d.sstride != 0 then writeRecord f s else s
        let s := if done then s else unitFlags (id / 16384) (pl.raised.flags.or pl.fold) (writeWeights f s)
        let s := newCopy f s
        rolledForward e.slot (recoverTotal e false (countRetired f s))

/-- Recover one BUCKET entry from its after-images, where it stands above the journal's cursor: it stays LOGGED until the slot's context is there again and the pass is taken up with the rows it admits (07 R204; DEDUCED, log 73). -/
def recoverBucket (id : Nat) (e : LSlot) (s : State) : State :=
  let j := journalOf s e.slot
  if !j.isOpen || decide (e.table < j.admTable) || (e.table == j.admTable && decide (e.row < j.admBucket)) then { s with ledger := mdel id s.ledger }
  else rolledForward e.slot (writeBucket e s)

/-- Where a ledger slot stands in far memory (07 R193; 08 R231). -/
def ledgerPa (id : Nat) : Nat := 8 * farLim + mib 114 * (id / 16384) + (if id / 16384 == 0 then mib 48 else 0) + 4160 * (id % 16384)

/-- Recover one LOGGED entry (07 R203, R204). A slot that cannot be read loses its row (08 R234, item 3). -/
def recoverEntry (id : Nat) (e : LSlot) (s : State) : State :=
  if e.state != 1 then s else
  match firstUE s (ledgerPa id) (64 + 4 * e.payload.length) with
  | some pa => recoverLost id e (hbmUE pa s)
  | none =>
  if e.check != ledgerCheck e then { s with ledger := mdel id s.ledger }
  else if e.bucket then recoverBucket id e s
  else recoverRow id e none none s

/-- Recover the update of an engine that is lost: an entry that was never acknowledged leaves its row to other updaters (07 R205). -/
def recoverFlight (f : Flight) (s : State) : State :=
  if f.stage == 0 then
    let key := merKey f.desc.tableId f.desc.version f.entry.row
    updMer f.job (fun m => { m with todo := insertBy id key (m.todo.filter fun k => k != key) }) { s with flights := mdel f.ledger s.flights }
  else recoverRow f.ledger f.entry f.copy (some f.satur) s

/-- The updates in flight on a core that has left service (07 R205). -/
def recoverCore (phys : Nat) (s : State) : State :=
  each ((s.flights.filter fun x => x.2.core == some phys).map (·.2)) recoverFlight s

/-- Recover every LOGGED entry of the eight rings. -/
def recoverAll (s : State) : State := each s.ledger (fun x s => recoverEntry x.1 x.2 s) s

/-- The lines of a row's parts that a table keeps, by address. -/
def rowLineVas (d : Desc) (row : Nat) : List Nat := (rowParts d row).flatMap fun p => (List.range (p.2.2 / 64)).map fun i => p.2.1 + 64 * i

/-- Rows of this block's sheets with a part on an HBM stack, by the walks of their job's context (07 R206). -/
def rowsOnStack (s : State) (k : Nat) : List (Nat × Nat × Nat) :=
  (List.range 16).flatMap fun j => (slotDescs s j).flatMap fun d =>
    match d.sheetOf (self s) with
    | none => []
    | some sheet => ((List.range (sheetRows d sheet)).map (d.rowOf sheet)).filterMap fun row =>
        if (rowLineVas d row).any fun va => (peekLines s (slotCtx s j) va 64).any fun x => stackOf x.1 == k then some (j, d.tableId * 65536 + d.version, row) else none

/-- Rows of a job slot that have been lost with their updates, with their log entry of class UPD_LOST: the job slot, how many, the first of them by table and version, and its row (07 R206; 14 Table 14.7; DEDUCED, log 82). -/
def rowsLost (j : Nat) (keys : List Nat) (s : State) : State :=
  match keys with
  | [] => s
  | k :: _ => elog 0x11 EU.slot j keys.length (k / 2 ^ 56) (k % 2 ^ 40) (jobBit R.CMD_UPD_STATUS 3 j (bump R.CNT_UPD_LOST keys.length s))

/-- Rows that the loss of a stack takes: those with a part on it, and those of a LOGGED entry with its slot or a part there. -/
def stackLoses (s : State) (k : Nat) : List (Nat × Nat × Nat) :=
  nub (rowsOnStack s k ++ (s.ledger.filter fun x => x.2.state == 1 && !x.2.bucket && (x.1 / 16384 == k
      || (((findDesc s x.2.slot x.2.table x.2.version).map fun d => (0, d.mstride) :: (ruleParts d.rule).map fun p => (p.1, partLen d.ofmt d.width p.2)).getD []).any
        fun p => (List.range (p.2 / 64)).any fun i => stackOf (x.2.addrs.getD p.1 0 + 64 * i) == k)).map fun x => (x.2.slot, x.2.table * 65536 + x.2.version, x.2.row))

/-- The reads of a meridian that a restart takes up: a MERIDIAN that stands aside under SEQ 0, which no command has (03 R55), so that it has no cartouche (07 R206). -/
def meridianReader (slot st : Nat) : Op :=
  { newOp slot { seq := 0, words := [word (fld 0 8 OP.meridian + fld 16 48 st)], aborted := false, violated := false, vlogs := 0, firstVlog := 0 } with
    place := .aside, phase := .run, effectDue := false }

/-- Take up a meridian that a warm restart found open, on a slot enabled again as it was (07 R206). -/
def resumeMeridian (slot : Nat) (s : State) : State :=
  let j := journalOf s slot
  if !j.isOpen || !isResuming s slot then s
  else merStart slot { step := j.step, phase := 3, todo := [], cond := 0, marksSent := false, redo := false, resume := true } { endResuming slot s with ops := s.ops ++ [meridianReader slot j.step] }

end Sys2Proof.Machine
end

