-- ==== Sys2Proof/Machine/RowOps.lean ====
section
/-! DEFINITION. The gazetteer commands and their effects at issue, and the row and copy commands: GZ_ROWPUT, MEM_COPY, ROW_EXPORT, ROW_IMPORT (02 R27 to R29, R45 to R50; 16 R420 to R433). -/

namespace Sys2Proof.Machine

/-! ### Gazetteer effects (03 R64) -/

/-- The issued operation of an opcode whose gazetteer effect is due. -/
def dueGaz (s : State) (code : Nat) : Option Op :=
  match issued s with
  | some o => if o.opcode == code && o.effectDue && !o.endNow then some o else none
  | none => none

/-- The effect of an operation has taken place. -/
def effectDone (q seq : Nat) (s : State) : State := updOp q seq (fun o => { o with effectDue := false }) s

/-- The descriptor that a GZ_DEFINE carries. -/
def Op.descWords (o : Op) : List Word := (o.words.drop 8).take 32

/-- A DESCRIPTOR entry: the item of R28, and the word and bit of the field (02 R28). -/
def descriptorFault (q seq : Nat) (x : Nat × Nat × Nat) (s : State) : State :=
  opViolation q seq VK.descriptor 3 (fld 0 4 x.1) (fld 0 5 x.2.1 + fld 5 6 x.2.2) s

/-- GZ_DEFINE (02 R28, R29). -/
def defineTable (o : Op) (s : State) : State :=
  let raw : Desc := { words := o.descWords }
  let live := liveDescs s o.queue raw.tableId
  match descFail raw (nblocks s) (live.map Desc.version) with
  | some x => descriptorFault o.queue o.seq x s
  | none =>
    if 3 ≤ live.length then opEnd o.queue o.seq SC.capacity s
    else putDesc o.queue (storeDesc o.descWords) s

/-- Make a SERVING version DRAINING with a last step (02 R45). -/
def drainVersion (slot : Nat) (d : Desc) (last : Nat) (s : State) : State :=
  putDesc slot { d.setState 3 with lastStep := last } s

/-- GZ_SWITCH (02 R45, R46). -/
def switchTable (o : Op) (s : State) : State :=
  let ds := liveDescs s o.queue o.tableId
  match ds.find? (fun d => d.version == o.version && d.state == 1) with
  | none => tableState o.queue o.seq o.tableId o.version s
  | some d =>
    if o.effStep ≤ max o.step (queue s o.queue).maxStep then tableState o.queue o.seq o.tableId o.version s
    else if ds.any (fun d => d.state == 3) then opEnd o.queue o.seq SC.capacity s
    else
      let s := match ds.find? (fun d => d.state == 2) with
        | some old => drainVersion o.queue old (o.effStep - 1) s
        | none => s
      putDesc o.queue ((d.setState 2).setW 21 0 48 o.effStep) s

/-- Whether an issued operation of a later step has bound a version (16 R422). -/
def boundLater (s : State) (slot table version st : Nat) : Bool :=
  s.ops.any fun o => o.queue == slot && decide (st < o.step) && o.bound.contains (table, version)

/-- GZ_DROP (16 R422). A READY version that is dropped leaves near memory as a retired one does (08 R220). -/
def dropTable (o : Op) (s : State) : State :=
  let ds := liveDescs s o.queue o.tableId
  match ds.find? (fun d => d.version == o.version) with
  | none => tableState o.queue o.seq o.tableId o.version s
  | some d =>
    if d.rowmode || d.state == 3 then tableState o.queue o.seq o.tableId o.version s
    else if d.state == 1 then delDesc o.queue o.tableId o.version (purgeVersion o.queue o.tableId o.version s)
    else if ds.any (fun d => d.state == 3) then opEnd o.queue o.seq SC.capacity s
    else if boundLater s o.queue o.tableId o.version o.step then tableState o.queue o.seq o.tableId o.version s
    else drainVersion o.queue d o.step s

/-- An operation in flight that could write gradients of a version or update its rows (02 R49, item 2). -/
def writerInFlight (s : State) (slot table version : Nat) : Bool :=
  s.ops.any fun o => o.queue == slot && !(o.place == .ended)
    && ((o.opcode == OP.gsScatter && o.bound.contains (table, version)) || o.opcode == OP.meridian)

/-- GZ_ROWMODE (02 R49; 16 R423; 08 R226). -/
def rowmodeTable (o : Op) (s : State) : State :=
  match findDesc s o.queue o.tableId o.version with
  | none => tableState o.queue o.seq o.tableId o.version s
  | some d =>
    if d.state == 3 || (o.flag28 && d.state == 2 && writerInFlight s o.queue o.tableId o.version) then tableState o.queue o.seq o.tableId o.version s
    else
      let s := putDesc o.queue (d.setRowmode o.flag28) s
      if !o.flag28 then s else
      let sheet := (d.sheetOf (self s)).getD 0
      withdrawRange 0 o.queue o.tableId o.version sheet 0 (sheetRows d sheet) (fun _ => true) s

/-! ### Writing rows at their home controller (02 R50; 16 R433) -/

/-- Whether reads of a row already accepted have still to return (02 R50, step 1). -/
def readsOut (s : State) (slot table version row : Nat) : Bool :=
  s.fetches.any fun f => f.slot == slot && f.table == table && f.version == version && f.row == row && (f.src == .far || f.src == .host)

/-- The identity under which the writes of a row wait on a fault: no queued write carries it. -/
def rowWid : Nat := 2 ^ 64

/-- How a row command goes on after one record. -/
inductive RecEnd where
  | done
  | wait
  | ended
deriving DecidableEq, Repr

/-- Translate the lines of a part for writing, in order, by the home controllers: the entry of each. A fatal fault ends the operation (16 R427, item 5). -/
def rowEnts (q seq : Nat) : Nat → Nat → List TEnt → State → Option (List TEnt) × RecEnd × State
  | 0, _, acc, s => (some acc.reverse, .done, s)
  | f + 1, va, acc, s =>
    match translate false (unitReq s q va true (.opWrite q seq rowWid)) s with
    | (.ok e, s) => rowEnts q seq f (va + 64) (e :: acc) s
    | (.wait, s) => (none, .wait, s)
    | (.fatal, s) => (none, .ended, opEnd q seq SC.faultFatal s)

def rowSpan (q seq va n : Nat) (s : State) : Option (List TEnt) × RecEnd × State := rowEnts q seq (spanLines va n) (lineOf va) [] s

/-- Write a part whose lines have translated, wherever each lies: far memory, host memory, or the window of another block (08 R238; 16 R427, R433). -/
def rowWrite (q seq va : Nat) (data : Bytes) (es : List TEnt) (s : State) : State :=
  pumpWrites q seq (writeAll q seq { wid := rowWid, va := va, data := data, out := false, what := WK.data, remote := none } es s)

/-- Put one row: its weight part, and its state as zeros where that is asked for; nothing is written where a part faults (02 R50; 16 R427). -/
def putRow (q seq : Nat) (d : Desc) (row st : Nat) (zero_ : Bool) (els : Bytes) (s : State) : RecEnd × State :=
  if readsOut s q d.tableId d.version row then (.wait, s) else
  let w := weightPart d row st d.version els
  let z := if zero_ then zeroState d row st d.version else []
  match rowSpan q seq (d.masterAddr row) w.length s with
  | (none, e, s) => (e, s)
  | (some lw, _, s) =>
    match rowSpan q seq (d.stateAddr row) z.length s with
    | (none, e, s) => (e, s)
    | (some lz, _, s) => (.done, rowWrite q seq (d.masterAddr row) w lw (rowWrite q seq (d.stateAddr row) z lz (invalidateRow q d row s)))

/-! ### GZ_ROWPUT (16 R424 to R427) -/

def recSize (d : Desc) : Nat := 8 + 4 * d.width

/-- The descriptor of the version an operation has bound for its table. -/
def boundDesc (s : State) (o : Op) : Option Desc := (opDesc s o o.tableId).map (atStep s o.queue o.step)

/-- One record of a GZ_ROWPUT. -/
def rowputRec (q seq i : Nat) (d : Desc) (b : Bytes) (o : Op) (s : State) : RecEnd × State :=
  let row := bits (leAt b 0 8) 0 40
  if d.rows ≤ row then (.ended, badOperand q seq (whereWord 3 (fld 0 40 i)) 1 s)
  else if d.owner row != self s then (.ended, rowNotOwned q seq i row s)
  else putRow q seq d row o.step o.zeroState (b.drop 8) s

/-- The bytes of record i, in the payload or in memory. -/
def rowputBytes (o : Op) (d : Desc) (i : Nat) : Option Bytes :=
  if o.flag28 then o.mem (o.rowBase + i * recSize d) (recSize d) else some (slice o.payload (i * recSize d) (recSize d))

/-- Put the records that are at hand, in order. -/
def rowputRun (q seq : Nat) : Nat → State → State
  | 0, s => updOp q seq (fun o => { o with phase := .drain }) s
  | f + 1, s =>
    match (findOp s q seq).bind fun o => (boundDesc s o).map fun d => (o, d) with
    | none => s
    | some (o, d) =>
      let i := o.rowAt
      let s := if o.flag28 then opWant q seq (o.rowBase + i * recSize d) (recSize d) s else s
      match (findOp s q seq).bind fun o => if o.endNow then none else (rowputBytes o d i).map fun b => (o, b) with
      | none => s
      | some (o, b) =>
        match rowputRec q seq i d b o s with
        | (.done, s) => rowputRun q seq f (updOp q seq (fun o => { o with rowAt := i + 1 }) s)
        | (_, s) => s

/-- Whether this block holds a total of an uncompleted step for a version (16 R427, item 2). -/
def versionTotals (s : State) (slot table version : Nat) : Bool := (job s slot).totals.any fun t => t.table == table && t.version == version

def rowputAdvance (q seq : Nat) (s : State) : State :=
  match (findOp s q seq).bind fun o => (boundDesc s o).map fun d => (o, d) with
  | none => opEnd q seq SC.tableRetired s
  | some (o, d) =>
    if o.phase == .fresh then
      if !d.rowmode || versionTotals s q d.tableId d.version then tableState q seq d.tableId d.version s
      else rowputRun q seq o.putCount (updOp q seq (fun o => { o with phase := .run }) s)
    else if o.phase == .run then rowputRun q seq (o.putCount - o.rowAt) s else s

/-! ### MEM_COPY (16 R428, R429) -/

/-- Write the lines that have been read, in order. -/
def copyRun (q seq : Nat) : Nat → State → State
  | 0, s => updOp q seq (fun o => { o with phase := .drain }) s
  | f + 1, s =>
    match findOp s q seq with
    | none => s
    | some o =>
      if o.endNow then s else
      match o.mem (o.srcAddr + 64 * o.rowAt) 64 with
      | none => s
      | some b => copyRun q seq f (opWrite q seq (o.dstAddr + 64 * o.rowAt) b WK.data (updOp q seq (fun o => { o with rowAt := o.rowAt + 1 }) s))

def copyAdvance (q seq : Nat) (s : State) : State :=
  match findOp s q seq with
  | none => s
  | some o =>
    if o.phase == .fresh || o.phase == .run then
      copyRun q seq (o.copyBytes / 64 - o.rowAt) (opWant q seq o.srcAddr o.copyBytes (updOp q seq (fun o => { o with phase := .run }) s))
    else s

/-! ### ROW_EXPORT (16 R430, R431) -/

def estride (o : Op) (d : Desc) : Nat := d.mstride + (if o.flag28 then d.sstride else 0)

/-- The record of one local index, once its parts have been read; the reads are started. -/
def exportRec (q seq : Nat) (d : Desc) (sheet i : Nat) (o : Op) (s : State) : Option Bytes × State :=
  if d.rows ≤ d.rowOf sheet i then (some (zeros (estride o d)), s) else
  let n := if o.flag28 then d.sstride else 0
  let mv := d.masterBase + i * d.mstride
  let sv := d.stateBase + i * d.sstride
  let s := opWant q seq sv n (opWant q seq mv d.mstride s)
  ((findOp s q seq).bind fun o => (o.mem mv d.mstride).bind fun a => (o.mem sv n).map fun b => a ++ b, s)

/-- Write the records whose parts are at hand, in order. -/
def exportRun (q seq : Nat) (d : Desc) (sheet : Nat) : Nat → State → State
  | 0, s => updOp q seq (fun o => { o with phase := .drain }) s
  | f + 1, s =>
    match findOp s q seq with
    | none => s
    | some o =>
      if o.endNow then s else
      match exportRec q seq d sheet (o.expFirst + o.rowAt) o s with
      | (none, s) => s
      | (some b, s) =>
        exportRun q seq d sheet f (opWrite q seq (o.expDst + o.rowAt * estride o d) b WK.data (updOp q seq (fun o => { o with rowAt := o.rowAt + 1 }) s))

def exportAdvance (q seq : Nat) (s : State) : State :=
  match (findOp s q seq).bind fun o => (boundDesc s o).map fun d => (o, d) with
  | none => opEnd q seq SC.tableRetired s
  | some (o, d) =>
    match d.sheetOf (self s) with
    | none => if o.phase == .fresh then rowNotOwned q seq 0 0 s else s
    | some sheet =>
      if !prevDone s q o.step then s
      else if o.phase == .fresh || o.phase == .run then
        exportRun q seq d sheet (o.expCount - o.rowAt) (updOp q seq (fun o => { o with phase := .run }) s)
      else s

/-! ### ROW_IMPORT (16 R432, R433) -/

/-- The first header of a record that fails: its REASON (16 Table 16.2). -/
def importFault (d : Desc) (withState : Bool) (b : Bytes) : Option Nat :=
  let parts := if withState then (ruleParts d.rule).map fun p => (p.1, b.drop (d.mstride + partOff d p.1)) else []
  let checks := [(2, hdrTable b == d.tableId), (3, hdrPart b == 0), (1, decide (hdrRow b < d.rows))]
    ++ parts.flatMap fun p => [(4, hdrRow p.2 == hdrRow b), (2, hdrTable p.2 == d.tableId), (3, hdrPart p.2 == p.1)]
  (checks.find? (fun (x : Nat × Bool) => !x.2)).map (·.1)

/-- A part with its VERSION replaced. -/
def setVersion (v : Nat) (b : Bytes) : Bytes := b.take 14 ++ leBytes 2 v ++ b.drop 16

/-- The state record of a record with its VERSIONs replaced. -/
def importState (d : Desc) (v : Nat) (b : Bytes) : Bytes :=
  ((ruleParts d.rule).map fun p => setVersion v (slice b (partOff d p.1) (partLen d.ofmt d.width p.2))).flatten

/-- One record of a ROW_IMPORT. -/
def importRec (q seq i : Nat) (d : Desc) (b : Bytes) (o : Op) (s : State) : RecEnd × State :=
  if (b.take 16).all (· == 0) then (.done, s) else
  match importFault d o.flag28 b with
  | some r => (.ended, badOperand q seq (whereWord 3 (fld 0 40 i)) r s)
  | none =>
    let row := hdrRow b
    if d.owner row != self s then (.ended, rowNotOwned q seq i row s)
    else if readsOut s q d.tableId d.version row then (.wait, s) else
    let s := invalidateRow q d row s
    let z := if o.flag28 then importState d d.version (b.drop d.mstride) else []
    match rowSpan q seq (d.stateAddr row) z.length s with
    | (none, e, s) => (e, s)
    | (some lz, _, s) =>
      let s := rowWrite q seq (d.stateAddr row) z lz s
      match rowSpan q seq (d.masterAddr row) d.mstride s with
      | (none, e, s) => (e, s)
      | (some lw, _, s) => (.done, rowWrite q seq (d.masterAddr row) (setVersion d.version (b.take d.mstride)) lw s)

/-- Write the records that are at hand, in order. -/
def importRun (q seq : Nat) (d : Desc) : Nat → State → State
  | 0, s => updOp q seq (fun o => { o with phase := .drain }) s
  | f + 1, s =>
    match findOp s q seq with
    | none => s
    | some o =>
      let i := o.rowAt
      let n := estride o d
      let s := opWant q seq (o.impSrc + i * n) n s
      match (findOp s q seq).bind fun o => if o.endNow then none else (o.mem (o.impSrc + i * n) n).map fun b => (o, b) with
      | none => s
      | some (o, b) =>
        match importRec q seq i d b o s with
        | (.done, s) => importRun q seq d f (updOp q seq (fun o => { o with rowAt := i + 1 }) s)
        | (_, s) => s

def importAdvance (q seq : Nat) (s : State) : State :=
  match (findOp s q seq).bind fun o => (boundDesc s o).map fun d => (o, d) with
  | none => opEnd q seq SC.tableRetired s
  | some (o, d) =>
    if o.phase == .fresh then
      if d.state != 1 then tableState q seq d.tableId d.version s
      else importRun q seq d o.impCount (updOp q seq (fun o => { o with phase := .run }) s)
    else if o.phase == .run then importRun q seq d (o.impCount - o.rowAt) s else s

end Sys2Proof.Machine
end

