-- ==== Sys2Proof/Machine/Life.lean ====
section
/-! DEFINITION. The life of an operation: staging, issue, start, completion, delivery, abort, and the messages of the compute port (03 R55 to R78, R450; 02 R48; 14 R379, R382). -/

namespace Sys2Proof.Machine

/-! ### Held and halted jobs (14 R379, R382) -/

def jobHeld (s : State) (slot : Nat) : Bool := fbit s (R.MG_Jj_EPOCH slot) F.MG_Jj_EPOCH_HELD

def jobHalted (s : State) (slot : Nat) : Bool := fbit s (R.MG_Jj_EPOCH slot) F.MG_Jj_EPOCH_HALTED

/-! ### Retirement of versions (02 R48; 08 R220) -/

/-- A version this block has released retires here once every other block of the job has sent its notice. -/
def tryRetire (slot table version : Nat) (s : State) : State :=
  match findDesc s slot table version with
  | none => s
  | some d =>
    if d.state == 3 && d.released && (jobOthers s).all (fun b => maskBit d.notices b) then
      let s := delDesc slot table version s
      elog 0x0F EU.table table version table 0 (jobBit R.CMD_GZ_STATUS 3 slot (bump1 R.CNT_GZ_RETIRE s))
    else s

/-- Whether a version may be released: its last step is closed here, and no operation bound to it is in flight. -/
def mayRelease (s : State) (slot : Nat) (d : Desc) : Bool :=
  d.state == 3 && !d.released && (job s slot).closedAny && decide (d.lastStep ≤ closedStep s slot)
    && !s.ops.any fun o => o.queue == slot && o.bound.contains (d.tableId, d.version)

/-- Release a version: purge it, and send the notices. -/
def releaseVersion (slot table version : Nat) (s : State) : State :=
  match findDesc s slot table version with
  | none => s
  | some d =>
    if !mayRelease s slot d then s else
    let s := purgeVersion slot table version s
    let s := withdrawInsets (fun e => e.slot == slot && e.table == table && e.version == version) s
    let s := putDesc slot { d with released := true } s
    let s := each (jobOthers s) (fun b s => sendPacket b CL.sync K.release (slotJobId s slot) (leBytes 8 (fld 0 12 table + fld 12 16 version)) s) s
    tryRetire slot table version s

/-- Release every version of a job slot that may be released. -/
def releaseAll (slot : Nat) (s : State) : State :=
  each (slotDescs s slot) (fun d s => releaseVersion slot d.tableId d.version s) s

/-! ### Ending the work of an operation (03 R74; 04 R83; 09 R256) -/

/-- Whether a waiting request belongs to an operation. -/
def waiterOf (q seq : Nat) (w : Waiter) : Bool := match w with
  | .tileRow a b _ _ => a == q && b == seq
  | .opRead a b _ => a == q && b == seq
  | .opWrite a b _ => a == q && b == seq
  | _ => false

/-- Absorb the waiting requests that satisfy p: those of a fault, parked, and held back; the faults stay pending (09 R256). -/
def dropReqs (p : TReq → Bool) (s : State) : State :=
  { s with
    fq := s.fq.map fun x => (x.1, { x.2 with waiters := x.2.waiters.filter fun r => !p r })
    parked := s.parked.filter (fun x => !p x.req)
    unissued := s.unissued.filter fun r => !p r }

/-- Absorb the requests of an operation or a tile. -/
def dropWaiters (p : Waiter → Bool) (s : State) : State := dropReqs (fun r => p r.who) s

/-- Whether a write of an operation has left for a peer and is unacknowledged. -/
def writeSent (s : State) (q seq wid : Nat) : Bool := s.fetches.any fun f => f.dest == .opWrite q seq wid

/-- Whether an operation waits for input data from the compute port. PORT_TIMEOUT does not apply while it waits for its bank (03 R73, item 1). -/
def waitsData (o : Op) : Bool :=
  ((o.opcode == OP.lkPool && !o.bagSrc) || (o.opcode == OP.gsScatter && (!o.bagSrc || !o.dySrc))) && !o.dataStream.2
    && (o.phase == .fresh || o.phase == .run)

/-- Whether an operation waits for input data or for result credit (03 R67). -/
def waitsPort (o : Op) : Bool := waitsData o || !o.results.isEmpty

/-- A wait of more than 1 µs for input data or credit is counted when it ends (03 R67). -/
def endStall (q seq : Nat) (s : State) : State :=
  match findOp s q seq with
  | none => s
  | some o =>
    let s := if o.place == .running && decide (1000 < s.aon - o.lastIn) then setBitFor R.CMD_CPT_STATUS 1 4 q (bump1 R.CNT_PORT_STALL s) else s
    updOp q seq (fun o => { o with lastIn := s.aon, stalled := false }) s

/-- The wait of an operation that ends is over, whatever its end. -/
def closeWait (q seq : Nat) (s : State) : State :=
  match findOp s q seq with
  | some o => if waitsPort o then endStall q seq s else s
  | none => s

/-- Input data or credit has arrived for an operation: a wait for it ends, and the measure of its next one begins (03 R67). -/
def portArrival (q seq : Nat) (s : State) : State := updOp q seq (fun o => { o with lastIn := s.aon, stalled := false }) (closeWait q seq s)

/-- The phase of an operation that has stopped its work: it waits for the writes it has made. -/
def stoppedPhase (o : Op) : OpPhase := if o.place == .running && (o.phase == .fresh || o.phase == .bank || o.phase == .run) then .drain else o.phase

/-- Whether a write of an operation that has ended is still made: its completion record, and its last one of line 0 (03 R71, R73). -/
def lastWrite (w : WLine) : Bool := w.what == WK.record || w.what == WK.publish

/-- Whether a user is a write that an ended operation gives up. -/
def givenUp (s : State) (q seq wid : Nat) : Bool := !((findOp s q seq).any fun o => o.writes.any fun w => w.wid == wid && lastWrite w)

/-- Stop what an ended operation has in progress: its wait for the port, its tiles, its reads, its prefetch, and the writes it has not yet made. Its last write of line 0 and the record for its ring stay, with what they wait for. -/
def cancelOp (q seq : Nat) (s : State) : State :=
  let s := closeWait q seq s
  let s := dropWaiters (fun w => waiterOf q seq w && (match w with
    | .opWrite _ _ wid => givenUp s q seq wid
    | _ => true)) (stopTiles q seq s)
  let mine := fun (d : Dest) => match d with
    | .opLine a b _ => a == q && b == seq
    | .prefetch a b _ _ => a == q && b == seq
    | _ => false
  let s := orphanReads (fun r => mine r.dest) s
  let s := { s with
    fetches := updWhere (fun f => mine f.dest) (fun f => { f with dest := .nobody }) s.fetches
    tagWait := s.tagWait.filter fun x => !mine x.2 && !(match x.2 with
      | .opWrite a b wid => a == q && b == seq && givenUp s q seq wid
      | _ => false) }
  updOp q seq (fun o => { o with phase := stoppedPhase o, reads := [], results := [], writes := o.writes.filter fun w => writeSent s q seq w.wid || lastWrite w }) s

/-! ### Completion (03 R66, R71, R73; 11 R307, R311) -/

/-- Whether any line of a span lies in a range of TYPE HOST. -/
def hostSpan (s : State) (ctx va n : Nat) : Bool :=
  (List.range (spanLines va n)).any fun i => match walk s ctx (lineOf va + 64 * i) with
    | .entry e => e.typ == 2
    | _ => false

/-- Whether an operation's result buffer counts as in host memory (11 R311). -/
def bufferInHost (s : State) (o : Op) : Bool :=
  let c := slotCtx s o.queue
  hostSpan s c o.rbBase 128 || hostSpan s c (bankBase o) o.rbBank

/-- Whether the result buffer is published (03 Table 3.10). -/
def mayPublish (s : State) (o : Op) : Bool := !stopsWork o.cond && !(maskBit o.cond SC.hostLost && bufferInHost s o)

/-- A command that only had its effect at issue. -/
def gazOp (o : Op) : Bool := o.opcode == OP.gzDefine || o.opcode == OP.gzSwitch || o.opcode == OP.gzDrop || o.opcode == OP.gzRowmode

/-- Whether a running operation has made its last write and every write is acknowledged (03 R66, steps 1 and 2; 16 R423). -/
def drained (s : State) (o : Op) : Bool :=
  (o.phase == .drain || o.endNow) && o.writes.isEmpty && o.results.isEmpty
    && !(o.opcode == OP.gzRowmode && s.awaits.any fun a => a.what == 0)

/-- The flushing reads of ANY_PATH (11 R307). An operation that they end gives up what it has in progress (06 R157, R176). -/
def startFlush (q seq : Nat) (o : Op) (s : State) : State :=
  let ps := if o.anyPath then maskList 4 o.paths else []
  match ps.find? fun p => !fbit s (R.HST_FLUSHp p) F.HST_FLUSHp_VALID with
  | some _ => cancelOp q seq (setBit R.HST_STATUS 4 (opViolation q seq VH.flushUnset 1 0 0 s))
  | none =>
    if ps.isEmpty then s
    else if !hostOpen s then cancelOp q seq (opCond q seq SC.hostLost (opEnd q seq SC.faultFatal s))
    else updOp q seq (fun o => { o with flushes := ps.length }) (each ps (hostFlush q seq) s)

/-- Write line 0 for the last time (03 R73, items 3 and 4). An operation that ends before it has written line 0 with WRITING = 1 writes none: it has claimed no bank (DEDUCED, log 65). -/
def startPublish (q seq : Nat) (s : State) : State :=
  match findOp s q seq with
  | none => s
  | some o =>
    let s := updOp q seq (fun o => { o with phase := .publish }) s
    if o.outDst && o.opcode == OP.lkPool && o.pubMem then pumpWrites q seq (opWrite q seq o.rbBase (publishLine o (mayPublish s o)) WK.publish s) else s

/-- The running operation has passed step 3 and its cartouche is due: it keeps the RUNNING place until it is COMPLETE, but for one that must wait for an earlier operation of its queue (03 R66). -/
def leaveRunning (q seq : Nat) (s : State) : State :=
  let waits := s.ops.any fun x => x.queue == q && x.seq != 0 && decide (x.seq < seq)
  updOp q seq (fun o => { o with place := if waits then .ended else o.place, phase := .deliver }) s

/-- Take the steps of completion that can be taken now. A scatter sends its records once nothing can end it any more, the flushing reads included (06 R157; 11 R307). -/
def finishOp (q seq : Nat) : Nat → State → State
  | 0, s => s
  | f + 1, s =>
    match findOp s q seq with
    | none => s
    | some o =>
      if o.place != .running then s
      else if o.phase == .flush then
        (if o.flushes == 0 then finishOp q seq f (startPublish q seq (if o.opcode == OP.gsScatter then gsCommit q seq s else s)) else s)
      else if o.phase == .publish then (if o.writes.isEmpty then leaveRunning q seq s else s)
      else if o.phase == .deliver || !drained s o then s
      else finishOp q seq f (startFlush q seq o (updOp q seq (fun o => { o with phase := .flush }) s))

/-! ### Delivery of cartouches (03 R66, steps 4 to 6; R71) -/

/-- Discard the data still staged for a completed operation; its units return (03 R59). -/
def dropData (q seq : Nat) (s : State) : State :=
  match mfind seq (queue s q).data with
  | some x => returnData q x.n (updQueue q (fun x => { x with data := mdel seq x.data }) s)
  | none => s

/-- Steps 5 and 6: the CART message and CMD_Qj_DONE; the operation is COMPLETE. -/
def completeOp (o : Op) (s : State) : State :=
  let q := o.queue
  let s := if o.cartPort then cptSend MT.cart q false o.seq 0 o.cart s else s
  let s := rset (R.CMD_Qj_DONE q) (word (fld 0 48 o.seq + fld 48 4 (statusOf o.cond))) (bump1 R.CNT_OPS_DONE s)
  let s := freePrefetch q o.seq { s with ops := s.ops.filter fun x => !x.is q o.seq }
  dropData q o.seq (updQueue q (fun x => { x with nextCart := o.seq + 1 }) s)

/-- The cartouche that is delivered: the completion record, and one with HOST_LOST where that record was itself discarded (11 R311; DEDUCED, log 42). -/
def lastCart (s : State) (o : Op) : List Word :=
  let c := cartouche s o true
  if wbits (o.cart.getD 1 0) 0 16 == wbits (c.getD 1 0) 0 16 then o.cart else c

/-- Deliver the cartouches of a queue that are due, in SEQ order; a record that waits on a fault holds the ones behind it. -/
def deliver (q : Nat) : Nat → State → State
  | 0, s => s
  | f + 1, s =>
    match findOp s q (queue s q).nextCart with
    | none => s
    | some o =>
      if o.phase != .deliver then s else
      let seq := o.seq
      let s := if !o.cart.isEmpty then s else
        let c := cartouche s o true
        let s := updOp q seq (fun o => { o with cart := c }) s
        if o.cartMem then pumpWrites q seq (opWrite q seq (cartAddr s o) (wordsBytes c) WK.record s) else s
      match findOp s q seq with
      | none => s
      | some x => if x.writes.isEmpty then deliver q f (completeOp { x with cart := lastCart s x } s) else s

/-- Deliver what is due on every queue, and release the versions that nothing uses any more. -/
def deliverAll (s : State) : State :=
  let s := each (List.range 16) (fun q s => deliver q (s.ops.length + 1) s) s
  each (List.range 16) (fun q s => if slotOn s q then releaseAll q s else s) s

/-! ### Start (03 R66) -/

/-- The issued operation starts, once its gazetteer effect has taken place and its issue record is written; none does while an apply waits (15 R408). It copies its bound descriptors, and holds them until it ends (02 R26). -/
def startNext (s : State) : State :=
  match running s, issued s with
  | none, some o =>
    if o.endNow || jobHeld s o.queue || fbit s R.MG_CFG_STATUS F.MG_CFG_STATUS_PENDING || (gazOp o && o.effectDue) || !o.writes.isEmpty then s else
    let q := o.queue
    let x := mgetD o.seq { units := [], last := none } (queue s q).data
    let s := updOp q o.seq (fun o => { o with
      place := .running
      descs := o.bound.filterMap fun b => (findDesc s q b.1 b.2).map fun d => (b.1, d)
      phase := if gazOp o then .drain else .fresh
      units := x.units
      lastUnit := x.last
      lastIn := s.aon }) s
    returnData q x.n (updQueue q (fun x => { x with data := mdel o.seq x.data }) s)
  | _, _ => s

/-- An issued operation whose issue record was lost ends without running (03 R71). -/
def endIssued (s : State) : State :=
  match issued s with
  | some o => if o.endNow && o.writes.isEmpty then updOp o.queue o.seq (fun o => { o with place := .ended, phase := .deliver }) (cancelOp o.queue o.seq s) else s
  | none => s

/-- Complete what can be completed, start what can be started, and deliver what is due. -/
def completeAll (s : State) : State :=
  let s := match running s with
    | some o => finishOp o.queue o.seq 8 s
    | none => s
  deliverAll (startNext (deliverAll s))

/-! ### Issue (03 R62, R63, R450) -/

/-- Whether the ordering class of a head word lets the next command of a queue issue now (03 Table 3.7; ORDER 3 as STREAM). -/
def orderOk (s : State) (q : Nat) (c : Staged) : Bool :=
  let k := wbits (c.words.getD 0 0) 11 2
  if k == 1 then !s.ops.any fun o => o.queue == q
  else if k == 2 then s.ops.all (fun o => o.seq == 0) && s.hwrites.isEmpty
  else true

/-- A meridian that a warm restart found open is completed before the slot issues any command (07 R206). -/
def resuming (s : State) (q : Nat) : Bool := match (job s q).mer with
  | some m => m.resume
  | none => false

/-- The queue the block issues from next, and its command: none while no core is left (14 R368). -/
def nextIssue (s : State) : Option (Nat × Staged) :=
  if coreCount s == 0 then none else
  ((List.range 16).map fun i => (s.rr + 1 + i) % 16).findSome? fun q =>
    let x := queue s q
    match x.staged with
    | c :: _ => if x.state == 1 && slotOn s q && !jobHeld s q && !jobHalted s q && !resuming s q && orderOk s q c then some (q, c) else none
    | [] => none

/-- An operation that ends without running: its cartouche is due. -/
def endAtIssue (q seq : Nat) (s : State) : State := updOp q seq (fun o => { o with place := .ended, phase := .deliver, endNow := true }) s

/-- STEP of a GS_SCATTER or MERIDIAN against the MERIDIANs already issued (06 R149). -/
def stepOk (s : State) (o : Op) : Bool :=
  let x := queue s o.queue
  !(o.opcode == OP.gsScatter || o.opcode == OP.meridian) || !x.merAny || decide (x.merStep < o.step)

/-- Whether a 256th scatter of one step would issue (06 R149). -/
def scatterFull (s : State) (o : Op) : Bool :=
  let x := queue s o.queue
  o.opcode == OP.gsScatter && x.gsStep == o.step && decide (255 ≤ x.gsCount)

/-- Tables an operation names, with the version it names: a lookup or scatter names a range, a row command one table. -/
def namedBy (o : Op) : List (Nat × Nat) :=
  let c := o.opcode
  if c == OP.lkPool || c == OP.gsScatter then o.namedTables.map fun t => (t, o.verNamed)
  else if c == OP.gzRowput || c == OP.rowExport || c == OP.rowImport then [(o.tableId, o.version)]
  else []

/-- Bind the tables an operation names (02 R43; 04 R81; 16 R425, R426). A range leaves a table without a version unbound; the failure is its end. -/
def bindOp (s : State) (o : Op) : Option (Nat × Nat) × Bool × List (Nat × Nat) :=
  let writes := o.opcode == OP.gsScatter
  let bs := (namedBy o).map fun x => (x.1, x.2, bindTable s o.queue x.1 x.2 o.step writes)
  let bad := (bs.find? fun x => x.2.2 == .badState).map fun x => (x.1, x.2.1)
  let row := o.opcode == OP.gzRowput || o.opcode == OP.rowExport || o.opcode == OP.rowImport
  (bad, row && bs.any fun x => x.2.2 == .retired, bs.filterMap fun x => match x.2.2 with
    | .version v => some (x.1, v)
    | _ => none)

/-- COUNT of an inline GZ_ROWPUT against its payload, in the width of the bound version (16 R425). -/
def putFits (s : State) (o : Op) : Bool :=
  o.opcode != OP.gzRowput || o.flag28 || (match boundDesc s o with
    | some d => decide (o.putCount * recSize d ≤ 64 * o.npay)
    | none => true)

/-- Whether a GZ_DEFINE, GZ_SWITCH or GZ_DROP fails for want of a place among the versions of its table, a check made at issue (03 R63, item 5; 02 R29, R46; 16 R422). -/
def gazFull (s : State) (o : Op) : Bool :=
  let draining := fun (l : List Desc) => l.any fun d => d.state == 3
  if o.opcode == OP.gzDefine then
    let raw : Desc := { words := o.descWords }
    let live := liveDescs s o.queue raw.tableId
    (descFail raw (nblocks s) (live.map Desc.version)).isNone && decide (3 ≤ live.length)
  else if o.opcode == OP.gzSwitch then
    let ds := liveDescs s o.queue o.tableId
    ds.any (fun d => d.version == o.version && d.state == 1) && decide (max o.step (queue s o.queue).maxStep < o.effStep) && draining ds
  else if o.opcode == OP.gzDrop then
    let ds := liveDescs s o.queue o.tableId
    (match ds.find? fun d => d.version == o.version with
      | some d => !d.rowmode && d.state == 2 && draining ds
      | none => false)
  else false

/-- An operation has passed every check: it counts as issued, and its issue record is written (03 R450, R71). -/
def countIssued (o : Op) (s : State) : State :=
  let q := o.queue
  let s := updQueue q (fun x => { x with
    anyIssued := true
    lastStep := o.step
    maxStep := max x.maxStep o.step
    gsStep := if o.opcode == OP.gsScatter then o.step else x.gsStep
    gsCount := if o.opcode == OP.gsScatter then (if x.gsStep == o.step then x.gsCount + 1 else 1) else x.gsCount
    merAny := x.merAny || o.opcode == OP.meridian
    merStep := if o.opcode == OP.meridian then o.step else x.merStep }) s
  if o.cartMem then pumpWrites q o.seq (opWrite q o.seq (cartAddr s o) (wordsBytes (cartouche s o false)) WK.issue s) else s

/-- The checks of R63 in their order. -/
def checkOp (o : Op) (s : State) : State :=
  let q := o.queue
  let seq := o.seq
  let x := queue s q
  if !opcodes.contains o.opcode then endAtIssue q seq (opViolation q seq VK.badOpcode 0 o.opcode 0 s)
  else match o.badOperand (stepOk s o) with
    | some (w, b) => endAtIssue q seq (badOperand q seq (badOperandWord w b) 0 s)
    | none =>
      if x.anyIssued && decide (o.step < x.lastStep) then endAtIssue q seq (opViolation q seq VK.stepOrder 0 0 0 s)
      else match bindOp s o with
        | (some t, _, _) => endAtIssue q seq (tableState q seq t.1 t.2 s)
        | (none, true, _) => endAtIssue q seq (opEnd q seq SC.tableRetired s)
        | (none, false, bound) =>
          let o := { o with bound := bound }
          if !putFits s o then endAtIssue q seq (badOperand q seq (badOperandWord 2 30) 0 s)
          else if scatterFull s o || gazFull s o then endAtIssue q seq (opEnd q seq SC.capacity s)
          else countIssued o (updOp q seq (fun x => { x with bound := bound }) s)

/-- What has already decided the end of a staged command: a breach of its data and an abort both apply where both came (00 R13). -/
def Staged.cond (c : Staged) : Nat :=
  let m := if c.aborted then maskSet 0 SC.aborted else 0
  if c.violated then maskSet m SC.violation else m

/-- Issue the next operation, if the ISSUED place is empty and one may issue. The turn of R62 passes its queue whether or not the operation passes the checks of R63 (DEDUCED, log 66). -/
def issueNext (s : State) : State :=
  match issued s, nextIssue s with
  | none, some (q, c) =>
    let s := updQueue q (fun x => { x with staged := x.staged.drop 1 }) { s with rr := q }
    let s := returnCmd q (c.words.length / 8) s
    let o := newOp q c
    let s := { s with ops := s.ops ++ [o] }
    let s :=
      if c.aborted || c.violated then endAtIssue q c.seq (updOp q c.seq (fun o => { o with cond := c.cond }) s)
      else checkOp o s
    deliverAll (prefetchOp (startNext (endIssued (deliverAll s))))
  | _, _ => s

/-! ### Abort, stop, restart (03 R74, R78) -/

/-- Groups that may be aborted while running (03 Table 3.5). -/
def abortable (o : Op) : Bool := o.opcode == OP.nop || (decide (0x10 ≤ o.opcode) && decide (o.opcode ≤ 0x1F)) || (decide (0x40 ≤ o.opcode) && decide (o.opcode ≤ 0x4F))

/-- End a running or issued operation with ABORTED. -/
def abortOp (o : Op) (s : State) : State :=
  let q := o.queue
  if o.place == .running then cancelOp q o.seq (opEnd q o.seq SC.aborted s)
  else if o.place == .issued then endAtIssue q o.seq (cancelOp q o.seq (opCond q o.seq SC.aborted s))
  else s

/-- The operation an abort names. SEQ 0 names the running operation, and the issued one where none runs (DESIGN CHOICE, log 67: a queue may have both). -/
def abortTarget (s : State) (q seq : Nat) : Option Op :=
  if seq == 0 then
    match s.ops.find? fun o => o.queue == q && o.place == .running with
    | some o => some o
    | none => s.ops.find? fun o => o.queue == q && o.place == .issued
  else findOp s q seq

/-- An abort (03 R74). One that finds its operation running in a group that is not abortable is recorded with it and has no effect; nothing reads the record (DEDUCED, log 67). -/
def abortSeq (q seq : Nat) (s : State) : State :=
  if (queue s q).staged.any (fun c => c.seq == seq) then
    updQueue q (fun x => { x with staged := updWhere (fun c => c.seq == seq) (fun c => { c with aborted := true }) x.staged }) s
  else match abortTarget s q seq with
    | some o =>
      if o.place == .issued || (o.place == .running && abortable o) then deliverAll (abortOp o s)
      else if o.place == .running then updOp o.queue o.seq (fun o => { o with abortNoted := true }) s
      else s
    | none => s

/-- End the staged commands of a queue with ABORTED, in SEQ order. -/
def abortStaged (q : Nat) (s : State) : State :=
  let l := (queue s q).staged
  let s := updQueue q (fun x => { x with staged := [] }) s
  { s with ops := s.ops ++ l.map fun c => { newOp q c with place := .ended, phase := .deliver, cond := maskSet c.cond SC.aborted, endNow := true } }

/-- A queue runs afresh: its streams begin again, what waits in its staging is dropped but for the data of its issued operation, and all credit is granted anew (03 R78, items 2 to 4; 12 R321). -/
def freshStreams (q : Nat) (s : State) : State :=
  let keep := match issued s with
    | some o => if o.queue == q then (queue s q).data.filter (fun x => x.1 == o.seq) else []
    | none => []
  let again := (queue s q).renotice
  let s := updQueue q (fun x => { x with
    state := 1
    data := keep
    rxNext := 0
    txNext := 0
    early := []
    cmdGrant := x.cmdUsed + 512
    dataGrant := x.dataUsed + 8192
    doomed := []
    renotice := false }) s
  let s := sendCredit q s
  if again then sendNotice q 0 s else s

/-- RESTART of an enabled queue: the staged commands end, with what cartouches of theirs are due, and the queue runs afresh (03 R78). Without a core left it stays STOPPED until a full bring-up (14 R368). -/
def restartQueue (q : Nat) (s : State) : State := if (queue s q).state == 0 || coreCount s == 0 then s else freshStreams q (deliverAll (abortStaged q s))

/-- STOP: the queue is STOPPED without a log entry. -/
def stopCmd (q : Nat) (s : State) : State := if (queue s q).state == 0 then s else stopQueue q s

/-! ### Arriving messages (03 R57 to R61, R77) -/

/-- Whether an operation of a SEQ is known and not COMPLETE: staged, or in some place of its life. -/
def seqOpen (s : State) (q seq : Nat) : Bool := (queue s q).staged.any (fun c => c.seq == seq) || (findOp s q seq).isSome

/-- End the operation a message names with VIOLATION; one that is staged, or whose SEQ is not yet assigned, ends so when it reaches issue. -/
def violateSeq (q seq kind : Nat) (s : State) : State :=
  match findOp s q seq with
  | some _ => opViolation q seq kind 0 0 0 s
  | none =>
    let i := (rget s R.MG_VLOG_COUNT).toNat
    let s := vlog kind 0 q seq 0 0 s
    if (queue s q).nextSeq ≤ seq then
      let d := mgetD seq (0, i % 2 ^ 32) (queue s q).doomed
      updQueue q (fun x => { x with doomed := mput seq (sat 16 (d.1 + 1), d.2) x.doomed }) s
    else
    updQueue q (fun x => { x with staged := updWhere (fun c => c.seq == seq) (fun c => { c with
      violated := true
      vlogs := sat 16 (c.vlogs + 1)
      firstVlog := if c.vlogs == 0 then i % 2 ^ 32 else c.firstVlog }) x.staged }) s

/-- A breach that stops a queue, logged with the message's SEQ. -/
def msgBreach (q seq kind : Nat) (s : State) : State := stopBreach q kind (vlog kind 0 q seq 0 0 s)

/-- A CMD message in its place (03 R61). -/
def takeCmd (q len seq : Nat) (body : List Word) (s : State) : State :=
  let x := queue s q
  let n := 1 + wbits (body.getD 0 0) 8 3
  if len != n then msgBreach q seq VK.cmdLength s
  else if seq != x.nextSeq then msgBreach q seq VK.seqMismatch s
  else if x.cmdGrant < x.cmdUsed + n then msgBreach q seq VK.queueOverrun s
  else
  let d := mgetD seq (0, 0) x.doomed
  updQueue q (fun x => { x with
    staged := x.staged ++ [{ seq := seq, words := padWords (8 * n) (body.take (8 * n)), aborted := false, violated := d.1 != 0, vlogs := d.1, firstVlog := d.2 }]
    doomed := mdel seq x.doomed
    nextSeq := x.nextSeq + 1
    cmdUsed := x.cmdUsed + n }) s

/-- Units of a DATA message: their offsets and bytes. -/
def dataUnits (len off : Nat) (body : List Word) : List (Nat × Bytes) :=
  (List.range len).map fun i => (off + i, wordsBytes (padWords 8 ((body.drop (8 * i)).take 8)))

/-- Whether the LAST message of an operation's data has been taken. -/
def streamEnded (s : State) (q seq : Nat) : Bool :=
  match findOp s q seq with
  | some o => o.lastUnit.isSome || ((mfind seq (queue s q).data).bind (·.last)).isSome
  | none => ((mfind seq (queue s q).data).bind (·.last)).isSome

/-- Take the units of a DATA message into the operation's stream: of one that has started, at once, with their credit returned; of any other, into staging. -/
def takeUnits (q len seq off : Nat) (last : Bool) (body : List Word) (s : State) : State :=
  let us := dataUnits len off body
  let put := fun (l : List (Nat × Bytes)) => us.foldl (fun m x => mput x.1 x.2 m) l
  let end_ := if last then some (off + len) else none
  let stage := fun (x : Stream) => { units := put x.units, last := end_, n := x.n + len : Stream }
  let s := updQueue q (fun x => { x with dataUsed := x.dataUsed + len }) s
  let held := updQueue q (fun x => { x with data := mput seq (stage (mgetD seq { units := [], last := none } x.data)) x.data }) s
  match findOp s q seq with
  | some o =>
    if o.place == .issued then held
    else returnData q len (updOp q seq (fun o => { o with units := put o.units, lastUnit := end_ }) (portArrival q seq s))
  | none => held

/-- A DATA message in its place (03 R59, Table 3.13). -/
def takeData (q len seq off : Nat) (last : Bool) (body : List Word) (s : State) : State :=
  let x := queue s q
  if x.dataGrant < x.dataUsed + len then violateSeq q seq VK.dataOverrun s
  else if seq < x.nextSeq && !seqOpen s q seq then
    returnData q len (updQueue q (fun x => { x with dataUsed := x.dataUsed + len }) (bump1 R.CNT_STALE_DATA (vlog VK.staleData 0 q seq 0 0 s)))
  else if streamEnded s q seq then
    returnData q len (updQueue q (fun x => { x with dataUsed := x.dataUsed + len }) (violateSeq q seq VK.dataAfterLast s))
  else takeUnits q len seq off last body s

/-- A CTRL message in its place: ABORT, then STOP (03 R74, Table 3.16). -/
def takeCtrl (q : Nat) (body : List Word) (s : State) : State :=
  let w := body.getD 0 0
  let s := if wbit w 2 then abortSeq q (wbits w 16 48) s else s
  if wbit w 0 then stopCmd q s else s

/-- Handle the numbered message that is next in its stream. -/
def takeNumbered (q : Nat) (w0 w1 : Word) (body : List Word) (s : State) : State :=
  let typ := wbits w0 0 4
  let len := wbits w0 8 7
  let seq := wbits w0 16 48
  if len == 0 || decide (64 < len) then msgBreach q seq VK.badMessage s else
  let s := updQueue q (fun x => { x with rxNext := x.rxNext + 1 }) s
  if typ == MT.cmd then takeCmd q len seq body s
  else if typ == MT.data then takeData q len seq (wbits w1 0 32) (wbit w0 15) body s
  else takeCtrl q body s

/-- Handle the messages that waited for the one now handled. -/
def drainEarly (q : Nat) : Nat → State → State
  | 0, s => s
  | f + 1, s =>
    let x := queue s q
    match mfind x.rxNext x.early with
    | none => s
    | some m => drainEarly q f (takeNumbered q m.w0 m.w1 m.body (updQueue q (fun y => { y with early := mdel x.rxNext y.early }) s))

/-- A numbered message: duplicates are discarded, early ones wait (03 R58). -/
def receiveNumbered (q : Nat) (w0 w1 : Word) (body : List Word) (s : State) : State :=
  let x := queue s q
  let d := (wbits w1 32 32 + 2 ^ 32 - x.rxNext % 2 ^ 32) % 2 ^ 32
  if 2 ^ 31 ≤ d then s
  else if d == 0 then drainEarly q (x.early.length + 1) (takeNumbered q w0 w1 body s)
  else if (mfind (x.rxNext + d) x.early).isSome then s
  else updQueue q (fun x => { x with early := mput (x.rxNext + d) { w0 := w0, w1 := w1, body := body } x.early }) s

/-- A CREDIT message: the cumulative result units granted, capped 2^31 above those consumed (03 R59, Table 3.13). Counts are compared modulo 2^32, so a message that comes late, with a count below the units consumed, stands beyond the cap and is answered as one that exceeds it (DEDUCED, log 68). -/
def takeCredit (q : Nat) (body : List Word) (s : State) : State :=
  let x := queue s q
  let d := (wbits (body.getD 2 0) 0 32 + 2 ^ 32 - x.resUsed % 2 ^ 32) % 2 ^ 32
  let s := if 2 ^ 31 < d then vlog VK.creditExcess 0 q 0 0 0 s else s
  let s := updQueue q (fun x => { x with resGrant := max x.resGrant (x.resUsed + min d (2 ^ 31)) }) s
  match running s with
  | some o => if o.queue == q then pumpResults q o.seq (portArrival q o.seq s) else s
  | none => s

/-- A message of the compute die, in the order of Table 3.13. -/
def receiveMsg (w0 w1 : Word) (body : List Word) (s : State) : State :=
  if pstate s != 1 then s else
  let typ := wbits w0 0 4
  let q := wbits w0 4 4
  let len := wbits w0 8 7
  let seq := wbits w0 16 48
  let s := pmc PMC.cptRx none (txModule s) none len s
  let badLen := len == 0 || decide (64 < len)
  let numbered := typ == MT.cmd || typ == MT.data || typ == MT.ctrl
  if numbered && (queue s q).state == 2 then s
  else if (!numbered && typ != MT.credit) || (badLen && (!numbered || (queue s q).state == 0)) then vlog VK.badMessage 0 q seq 0 0 s
  else if (queue s q).state == 0 then vlog VK.queueDisabled 0 q seq 0 0 s
  else if numbered then receiveNumbered q w0 w1 body s
  else takeCredit q body s

/-! ### Time limits (03 R67, R77) -/

def portTimeout (s : State) (q : Nat) : Nat := fget s (R.CMD_Qj_CFG q) F.CMD_Qj_CFG_PORT_TIMEOUT

/-- The running operation of a queue has waited longer than its PORT_TIMEOUT, in µs, since the last arrival of data or credit for it; the wait is counted as any other (03 R67). -/
def expirePort (q : Nat) (s : State) : State :=
  match running s with
  | some o =>
    if o.queue == q && portTimeout s q != 0 && decide (1000 * portTimeout s q < s.aon - o.lastIn) && !o.endNow && waitsPort o then
      cancelOp q o.seq (opViolation q o.seq VK.portTimeout 0 0 0 s)
    else s
  | none => s

/-- A message has been missing longer than PORT_TIMEOUT while later ones wait. -/
def expireGap (q : Nat) (s : State) : State :=
  let x := queue s q
  if x.state == 1 && !x.early.isEmpty && portTimeout s q != 0 then msgBreach q 0 VK.streamGap s else s

/-! ### Enabling and disabling a slot (03 R55) -/

/-- The queue of a slot that an apply enables. -/
def enableQueue (q : Nat) (s : State) : State :=
  let s := { s with regs := mdel (R.CMD_Qj_DONE q) s.regs }
  sendCredit q (updQueue q (fun _ => { state := 1, nextSeq := 1, cmdGrant := 512, dataGrant := 8192 }) s)

def disableQueue (q : Nat) (s : State) : State := updQueue q (fun _ => {}) s

end Sys2Proof.Machine
end

