-- ==== Sys2Proof/Machine/Fence.lean ====
section
/-! DEFINITION. Fences of cores, resets of clusters and partitions, request epochs (14 R366 to R376; 07 R205). -/

namespace Sys2Proof.Machine

/-! ### Request epochs (14 R371) -/

/-- Raise the request epoch by one; the journal page takes it. -/
def raiseEpoch (s : State) : State :=
  let e := (placeEpoch s + 1) % 2 ^ 32
  fset R.MG_EPOCH F.MG_EPOCH_PLACE e (recordPlace e s)

/-! ### Tiles of a core (14 R369, step 2; R373, R376) -/

/-- Whether a fetch works for a tile. -/
def tileDest (id : Nat) (d : Dest) : Bool := match d with
  | .tile i _ => i == id
  | .part i _ _ _ => i == id
  | _ => false

/-- Whether a waiting request belongs to a tile. -/
def tileWaiter (id : Nat) (w : Waiter) : Bool := match w with
  | .tileRow _ _ i _ => i == id
  | _ => false

/-- The response that a freed tag is still to have: from this block's memory, or from a peer. -/
def lateOf (q seq : Nat) (f : Fetch) : Option Late := match f.src with
  | .far => some { tag := f.tag, epoch := f.epoch, src := none, queue := q, seq := seq }
  | .peer b => some { tag := f.tag, epoch := f.epoch, src := some b, queue := q, seq := seq }
  | _ => none

/-- A tile's fetches are absorbed, with what waits for it; the responses that are still to come belong to its operation (14 R372). -/
def absorbTile (q seq id : Nat) (s : State) : State :=
  let fs := s.fetches.filter fun f => tileDest id f.dest
  let s := each (fs.map (·.tag)) absorbTag { s with late := s.late ++ fs.filterMap (lateOf q seq) }
  let s := dropWaiters (tileWaiter id) (orphanReads (fun r => tileDest id r.dest) s)
  { s with tagWait := s.tagWait.filter fun x => !tileDest id x.2 }

/-- A tile as it runs from its beginning: what it has named and counted is not named and counted again (02 R40; 08 R212). -/
def Tile.fresh (t : Tile) : Tile := { newTile t.id t.epoch t.segs with named := t.named, touched := t.touched }

/-- Whether a tile is one of a bag's segments. -/
def Tile.ofBag (bag : Nat) (t : Tile) : Bool := t.segs.any fun g => g.bag == bag && decide (1 < g.nseg)

/-- One tile goes back to the front of its operation's queue, to run from its beginning (14 R373). -/
def requeueOne (q seq id : Nat) (s : State) : State :=
  match (findOp s q seq).bind fun o => o.tile id with
  | none => s
  | some t => updOp q seq (fun o => { o with tiles := o.tiles.filter (fun x => x.id != id), queueTiles := t.fresh :: o.queueTiles }) (absorbTile q seq id s)

/-- The long bag that a tile is replaying: the others of its segments restart with it from pass 0 (05 R132; 14 R373). -/
def Tile.replays (t : Tile) : Option Nat := if t.pass == 0 then none else (t.segs.find? fun g => decide (1 < g.nseg)).map (·.bag)

/-- A tile goes back, with the segments that must restart with it. -/
def requeueTile (q seq : Nat) (t : Tile) (s : State) : State :=
  match t.replays with
  | none => requeueOne q seq t.id s
  | some b =>
    let s := updOp q seq (fun o => { o with queueTiles := updWhere (Tile.ofBag b) Tile.fresh o.queueTiles }) s
    each (((((findOp s q seq).map (·.tiles)).getD []).filter (Tile.ofBag b)).reverse.map (·.id)) (requeueOne q seq) s

/-- The tiles that satisfy p leave their cores, what they have pooled with them. -/
def requeueTiles (p : Tile → Bool) (s : State) : State :=
  each s.ops (fun o s => each (o.tiles.filter p).reverse (requeueTile o.queue o.seq) s) s

/-- The key under which a job's gradient records wait on a directory. -/
def recsKey : Nat := 2 ^ 110

/-- Add a row of a running meridian to those yet to be dispatched. -/
def reTodo (slot key : Nat) (s : State) : State :=
  updMer slot (fun m => if m.phase == 3 then { m with todo := insertBy id key (m.todo.filter fun k => k != key) } else m) s

/-! ### Isolation (14 R369, steps 1 to 3) -/

def updPos (phys : Nat) (f : Pos → Pos) (s : State) : State := { s with pos := s.pos.modify phys f }

def posOf (s : State) (phys : Nat) : Pos := s.pos.getD phys { mark := 0, logical := 0, fenced := false, isolated := false }

/-- Whether a position is enabled and not fenced. -/
def enabled (s : State) (phys : Nat) : Bool := (posOf s phys).mark == 1 && !(posOf s phys).fenced

/-- What the vault of a core holds is lost: entries, contours, the pinned slots of its logical number, its part of the inset directory (08 Table 8.2, R222, R227). -/
def loseVault (phys : Nat) (s : State) : State :=
  let n := max 1 (coreCount s)
  let l := (posOf s phys).logical
  let s := { s with near := s.near.filter (fun e => !e.pieces.any fun p => p.vault == phys), contours := s.contours.filter fun x => x.1 / contourBand != phys }
  let s := each ((s.pins.map (·.1)).filter fun k => k % 2 ^ 32 % n == l) (fun k s => pinDrop (k / 2 ^ 32) (k % 2 ^ 32) s) s
  if s.idir.any fun e => e.vault == phys then sendPurge { s with idir := [] } else s

/-- Take up again what an absorbed request of a lost core was for: the row of a meridian, the row of a peer's request. -/
def takeUp (r : TReq) (s : State) : State := match r.who with
  | .update slot key => reTodo slot key s
  | .serveRow id key => retryServe id key (match heldTag (.serve id key) s with
    | some t => absorbTag t s
    | none => s)
  | _ => s

/-- The requests of a core's engines that wait on faults are absorbed; the faults stay pending (09 R256). What they were for is taken up by other engines. -/
def absorbClients (phys : Nat) (s : State) : State :=
  let mine := fun (r : TReq) => r.client == CLI.gather phys || r.client == CLI.update phys
  let l := (s.fq.flatMap (fun x => x.2.waiters) ++ s.parked.map (·.req) ++ s.unissued).filter mine
  each l takeUp (dropReqs mine s)

/-- Isolate a core: its vault, its tiles, its updates and its waiting requests leave it. -/
def isolateCore (phys : Nat) (s : State) : State :=
  let s := updPos phys (fun p => { p with isolated := true }) (loseVault phys s)
  absorbClients phys (recoverCore phys (requeueTiles (fun t => t.core == phys) s))

/-! ### Completion of a fence (14 R368, R369, steps 4 to 6; 15 R403) -/

/-- The repair map's word for a position or an HBM port, without its factory field and its lists. -/
def repairWord (s : State) (i : Nat) : Nat := mgetD i 0 s.fieldRepair

def setRepair (i v : Nat) (s : State) : State := { s with fieldRepair := mputD i v 0 s.fieldRepair }

/-- FENCED set, FENCE_COUNT raised, the cause recorded (15 R394, R403, Table 15.9). -/
def repairFence (w cause : Nat) : Nat :=
  let c := min 3 (bits w 3 2 + 1)
  fld 2 1 1 + fld 3 2 c + fld 5 1 (if c == 3 || bits w 5 1 == 1 then 1 else 0) + fld 8 4 cause

/-- A core is fenced: shown, logged, counted and recorded. -/
def recordFence (phys cause : Nat) (s : State) : State :=
  let s := updPos phys (fun p => { p with fenced := true, isolated := true }) s
  let w := R.MG_FENCED0 + 8 * (phys / 64)
  let s := rset w (wset (rget s w) (phys % 64) 1 1) s
  let s := setRepair phys (repairFence (repairWord s phys) cause) s
  let s := fset R.MG_FENCE_STATE F.MG_FENCE_STATE_LAST_CAUSE cause (fset R.MG_FENCE_STATE F.MG_FENCE_STATE_LAST_CORE phys s)
  bump1 R.CNT_FENCE (setBit R.MG_FENCE_STATUS 0 (elog 0x01 EU.core phys cause 0 0 s))

/-- Words 2 to 6 of the core survey: N, SPARES_USED, FENCED and TEST_FAILED; the enabled positions; the cores per partition (15 Table 15.4). -/
def coreSurvey (s : State) (failed : Nat) : List Nat :=
  let on := (List.range 144).filter (enabled s)
  let word64 := fun (w : Nat) => sumNat ((on.filter fun i => i / 64 == w).map fun i => 2 ^ (i % 64))
  let spares := (on.filter fun i => s.factory.getD i 0 == 2).length
  let fenced := (s.pos.filter (·.fenced)).length
  [fld 0 8 on.length + fld 8 8 spares + fld 16 8 fenced + fld 24 8 failed, word64 0, word64 1, word64 2,
    sumNat ((List.range 4).map fun p => fld (8 * p) 8 (on.filter fun i => partitionOf i == p).length)]

/-- A fence during a start, after the stage of the cores: its survey takes the result (15 R400). -/
def surveyFence (s : State) : State :=
  if decide (s.stage < 4) || decide (8 < s.stage) then s else
  each (coreSurvey s (wbits (rget s (R.SRV_REPORTk_Ww 3 2)) 24 8)).zipIdx (fun x s => rset (R.SRV_REPORTk_Ww 3 (2 + x.2)) (word x.1) s) s

/-- A block without cores stops every queue and reports it (14 R368; 17 Table 17.3, bit 4). -/
def noCore (s : State) : State := errBit 4 (each (List.range 16) stopCmd s)

/-- The fence ends without a spare: the core of the highest logical number takes the fenced core's, and n falls (08 Table 8.2). -/
def fenceWithout (f : Fence) (s : State) : State :=
  let l := (posOf s f.core).logical
  let last := coreCount s - 1
  let s := { recordFence f.core f.cause s with fence := none }
  let s := { s with pos := updWhere (fun p => p.mark == 1 && !p.fenced && p.logical == last) (fun p => { p with logical := l }) s.pos }
  let s := surveyFence (discardNear s)
  if coreCount s == 0 then noCore s else s

/-- The fence ends with its spare enabled under the fenced core's logical number; its vault enters service empty. -/
def fenceWith (f : Fence) (s : State) : State :=
  let l := (posOf s f.core).logical
  let s := { recordFence f.core f.cause s with fence := none }
  surveyFence (bump1 R.CNT_SPARE_USED (updPos f.spare (fun p => { p with mark := 1, logical := l, isolated := false }) s))

/-- The lowest spare of a core's cluster that is not fenced. -/
def spareOf (s : State) (phys : Nat) : Option Nat :=
  ((List.range 9).map fun i => phys / 9 * 9 + i).find? fun i => (posOf s i).mark == 2 && !(posOf s i).fenced

/-- A fence goes on to a spare of its cluster, or ends without one. -/
def seekSpare (core cause : Nat) (s : State) : State :=
  match spareOf s core with
  | some i => { s with fence := some { core := core, cause := cause, spare := i } }
  | none => fenceWithout { core := core, cause := cause, spare := 0 } s

/-- Begin a fence: steps 1 to 3, then the spare. -/
def beginFence (core cause : Nat) (s : State) : State := seekSpare core cause (isolateCore core (raiseEpoch s))

/-- Begin the fences that wait, one after another (14 R370). -/
def nextFence : Nat → State → State
  | 0, s => s
  | f + 1, s =>
    match s.fence, s.fenceQ with
    | none, (c, cause) :: r =>
      let s := { s with fenceQ := r }
      nextFence f (if enabled s c && !inScope s c then beginFence c cause s else s)
    | _, _ => s

/-- A fence cause for a core: absorbed into a reset of its cluster or partition, queued behind a fence in progress, or acted on (14 R366, R370). A position that is not enabled has no fence; in stage 3, in which cores are yet to be enabled, it is recorded as fenced, and the stage enables it no more (15 R400). -/
def fenceCause (core cause : Nat) (s : State) : State :=
  if s.stage == 3 then (if s.factory.getD core 0 == 0 || (posOf s core).fenced then s else recordFence core cause (raiseEpoch s))
  else if !enabled s core || inScope s core then s
  else match s.fence with
    | some f => if f.core == core || s.fenceQ.any (fun x => x.1 == core) then s else { s with fenceQ := s.fenceQ ++ [(core, cause)] }
    | none => nextFence (s.fenceQ.length + 1) (beginFence core cause s)

/-- The spare in test passes, or is itself fenced and the next one is tried (14 R366, R368). -/
def spareTested (position : Nat) (pass : Bool) (s : State) : State :=
  match s.fence with
  | none => s
  | some f =>
    if f.spare != position then s else
    let s := if pass then fenceWith f s else seekSpare f.core f.cause (recordFence position 6 (raiseEpoch s))
    nextFence (s.fenceQ.length + 1) s

/-! ### Resets of a cluster or partition (14 R375) -/

/-- Positions of a scope. -/
def Scope.positions (c : Scope) : List Nat := if c.partition then (List.range 36).map (36 * c.index + ·) else (List.range 9).map (9 * c.index + ·)

/-- VSET of a partition, in mV. -/
def vsetMv (s : State) (p : Nat) : Nat := wbits (rget s R.PWR_VSET) (16 * p) 10

/-- target(p), in mV (13 R350). -/
def vtarget (s : State) (p : Nat) : Nat := min (vsetMv s p) (min (s.therm.getD p 750) s.pwrCeil)

/-- The core supplies of a partition are removed, where the scope is one (Table 14.4). They rise again, once it ends, at the rate of 13 R350. -/
def scopeVolts (c : Scope) (s : State) : State := if c.partition then { s with volts := s.volts.set c.index 0 } else s

/-- Reset a cluster or a partition: every enabled core of it is isolated as by a fence, under one raise of the epoch. cause is the DETAIL of the log entry. -/
def resetScope (partition : Bool) (index cause : Nat) (s : State) : State :=
  let c : Scope := { partition := partition, index := index }
  if s.scopes.contains c || (if partition then decide (4 ≤ index) else decide (16 ≤ index)) then s else
  let cores := c.positions.filter fun i => enabled s i && !(posOf s i).isolated
  let s := each cores isolateCore (raiseEpoch (scopeVolts c { s with scopes := s.scopes ++ [c] }))
  let s := setBit R.MG_FENCE_STATUS 1 s
  if partition then bump1 R.CNT_PART_RESET (elog 0x03 EU.partition index cause 0 0 s)
  else bump1 R.CNT_CLUSTER_RESET (elog 0x02 EU.cluster index cause 0 0 s)

/-- The oldest reset in progress ends: cores that pass their self-test return, cores that fail are fenced with cause 6. -/
def endScope (failed : List Nat) (s : State) : State :=
  match s.scopes with
  | [] => s
  | c :: r =>
    let s := { s with scopes := r }
    let mine := c.positions.filter fun i => enabled s i && !inScope s i && !(match s.fence with
      | some f => f.core == i
      | none => false)
    let s := each (mine.filter fun i => !failed.contains i) (fun i s => updPos i (fun p => { p with isolated := false }) s) s
    each (mine.filter fun i => failed.contains i) (fun i s => fenceCause i 6 s) s

/-- MG_FENCE_CTRL: the action a write names (14 Table 14.9). -/
def fenceCtrl (w : Word) (s : State) : State :=
  let i := wbits w 0 8
  let a := wbits w 8 2
  if a == 1 then fenceCause i 5 s else if a == 2 then resetScope false i 1 s else if a == 3 then resetScope true i 1 s else s

/-- MG_FENCE_STATE.BUSY. -/
def fenceBusy (s : State) : Bool := s.fence.isSome || !s.scopes.isEmpty

end Sys2Proof.Machine
end

