-- ==== Sys2Proof/Machine/NearMem.lean ====
section
/-! DEFINITION. Insets at their holders, contours and pinned regions: REFRESH, REFRESH_MARK, WITHDRAW, PURGE and their acknowledgements, release notices, CONTOUR_DECAY, PIN_LOAD (08 R212, R222, R225 to R227; 02 R48). -/

namespace Sys2Proof.Machine

/-- A packet of a job that is not enabled here is logged and discarded (10 Table 10.10). -/
def jobAbsent (port : Nat) (s : State) : State := bump1 R.CNT_LNK_DISCARD (vlog VK.jobAbsent (portSource port) 0 0 0 0 s)

/-! ### Holders of insets -/

/-- Handle REFRESH: the inset's copy is replaced, or the refresh is dropped (08 R224, R225, item 2). -/
def recvRefresh (port : Nat) (p : Packet) (s : State) : State :=
  match slotOfJob s p.jobId with
  | none => jobAbsent port s
  | some slot =>
    let w := leAt p.body 0 8
    let t := bits (leAt p.body 8 8) 0 48
    let row := bits (leAt p.body 16 8) 0 40
    let mine := fun (e : NEntry) => e.is slot (bits w 0 12) (bits w 12 16) row NK.inset
    let new := fun (e : NEntry) => { e with content := t, data := insetData t e.expiry (p.body.drop 24) }
    if s.near.any mine || s.victim.any (fun x => mine x.2) then
      { s with near := updWhere mine new s.near, victim := s.victim.map fun x => if mine x.2 then (x.1, new x.2) else x }
    else bump1 R.CNT_INSET_REFRESH_DROP s

/-- Handle REFRESH_MARK: the step of the last marker received counts for the owner's insets, and for the meridian (07 R200; 08 R225). -/
def recvRefreshMark (port : Nat) (p : Packet) (s : State) : State :=
  match slotOfJob s p.jobId with
  | none => jobAbsent port s
  | some slot =>
    let t := bits (leAt p.body 0 8) 0 48
    updJob slot (fun j => { j with refreshed := mput p.src (max t (mgetD p.src 0 j.refreshed)) j.refreshed })
      { s with markerM := mput p.src t s.markerM }

/-- The acknowledgement of a withdrawal or purge: its KIND and ESEQ (10 Table 10.7; DESIGN CHOICE of the places, log 17). -/
def ackAwaited (p : Packet) (s : State) : State := sendPacket p.src CL.rsp K.ack p.jobId (leBytes 8 (fld 8 8 p.kind + fld 32 32 p.eseq)) s

/-- Handle WITHDRAW: the named insets are discarded (08 R226). -/
def recvWithdraw (port : Nat) (p : Packet) (s : State) : State :=
  match slotOfJob s p.jobId with
  | none => ackAwaited p (jobAbsent port s)
  | some slot =>
    let w := leAt p.body 0 8
    let first := leAt p.body 8 8
    let count := leAt p.body 16 8
    let named := fun (e : NEntry) => e.slot == slot && e.table == bits w 0 12 && (bits w 12 16 == 0 || e.version == bits w 12 16) && (match findDesc s slot e.table e.version with
      | some d => d.ownerSlot e.row == bits w 28 6 && decide (first ≤ d.localIndex e.row) && decide (d.localIndex e.row < first + count)
      | none => true)
    ackAwaited p (withdrawInsets named s)

/-- Handle PURGE: every inset of the sender goes, and its marker step is zero (08 R227). -/
def recvPurge (p : Packet) (s : State) : State :=
  let theirs := fun (e : NEntry) => e.kind == NK.inset && (match findDesc s e.slot e.table e.version with
    | some d => d.owner e.row == p.src
    | none => true)
  let s := { s with near := s.near.filter (fun e => !theirs e), victim := s.victim.filter (fun x => !theirs x.2), markerM := mdel p.src s.markerM }
  ackAwaited p (setBit R.NM_STATUS 4 (bump1 R.CNT_INSET_PURGE s))

/-- A withdrawal or purge is acknowledged by one block: what every block has acknowledged waits no more. -/
def awaitAcked (src eseq : Nat) (s : State) : State :=
  { s with awaits := (s.awaits.map fun a => { a with owed := a.owed.filter fun x => x != (src, eseq) }).filter fun a => !a.owed.isEmpty }

/-- A block that is lost, or has restarted, acknowledges nothing more. -/
def awaitForget (block : Nat) (s : State) : State :=
  { s with awaits := (s.awaits.map fun a => { a with owed := a.owed.filter fun x => x.1 != block }).filter fun a => !a.owed.isEmpty }

/-- Handle RELEASE: the notice is held; the version retires when every notice and this block's own release are held. A notice for a job that no enabled slot holds, or of a version that is neither SERVING nor DRAINING here, is discarded without a log entry (02 R48). -/
def recvRelease (p : Packet) (s : State) : State :=
  match slotOfJob s p.jobId with
  | none => s
  | some slot =>
    let w := leAt p.body 0 8
    match findDesc s slot (bits w 0 12) (bits w 12 16) with
    | none => s
    | some d => if d.state != 2 && d.state != 3 then s else tryRetire slot d.tableId d.version (putDesc slot { d with notices := maskSet d.notices p.src } s)

/-! ### Contours and pinned regions -/

/-- Halve every contour, rounding down (08 R212, item 2). -/
def decayContours (s : State) : State := { s with contours := (s.contours.map fun x => (x.1, x.2 / 2)).filter fun x => x.2 != 0 }

/-- The lines of a span, translated for a gather engine without raising a fault; a line of host memory bears 64 more than its selector (DESIGN CHOICE: pin loading raises no fault, log 18). -/
def quietLines (r : TReq) : Nat → Nat → List (Nat × Nat) → State → Option (List (Nat × Nat)) × State
  | 0, _, acc, s => (some acc.reverse, s)
  | f + 1, va, acc, s =>
    match translate true { r with va := va } s with
    | (.ok e, s) => if e.typ == 1 || e.typ == 2 then quietLines r f (va + 64) ((e.at va, if e.typ == 2 then 64 + e.key else e.key) :: acc) s else (none, s)
    | (_, s) => (none, s)

/-- The lines of a span for pin loading; none where one faults. -/
def quietSpan (client slot va n : Nat) (s : State) : Option (List (Nat × Nat)) × State :=
  quietLines { client := client, ctx := slotCtx s slot, va := 0, write := false, source := 0, who := .probe } (spanLines va n) (lineOf va) [] s

/-- The bytes of lines of far memory for pin loading; none where one is uncorrectable. -/
def quietBytes (ls : List (Nat × Nat)) (va n : Nat) (s : State) : Option Bytes × State :=
  match linesUE s ls with
  | some pa => (none, hbmUE pa s)
  | none => (some (slice (readLines s ls) (va % 64) n), each ls (fun x s => pmc PMC.farRead none (some (stackOf x.1)) none 1 s) s)

/-- A version's legend for pin loading: none where it is not all in far memory, or cannot be read. -/
def quietLegend (slot : Nat) (d : Desc) (s : State) : Option Bytes × State :=
  if !d.usesLegend then (some [], s) else
  match quietSpan CLI.command slot d.legendBase d.width s with
  | (some ls, s) => if ls.any hostLine then (none, s) else quietBytes ls d.legendBase d.width s
  | (none, s) => (none, s)

/-- The part of a pinned row is at hand: its slot is filled. The gather engine that derives its copy is that of the row's home vault (05 R145; DESIGN CHOICE, log 90). -/
def pinPart (k slot : Nat) (d : Desc) (row key i : Nat) (legend part : Bytes) (s : State) : State :=
  let (copy, f) := deriveCopy d legend part
  pinFill k i row key copy (poolFlags (homeVault s slot d.tableId row) f s)

/-- A fill of a pinned spilled row has its part (08 R238, item 2). -/
def fillPin (f : Fetch) (k i : Nat) (part : Bytes) (s : State) : State :=
  match findDesc s f.slot f.table f.version with
  | some d =>
    (match (if pinOf s f.slot d f.row == some (k, i) && !f.stale then quietLegend f.slot d s else (none, bump R.CNT_NM_BYPASS (natOfBool f.stale) s)) with
     | (some l, s) => retireTag f.tag (pinPart k f.slot d f.row (linesKey f.lines) i l part s)
     | (none, s) => retireTag f.tag s)
  | none => absorbTag f.tag s

/-- Fill the slot of entry i of a region, if it is invalid and its row can be read. -/
def pinLoadSlot (k slot sheet : Nat) (d : Desc) (legend : Bytes) (i : Nat) (s : State) : State :=
  if pinState s k != 1 then s else
  let held := match mfind (pinKey k i) s.pins with
    | some p => p.valid
    | none => false
  if held then s else
  let row := d.rowOf sheet (pinFirst s k + i)
  match quietSpan (CLI.gather (homeVault s slot d.tableId row)) slot (d.masterAddr row) d.mstride s with
  | (none, s) => s
  | (some ls, s) =>
    if ls.any hostLine then
      if !hostOpen s || spillShut s || s.fetches.any (fun f => f.dest == .pin k i) then s else
      match freeTag .own s with
      | none => s
      | some tag => beginFill tag .own (.pin k i) 16 0 slot d row 0 ls s
    else match quietBytes ls (d.masterAddr row) d.mstride s with
      | (some part, s) => pinPart k slot d row (linesKey ls) i legend part s
      | (none, s) => s

/-- Load a region's slots in ascending local index (08 R222, item 1); nothing during a trip (08 R237). -/
def pinLoad (k : Nat) (s : State) : State :=
  if pinState s k != 1 || tripped s then s else
  let slot := pinA s k F.NM_PINk_A_SLOT
  match findDesc s slot (pinA s k F.NM_PINk_A_TABLE_ID) (pinA s k F.NM_PINk_A_VERSION) with
  | none => s
  | some d =>
    match d.sheetOf (self s) with
    | none => s
    | some sheet =>
      match quietLegend slot d s with
      | (none, s) => s
      | (some legend, s) => each (List.range (pinA s k F.NM_PINk_A_COUNT)) (pinLoadSlot k slot sheet d legend) s

end Sys2Proof.Machine
end

