-- ==== Sys2Proof/Machine/Windows.lean ====
section
/-! DEFINITION. Remote windows on both sides, and the host window (09 R264, R265; 10 Tables 10.7 and 10.8; 11 R299 to R302). -/

namespace Sys2Proof.Machine

/-! ### The host window (11 R299 to R301) -/

/-- KIND of HST_WIN_FAULT beyond the fault kinds of 09 Table 9.6 (11 Table 11.12). -/
def WF.poison : Nat := 6
def WF.refused : Nat := 7
def WF.farUE : Nat := 8
def WF.timeout : Nat := 9
def WF.host : Nat := 10

def winBase : Nat := 2 ^ 32

/-- The payloads of a read's completions: at most 512 bytes each, every one but the last up to a multiple of 512 (11 Table 11.1). -/
def cplPayloads : Nat → Nat → Bytes → List Bytes
  | 0, _, _ => []
  | f + 1, a, d => if d.length ≤ 512 - a % 512 then [d] else d.take (512 - a % 512) :: cplPayloads f (a + (512 - a % 512)) (d.drop (512 - a % 512))

/-- Complete a host read of an address with its data (11 R304: on the path of the request). -/
def hostCplOk (tc addr : Nat) (data : Bytes) (s : State) : State := each (cplPayloads (data.length + 1) addr data) (fun d s => hostCplSend tc .success d s) s

/-- Complete a host request with Unsupported Request or Completer Abort, which is counted (11 R313). -/
def hostCplFail (st : CplStatus) (tc : Nat) (s : State) : State := hostCplSend tc st [] (bump1 R.CNT_HST_REFUSED s)

/-- A window request at an offset fails in a line: counted, logged under the request's address, the line recorded if no earlier failure is; a read is completed with Completer Abort, a write is discarded whole (11 R300, R313). -/
def winFail (tc : Nat) (write : Bool) (off line kind : Nat) (s : State) : State :=
  let s := hostVlogOpen VH.winFault (winBase + off) (bump1 R.CNT_HST_WIN_FAULT s)
  let s := if fbit s R.HST_WIN_FAULT F.HST_WIN_FAULT_VALID then s
    else rset R.HST_WIN_FAULT (word (fld 0 32 line + fld 32 4 kind + fld 36 1 (natOfBool write) + fld 37 1 1)) s
  let s := setBit R.HST_STATUS 2 s
  if write then s else hostCplFail .abort tc s

/-- Translate one line of the window: its entry, or the kind of the failure. -/
def winLine (va : Nat) (write : Bool) (s : State) : (Option TEnt × Nat) × State :=
  if vaEnd ≤ va then ((none, FK.notMapped), s) else
  let ctx := fget s R.HST_WIN_CFG F.HST_WIN_CFG_CTX
  match lookup false CLI.hostWin ctx va s with
  | (.bad _ _ _, _, s) => ((none, FK.badEntry), s)
  | (.hole _ _, _, s) => ((none, FK.notMapped), s)
  | (.entry e, _, s) =>
    match checkEnt s write e with
    | some 0 => ((none, WF.poison), bump1 R.CNT_TLB_POISON s)
    | some k => ((none, k), s)
    | none =>
      let s := if e.acct then hotAccess ctx va s else s
      if e.typ == 2 then ((none, WF.host), s) else ((some e, 0), s)

/-- Translate the lines of a request, in order: the position of each and its entry, or the first failure. -/
def winLines (base : Nat) (write : Bool) : Nat → Nat → List (Nat × TEnt) → State → (List (Nat × TEnt) × Option (Nat × Nat)) × State
  | 0, _, acc, s => ((acc.reverse, none), s)
  | f + 1, off, acc, s =>
    match winLine (base + off) write s with
    | ((some e, _), s) => winLines base write f (off + 64) ((off, e) :: acc) s
    | ((none, k), s) => ((acc.reverse, some (off, k)), s)

/-- The piece of a request that lies in one line. -/
def linePiece (base off len : Nat) (data : Bytes) (write : Bool) (x : Nat × TEnt) : WinPiece :=
  let lo := max off x.1
  let n := min (off + len) (x.1 + 64) - lo
  let (b, w, o) := x.2.remote (base + lo)
  { pos := lo - off, n := n, far := x.2.typ == 1, block := b, win := w, off := if x.2.typ == 1 then x.2.at (base + lo) else o, key := x.2.key,
    data := if write then slice data (lo - off) n else [], done := false }

/-- Whether a piece covers whole lines. -/
def WinPiece.whole (p : WinPiece) : Bool := p.off % 64 == 0 && p.n % 64 == 0

/-- Join the pieces that follow one another in one remote window, up to 8,192 bytes of lines; a write of part of a line stays alone (11 R301). -/
def joinPieces (write : Bool) : List WinPiece → List WinPiece
  | [] => []
  | x :: r =>
    match joinPieces write r with
    | y :: t =>
      if !x.far && !y.far && x.block == y.block && x.win == y.win && x.off + x.n == y.off && decide (spanLines x.off (x.n + y.n) ≤ 128)
        && (!write || (x.whole && y.whole))
      then { x with n := x.n + y.n, data := x.data ++ y.data } :: t else x :: y :: t
    | [] => [x]

/-- A far-memory piece that its request cannot use: an uncorrectable line under a read, or under a write of part of it (11 R301). -/
def pieceUE (s : State) (write : Bool) (p : WinPiece) : Bool := p.far && farUE s p.off p.n && !(write && p.off % 64 == 0 && p.n == 64)

def findWin (s : State) (rid : Nat) : Option WinReq := s.winReqs.find? fun w => w.rid == rid

def updWin (rid : Nat) (f : WinReq → WinReq) (s : State) : State := { s with winReqs := updWhere (fun w => w.rid == rid) f s.winReqs }

def winDest (rid : Nat) (d : Dest) : Bool := match d with
  | .window r _ => r == rid
  | _ => false

/-- A request ends: what is outstanding for it will be absorbed. -/
def dropWin (rid : Nat) (s : State) : State :=
  { s with
    winReqs := s.winReqs.filter fun w => w.rid != rid
    fetches := updWhere (fun f => winDest rid f.dest) (fun f => { f with dest := .nobody }) s.fetches
    tagWait := s.tagWait.filter fun x => !winDest rid x.2 }

/-- A piece of a request fails, and the request with it. -/
def winPieceFail (rid i kind : Nat) (s : State) : State :=
  match findWin s rid with
  | none => s
  | some w => winFail w.tc w.write w.off (lineOf (w.off + ((w.pieces[i]?).map (·.pos)).getD 0)) kind (dropWin rid s)

/-- Carry out the far-memory pieces of a request whose other pieces are done, and complete it. -/
def winFinish (rid : Nat) (s : State) : State :=
  match findWin s rid with
  | none => s
  | some w =>
    if !w.pieces.all (fun p => p.far || p.done) then s else
    match findIdx (pieceUE s w.write) w.pieces with
    | some i => winPieceFail rid i WF.farUE (hbmUE (((w.pieces[i]?).map (·.off)).getD 0) s)
    | none =>
      let s := dropWin rid s
      if w.write then each (w.pieces.filter (·.far)) (fun p s => farWrite (keyOf s p.key) p.off p.data s) s
      else hostCplOk w.tc w.off (w.pieces.flatMap fun p => if p.far then farRead s (keyOf s p.key) p.off p.n else p.data) s

/-- Send one remote piece, when it has a tag (11 R301). Window accesses are of whole lines (10 Table 10.7): a read asks for the lines of its bytes; a write of part of a line reads the line first, as one of far memory does (DESIGN CHOICE, log 20). -/
def winSend (rid i : Nat) (s : State) : State :=
  match (findWin s rid).bind fun w => (w.pieces[i]?).map fun p => (w, p) with
  | none => s
  | some (w, p) =>
    if p.far || p.done then s
    else if !reachable s p.block then winPieceFail rid i WF.refused s
    else match freeTag .own s with
      | none => { s with tagWait := s.tagWait ++ [(.own, .window rid i)] }
      | some t =>
        let s := addFetch (plainFetch s t (.window p.block) (.window rid i) 0) s
        let lo := lineOf p.off
        if w.write && p.whole then sendPacket p.block CL.req K.winWrite 0 (winHead p.off p.win true p.n t ++ p.data) s
        else sendPacket p.block CL.req K.winRead 0 (winHead lo p.win true (64 * spanLines p.off p.n) t) s

/-- Begin a window request (11 R299 to R301). -/
def winStart (tc : Nat) (write : Bool) (off len : Nat) (data : Bytes) (s : State) : State :=
  let s := bump1 (if write then R.CNT_HST_WIN_WR else R.CNT_HST_WIN_RD) s
  if !fbit s R.HST_WIN_CFG F.HST_WIN_CFG_ENABLE then
    let s := hostVlogOpen VH.winDisabled (winBase + off) s
    if write then s else hostCplFail .unsupported tc s
  else
    let base := fget s R.HST_WIN_CFG F.HST_WIN_CFG_BASE * 4096
    match winLines base write (spanLines off len) (lineOf off) [] s with
    | ((_, some (o, k)), s) => winFail tc write off o k s
    | ((ls, none), s) =>
      let (rid, s) := newId s
      let ps := joinPieces write (ls.map (linePiece base off len data write))
      let s := { s with winReqs := s.winReqs ++ [{ rid := rid, ctx := fget s R.HST_WIN_CFG F.HST_WIN_CFG_CTX, va := base + off, tc := tc, write := write, off := off, len := len, pieces := ps, old := false }] }
      -- a write that meets an uncorrectable line is discarded whole, before any of it is made
      match findIdx (pieceUE s write) ps with
      | some i => winPieceFail rid i WF.farUE (hbmUE (((ps[i]?).map (·.off)).getD 0) s)
      | none => winFinish rid (each (List.range ps.length) (winSend rid) s)

/-- The line that a write of part of it makes: its bytes in place of those read. -/
def WinPiece.merged (p : WinPiece) (line : Bytes) : WinPiece :=
  let o := p.off % 64
  { p with off := lineOf p.off, n := 64, data := padTo o (line.take o) ++ p.data ++ slice line (o + p.n) (64 - o - p.n) }

/-- A piece is answered: a write of part of a line, by the line it merges with, and it goes on as a write of that line; any other is done. -/
def winPieceDone (rid i : Nat) (data : Bytes) (s : State) : State :=
  match (findWin s rid).bind fun w => (w.pieces[i]?).map fun p => (w, p) with
  | none => s
  | some (w, p) =>
    let put := fun (p : WinPiece) => updWin rid (fun w => { w with pieces := w.pieces.set i p }) s
    if w.write && !p.whole then winSend rid i (put (p.merged data))
    else winFinish rid (put { p with done := true, data := if data.isEmpty then p.data else slice data (p.off % 64) p.n })

/-- A piece was not answered in time (11 R301). -/
def remoteTimeout (tag : Nat) (s : State) : State :=
  match findFetch s tag with
  | some f =>
    (match f.dest with
     | .window rid i => winPieceFail rid i WF.timeout s
     | _ => s)
  | none => s

/-- HST_WIN_CFG as written: later requests use it, and the window unit's buffer is empty (11 R302). -/
def writeWinCfg (v : Word) (s : State) : State :=
  let s := rset R.HST_WIN_CFG (word (fld 0 1 (wbits v 0 1) + fld 2 6 (wbits v 2 6) + fld 12 45 (wbits v 12 45))) s
  { s with l1 := mdel CLI.hostWin s.l1, winReqs := s.winReqs.map fun w => { w with old := true } }

/-! ### The receiver of a window (09 R264, R265) -/

def winEnabled (s : State) (w src : Nat) : Bool :=
  fbit s (R.TLB_WINw_CFG w) F.TLB_WINw_CFG_ENABLE && wbit (rget s (R.TLB_WINw_ALLOW w)) src

/-- A receiver's answer to a window access that fails. -/
def winError (p : Packet) (code : Nat) (s : State) : State := sendError p.src p.jobId (requestTag p) code 0 s

/-- Translate the lines of a window access: address, selector and place of each. -/
def recvLines (r : TReq) (nowait : Bool) : Nat → Nat → List (Nat × Nat) → State → (TRes × List (Nat × Nat)) × State
  | 0, _, acc, s => ((.ok { ctx := 0, lo := 0, hi := 0, typ := 1, rd := true, wr := true, acct := false, key := 0, target := 0, fatal := false }, acc.reverse), s)
  | f + 1, va, acc, s =>
    match translate nowait { r with va := va } s with
    | (.ok e, s) => if e.typ == 1 then recvLines r nowait f (va + 64) ((e.at va, e.key) :: acc) s else ((.fatal, []), s)
    | (x, s) => ((x, []), s)

/-- Whether a write of part of a line meets an uncorrectable one. -/
def partUE (s : State) (ls : List (Nat × Nat)) (off n : Nat) : Option Nat :=
  (ls.zipIdx.find? fun x => farUE s x.1.1 64 && !(decide (off ≤ 64 * x.2) && decide (64 * (x.2 + 1) ≤ off + n))).map (·.1.1)

/-- A window access at its receiver. The access waits where a line faults, unless it carries NOWAIT. -/
def recvWindow (p : Packet) (s : State) : State :=
  let w0 := leAt p.body 0 8
  let va := bits w0 0 57
  let win := bits w0 57 4
  let n := bits (leAt p.body 8 8) 0 14
  let write := p.kind == K.winWrite
  if !winEnabled s win p.src then winError p EC.winRefused (setBit R.TLB_STATUS 6 (bump1 R.CNT_WIN_REFUSED s))
  else
    let r : TReq := { client := CLI.winRecv, ctx := 64 + win, va := 0, write := write, source := p.src, who := .winReq p.src p }
    match recvLines r (bits w0 61 1 == 1) (spanLines va n) (lineOf va) [] s with
    | ((.wait, _), s) => s
    | ((.fatal, _), s) => winError p EC.winFatal s
    | ((.ok _, ls), s) =>
      if write then
        match partUE s ls (va % 64) n with
        | some pa => winError p EC.farUE (hbmUE pa s)
        | none => sendPacket p.src CL.rsp K.winAck p.jobId (leBytes 8 (fld 0 18 (requestTag p))) (writeLines ls (va % 64) (slice p.body 16 n) s)
      else
        match linesUE s ls with
        | some pa => winError p EC.farUE (hbmUE pa s)
        | none =>
          let s := each ls (fun x s => pmc PMC.farRead none (some (stackOf x.1)) none 1 s) s
          sendPacket p.src CL.rsp K.winData p.jobId (leBytes 8 (fld 0 18 (requestTag p)) ++ slice (readLines s ls) (va % 64) n) s

/-! ### The requester of a window -/

/-- The fetch that a window's answer belongs to. -/
def winAnswered (s : State) (src tag : Nat) : Option Fetch :=
  (findFetch s tag).bind fun f => if f.src == .window src then some f else none

/-- A response that nothing outstanding answers to (10 Table 10.10). -/
def unsolicited (port : Nat) (s : State) : State := bump1 R.CNT_LNK_DISCARD (vlog VK.unsolicited (portSource port) 0 0 0 0 s)

/-- Handle WIN_DATA. -/
def recvWinData (port : Nat) (p : Packet) (s : State) : State :=
  match winAnswered s p.src (bits (leAt p.body 0 8) 0 18) with
  | none => unsolicited port s
  | some f =>
    match f.dest with
    | .opLine q seq va => addLines q seq va (p.body.drop 8) (retireTag f.tag s)
    | .window rid i => winPieceDone rid i (p.body.drop 8) (retireTag f.tag s)
    | _ => absorbTag f.tag s

/-- Handle WIN_ACK. -/
def recvWinAck (port : Nat) (p : Packet) (s : State) : State :=
  match winAnswered s p.src (bits (leAt p.body 0 8) 0 18) with
  | none => unsolicited port s
  | some f =>
    match f.dest with
    | .opWrite q seq wid => dropWrite q seq wid (retireTag f.tag s)
    | .window rid i => winPieceDone rid i [] (retireTag f.tag s)
    | _ => absorbTag f.tag s

/-- A write of an operation that its receiver has not made. -/
def writeError (port src code q seq wid : Nat) (s : State) : State :=
  match (findOp s q seq).bind fun o => o.writes.find? fun w => w.wid == wid with
  | none => s
  | some w =>
    if w.what == WK.record || code == EC.winRefused || code == EC.winFatal || code == EC.farUE then opWriteFail q seq w s
    else errorEnd port src code q seq (dropWrite q seq wid s)

/-- Handle ERROR: the requester acts as 10 Table 10.8 states. -/
def recvError (port : Nat) (p : Packet) (s : State) : State :=
  let w := leAt p.body 0 8
  let tag := bits w 0 18
  let code := bits w 24 8
  match (match winAnswered s p.src tag with
    | some f => some f
    | none => answered s p.src tag (bits w 32 16)) with
  | none => unexpected port p.src tag (bits w 32 16) s
  | some f =>
    match f.dest with
    | .window rid i => winPieceFail rid i (if code == EC.farUE then WF.farUE else WF.refused) (retireTag f.tag s)
    | .opWrite q seq wid => writeError port p.src code q seq wid (retireTag f.tag s)
    | .prefetch q seq _ _ => bump1 R.CNT_PF_DROP (retireTag f.tag (errorNote port p.src code q seq s))
    | .nobody => absorbTag f.tag s
    | _ =>
      match fetchOp s f with
      | some (q, seq) => errorEnd port p.src code q seq (retireTag f.tag s)
      | none => absorbTag f.tag s

end Sys2Proof.Machine
end

