-- ==== Sys2Proof/Machine/Faults.lean ====
section
/-! DEFINITION. Answers to faults, invalidations, roots, keys, hot pages (09 R247 to R262, R266). -/

namespace Sys2Proof.Machine

/-! ### Requests that wait on a fault (09 R255 to R257) -/

/-- Take up what a waiting request is for. -/
def reissueWho (r : TReq) (s : State) : State :=
  match r.who with
  | .tileRow q seq id key => completeTile q seq id (retryRow q seq id key s)
  | .serveRow id key => retryServe id key s
  | .opRead q seq va => (opReadLine q seq 1 va (updOp q seq (fun o => { o with reads := o.reads.filter fun l => l != va }) s)).2
  | .opWrite q seq wid => setWrite q seq wid (fun w => { w with out := false }) s
  | .update slot key => if key == recsKey then releaseRecs slot s else if key == admKey then passAgain slot s else reTodo slot key s
  | .winReq _ p => recvWindow p s
  | .probe => (translate false r s).2

/-- Issue a waiting request again: no parked request of its client holds it back (09 R257). -/
def reissue (r : TReq) (s : State) : State := { reissueWho r { s with reissued := some r.who } with reissued := none }

/-- Whether a held record waits for the directory bucket that holds an address. -/
def recWaits (s : State) (slot va : Nat) (x : Nat × Packet × Bool) : Bool :=
  let r := readRec x.2.1
  match findDesc s slot r.table r.version with
  | some d => !x.2.2 && d.admits && decide (lineOf (bucketVa d r.target) ≤ va) && decide (va < bucketVa d r.target + 128)
  | none => false

/-- A fatal fault on a directory leaves the records that wait for it without a row (DESIGN CHOICE, log 7). -/
def failRecs (slot va : Nat) (s : State) : State :=
  let l := (job s slot).held.filter (recWaits s slot va)
  let s := updJob slot (fun j => { j with held := j.held.filter fun x => !l.contains x }) s
  each l (fun x s =>
    let r := readRec x.2.1
    merCond slot r.step SC.partialMissing (bump R.CNT_GS_MISSING r.count (countRec slot false r s))) s

/-- A waiting request takes a fatal fault (04 R112; 06 R167; 07 R192; 09 R265). -/
def failReq (r : TReq) (s : State) : State :=
  match r.who with
  | .tileRow _ _ id key => tileMisses id key s
  | .serveRow id key => if key == legendKey then serveFail id EC.inputFault s else serveDone id (setServeRow id key .missing s)
  | .opRead q seq _ => opReadFail q seq s
  | .opWrite q seq wid =>
    (match (findOp s q seq).bind fun o => o.writes.find? fun w => w.wid == wid with
     | some w => opWriteFail q seq w s
     | none => opEnd q seq SC.faultFatal s)
  | .update slot key =>
    if key == recsKey then failRecs slot r.va s
    else if key == admKey then passAgain slot (passFatal slot s)
    else (match (job s slot).mer with
      | some m => rowMissing slot key SC.partialMissing m (unTodo slot key s)
      | none => s)
  | .winReq _ p => winError p EC.winFatal s
  | .probe => s

/-! ### Answers (09 R257, R258) -/

/-- A slot has become free: parked requests take their turn, and what they held back is issued. -/
def slotFreed (s : State) : State :=
  let s := unpark s
  let l := released s
  each l reissue { s with unissued := s.unissued.filter fun r => !l.contains r }

/-- The outcome of a walk for a pending fault: an entry that serves it, or its renewed kind and range. -/
def rewalk (s : State) (f : FqSlot) : TEnt ⊕ (Nat × Nat × Nat) :=
  match walk s f.ctx f.addr with
  | .bad lo hi _ => .inr (FK.badEntry, lo, hi)
  | .hole lo hi => .inr (FK.notMapped, lo, hi)
  | .entry e =>
    match checkEnt s f.write e with
    | none => .inl e
    | some k => if k == 0 then .inl e else .inr (k, e.lo, e.hi)

/-- The renewed walk for a pending fault is counted, and an uncorrectable error it meets (09 R245). -/
def countRewalk (f : FqSlot) (s : State) : State := match walk s f.ctx f.addr with
  | .bad _ _ (some pa) => hbmUE pa (bump1 R.CNT_TLB_WALK s)
  | _ => bump1 R.CNT_TLB_WALK s

/-- A fault is served: its entry replaces the hole, its requests are issued again, its slot is free. -/
def serveFault (i cnt : Nat) (f : FqSlot) (e : TEnt) (s : State) : State :=
  let s := bump1 cnt { s with l2 := bufFill 16384 e s.l2, fq := mdel i s.fq }
  slotFreed (each f.waiters reissue s)

/-- The pending fault that an answer names. -/
def pendingFault (s : State) (i gen : Nat) : Option FqSlot := (mfind i s.fq).bind fun f => if f.gen == gen then some f else none

/-- RETRY: walk again; serve the fault, or renew its kind and range. -/
def answerRetry (i gen : Nat) (s : State) : State :=
  match pendingFault s i gen with
  | none => bump1 R.CNT_FQ_STALE_RESP s
  | some f =>
    let s := countRewalk f s
    match rewalk s f with
    | .inl e => serveFault i R.CNT_FQ_RETRY f e s
    | .inr (k, lo, hi) => bump1 R.CNT_FQ_REFAULT { s with fq := mput i { f with kind := k, lo := lo, hi := hi } s.fq }

/-- A pending fault is fatal: every waiting request fails, and a hole of it is marked. -/
def fatalFault (i : Nat) (f : FqSlot) (s : State) : State :=
  let s := markFatal f.ctx f.lo f.hi { s with fq := mdel i s.fq }
  let s := setBit R.TLB_STATUS 1 (bump1 R.CNT_FQ_FATAL s)
  slotFreed (each f.waiters failReq s)

def answerFatal (i gen : Nat) (s : State) : State :=
  match pendingFault s i gen with
  | none => bump1 R.CNT_FQ_STALE_RESP s
  | some f => fatalFault i f s

/-- A write of TLB_FQ_RESP. -/
def fqResp (w : Word) (s : State) : State :=
  let a := wbits w 28 2
  if a == 1 then answerRetry (wbits w 0 12) (wbits w 12 16) s else if a == 2 then answerFatal (wbits w 0 12) (wbits w 12 16) s else s

/-- A fault has been pending longer than FAULT_TIMEOUT. -/
def faultTimeout (i : Nat) (s : State) : State :=
  match mfind i s.fq with
  | some f => if fget s R.TLB_CFG F.TLB_CFG_FAULT_TIMEOUT == 0 then s else fatalFault i f (bump1 R.CNT_FQ_TIMEOUT s)
  | none => s

/-- Answer the first pending fault FATAL, n times. -/
def fatalFirst : Nat → State → State
  | 0, s => s
  | n + 1, s => match s.fq with
    | (i, f) :: _ => fatalFirst n (fatalFault i f s)
    | [] => s

/-- Every pending fault is answered FATAL, those of parked requests among them as they take their slots (11 R310, step 4). -/
def allFatal (s : State) : State := fatalFirst (s.fq.length + s.parked.length) s

/-- A fault queue entry of four words (09 Table 9.7); zero where the slot is not pending. -/
def fqWord (s : State) (i k : Nat) : Nat :=
  match mfind i s.fq with
  | none => 0
  | some f =>
    if k == 0 then fld 0 12 i + fld 12 16 f.gen + fld 28 4 f.kind + fld 32 6 (f.ctx % 64) + fld 38 1 (f.ctx / 64) + fld 39 1 (natOfBool f.write) + fld 40 6 f.source + fld 46 18 f.merged
    else if k == 1 then fld 0 57 f.addr else if k == 2 then fld 0 57 f.lo else fld 0 58 f.hi

/-! ### Invalidation (09 R260 to R262) -/

/-- Enabled job slots of a context, or of every context. -/
def slotsOf (s : State) (all : Bool) (ctx : Nat) : List Nat := (List.range 16).filter fun j => slotOn s j && (all || slotCtx s j == ctx)

/-- Withdraw the insets of a job slot whose master weight parts satisfy p (09 R260, R261; 08 R226). -/
def withdrawMasters (p : Desc → Nat → Bool) (slot : Nat) (s : State) : State :=
  each (slotDescs s slot) (fun d s =>
    let hit := fun (e : IDir) => p d (d.masterAddr e.row)
    let l := ((s.idir.filter fun e => e.slot == slot && e.table == d.tableId && e.version == d.version && hit e).map fun e => d.localIndex e.row)
    match l with
    | [] => s
    | x :: r =>
      let lo := r.foldl min x
      withdrawRange 1 slot d.tableId d.version ((d.sheetOf (self s)).getD 0) lo (r.foldl max x - lo + 1) hit s) s

def invSeq (seq result busy : Nat) (s : State) : State := rset R.TLB_INV_DONE (word (fld 0 48 seq + fld 48 2 result + fld 50 1 busy)) s

/-- A context invalidation (09 R260): refused while another runs, or in a torus of more than 16 blocks. -/
def invContext (ctx : Nat) (all : Bool) (seq : Nat) (s : State) : State :=
  if s.inval.isSome then invSeq seq 2 1 s
  else if decide (16 < nblocks s) then invSeq seq 1 0 s
  else
    let s := each (slotsOf s all ctx) (withdrawMasters fun _ _ => true) { s with inval := some { range := false, all := all, ctx := ctx, lo := 0, hi := vaEnd, seq := seq } }
    fset R.TLB_INV_DONE F.TLB_INV_DONE_BUSY 1 (dropWhere (fun e => decide (e.ctx < 64) && (all || e.ctx == ctx)) s)

/-- A range invalidation of TLB_INV_START and TLB_INV_LEN (09 R261). -/
def invRange (ctx : Nat) (win : Bool) (seq : Nat) (s : State) : State :=
  if s.inval.isSome then invSeq seq 2 1 s else
  let lo := fget s R.TLB_INV_START F.TLB_INV_START_START * 4096
  let hi := lo + 4096 * (fget s R.TLB_INV_LEN F.TLB_INV_LEN_PAGES_M1 + 1)
  let c := if win then 64 + ctx % 16 else ctx
  let s := { s with inval := some { range := true, all := false, ctx := c, lo := lo, hi := hi, seq := seq } }
  let s := if win then s else each (slotsOf s false ctx) (withdrawMasters fun d a => decide (a < hi) && decide (lo < a + d.mstride)) s
  fset R.TLB_INV_DONE F.TLB_INV_DONE_BUSY 1 (dropSpan c lo hi s)

/-- A write of TLB_INV_CMD. -/
def invCmd (w : Word) (s : State) : State :=
  let k := wbits w 0 2
  if k == 1 then invContext (wbits w 3 6) (wbit w 2) (wbits w 16 48) s
  else if k == 2 then invRange (wbits w 3 6) (wbit w 9) (wbits w 16 48) s else s

/-- The device addresses of a row's parts in a version: context, start and end. -/
def partSpans (s : State) (slot : Nat) (d : Desc) (row : Nat) (state : Bool) : List (Nat × Nat × Nat) :=
  let c := slotCtx s slot
  (c, d.masterAddr row, d.masterAddr row + d.mstride) :: (if state then [(c, d.stateAddr row, d.stateAddr row + d.sstride)] else [])

/-- What an outstanding fetch has translated. -/
def fetchSpans (s : State) (f : Fetch) : List (Nat × Nat × Nat) :=
  let c := slotCtx s f.slot
  match f.src, f.dest with
  | .peer _, _ => []
  | .translation, _ => []
  | _, .opLine _ _ va => [(c, va, va + 64)]
  | _, .opWrite q seq wid => match (findOp s q seq).bind fun o => o.writes.find? fun w => w.wid == wid with
    | some w => [(c, w.va, w.va + w.data.length)]
    | none => []
  | _, .window _ _ => []
  | _, _ => match findDesc s f.slot f.table f.version with
    | some d => partSpans s f.slot d f.row false
    | none => []

/-- What a read of host memory has translated, whatever has become of its user; the read of a flush has translated nothing. -/
def hreadSpans (r : HRead) : List (Nat × Nat × Nat) := if r.flush || r.got.isSome then [] else [(r.ctx, r.va, r.va + r.len)]

/-- The accesses in progress that have been translated: context, start and end of each. -/
def accessSpans (s : State) : List (Nat × Nat × Nat) :=
  s.fetches.flatMap (fetchSpans s) ++ s.hreads.flatMap hreadSpans
    ++ s.hwrites.map (fun w => (w.ctx, w.va, w.va + w.data.length)) ++ s.winReqs.map (fun w => (w.ctx, w.va, w.va + w.len))
    ++ s.flights.flatMap fun x => partSpans s x.2.job x.2.desc x.2.entry.row (x.2.desc.sstride != 0)

/-- Whether an access translated under what an invalidation drops is still in progress (09 R260, R261). -/
def ctxBusy (s : State) (v : Inval) : Bool :=
  (accessSpans s).any fun x => (v.all || x.1 == v.ctx) && decide (x.2.1 < v.hi) && decide (v.lo < x.2.2)

/-- The faults that a completed invalidation walks again. -/
def invFaults (s : State) (v : Inval) : List Nat :=
  (s.fq.filter fun x => if v.range then x.2.ctx == v.ctx && decide (x.2.lo < v.hi) && decide (v.lo < x.2.hi) else decide (x.2.ctx < 64) && (v.all || x.2.ctx == v.ctx)).map (·.1)

/-- A fault whose range was invalidated is walked again, and served where an entry now allows its access. -/
def autoFault (i : Nat) (s : State) : State :=
  match mfind i s.fq with
  | none => s
  | some f =>
    let s := countRewalk f s
    match rewalk s f with
    | .inl e => serveFault i R.CNT_FQ_AUTO f e s
    | .inr _ => s

/-- The invalidation in progress completes, once its withdrawals are acknowledged and its accesses have completed. -/
def invComplete (s : State) : State :=
  match s.inval with
  | none => s
  | some v =>
    if s.awaits.any (fun a => a.what == 1) || ctxBusy s v then s else
    let s := bump1 R.CNT_TLB_INV (invSeq v.seq 0 0 { s with inval := none })
    each (invFaults s v) autoFault s

/-! ### Roots (09 R247) -/

/-- BASE and ENABLE of a root; no walk outlasts a command, so PENDING reads 0. -/
def rootBits (w : Word) : Word := word (fld 0 1 (wbits w 0 1) + fld 6 51 (wbits w 6 51))

def writeRoot (win : Bool) (i : Nat) (w : Word) (s : State) : State :=
  if win then rset (R.TLB_WINw_CFG (i % 16)) (rootBits w) s else rset (R.TLB_CTXk_ROOT (i % 64)) (rootBits w) s

/-! ### Keys (09 R251, R252) -/

def keySel (s : State) : Nat := fget s R.TLB_KEY_SEL F.TLB_KEY_SEL_SEL

/-- Whether accesses translated under a selector are still in progress; those of the block-private regions are under selector 0 (09 R250). -/
def keyBusy (s : State) (sel : Nat) : Bool :=
  (sel == 0 && (!s.flights.isEmpty || s.ledger.any fun x => x.2.state == 1))
  || s.hreads.any (fun r => !r.flush && r.got.isNone && r.key == sel) || s.hwrites.any (fun w => w.key == sel)
  || s.fetches.any (fun f => f.lines.any fun x => x.2 % 64 == sel) || s.flights.any (fun x => x.2.entry.keys.contains sel)
  || s.winReqs.any fun w => w.pieces.any fun p => p.far && p.key == sel

/-- Whether the ledger stage may go on: selector 0 as recorded, and every selector of a LOGGED entry loaded. -/
def ledgerKeys (s : State) : Bool :=
  keyLoaded s 0 && keyCheck (keyOf s 0) == pageKcv s && s.ledger.all fun x => x.2.state != 1 || x.2.keys.all (keyLoaded s)

/-- BSTATE READY (15 Table 15.11). -/
def ready (s : State) : Bool := s.stage == 9

/-- The key wait of stage 8 ends, and survey 8 holds how long it took: it began with the end of stage 7 (15 R398, Table 15.4). -/
def endKeyWait (s : State) : State :=
  rset (R.SRV_REPORTk_Ww 8 6) (word ((s.aon - (rget s (R.SRV_REPORTk_Ww 7 1)).toNat) / 1000)) { s with keyWait := false }

/-- n free values. -/
def freeNats : Nat → State → List Nat × State
  | 0, s => ([], s)
  | n + 1, s =>
    let (v, s) := freeNat s
    let (l, s) := freeNats n s
    (v :: l, s)

/-- A descriptor read under another key than it was written under: its words are what its ciphertext decrypts to. -/
def strangeDesc (d : Desc) (s : State) : Desc × State :=
  let (ws, s) := freeNats 32 s
  ({ d with words := ws.map word }, s)

/-- A 128-bit integer of the stores, read so. -/
def strangeInts (n : Nat) (s : State) : List Int × State :=
  let (l, s) := freeNats n s
  (l.map fun v => (v % 2 ^ 128 : Nat) - (2 ^ 127 : Int), s)

/-- Change every member of a list in turn. -/
def mapState {α : Type} (f : α → State → α × State) : List α → State → List α × State
  | [], s => ([], s)
  | x :: r, s =>
    let (y, s) := f x s
    let (l, s) := mapState f r s
    (y :: l, s)

/-- The stores of a job slot, read under another key: their values. -/
def strangeJob (j : Job) (s : State) : Job × State :=
  let (rs, s) := mapState (fun (r : Resid) s => let (v, s) := strangeInts r.vals.length s; ({ r with vals := v }, s)) j.resid s
  let (ts, s) := mapState (fun (t : Total) s => let (v, s) := strangeInts t.vals.length s; ({ t with vals := v }, s)) j.totals s
  ({ j with resid := rs, totals := ts }, s)

/-- What the ledger holds, read under another key: its entries fail their CHECK. -/
def strangeEntry (x : Nat × LSlot) (s : State) : (Nat × LSlot) × State :=
  let (v, s) := freeNat s
  ((x.1, { x.2 with check := v }), s)

/-- The block-private regions under the key of selector 0: what is written under another key decrypts to bytes that nothing marks as wrong (09 R250). The places of its lines are not the manual's, so those bytes are free values (DESIGN CHOICE, log 91). -/
def privSync (s : State) : State :=
  let key := keyOf s 0
  if !keyLoaded s 0 || key == s.privKey then s else
  let s := { s with privKey := key }
  let (gs, s) := mapState (fun (x : Nat × Desc) s => let (d, s) := strangeDesc x.2 s; ((x.1, d), s)) s.gaz s
  let (js, s) := mapState strangeJob s.jobs s
  let (ls, s) := mapState strangeEntry s.ledger s
  { s with gaz := gs, jobs := js, ledger := ls }

/-- A load or an unload takes effect. -/
def keyEffect (sel : Nat) (new : Option Nat) (s : State) : State :=
  let was := keyLoaded s sel
  let s := match new with
    | some k => { s with keys := mput sel k s.keys }
    | none => { s with keys := mdel sel s.keys }
  let s := rset R.TLB_KEY_LOADED (wset (rget s R.TLB_KEY_LOADED) sel 1 (natOfBool new.isSome)) s
  let s := if was then discardNear s else s
  match new with
  | none => s
  | some k =>
    let s := if sel == 0 && ready s then privSync (recordKcv (keyCheck k) s) else s
    if !s.keyWait then s
    else if s.startMode == 1 then (if sel == 0 then endKeyWait s else s)
    else
      let s := if sel == 0 && keyCheck k != pageKcv s then setBit R.TLB_STATUS 5 s else s
      if ledgerKeys s then endKeyWait s else s

/-- The loads and unloads that waited for their selector's accesses take effect, in order. -/
def pumpKeys (s : State) : State :=
  each s.keyPend (fun x s => if keyBusy s x.1 || s.keyPend.any (fun y => y.1 == x.1) then { s with keyPend := s.keyPend ++ [x] } else keyEffect x.1 x.2 s) { s with keyPend := [] }

/-- A load into a loaded selector, and an unload, wait for the accesses translated under it. -/
def keyChange (sel : Nat) (new : Option Nat) (s : State) : State := pumpKeys { s with keyPend := s.keyPend ++ [(sel, new)] }

/-- The key in the data registers. -/
def keyInput (s : State) : Nat := (s.keyData.zipIdx).foldl (fun a x => a + fld (64 * x.2) 64 x.1) 0

/-- LOAD: the data registers are cleared; a key of equal halves is refused. -/
def loadKey (s : State) : State :=
  let k := keyInput s
  let s := { s with keyData := List.replicate 8 0 }
  if key1 k == key2 k then setBit R.TLB_STATUS 4 s else keyChange (keySel s) (some k) s

/-- UNLOAD; a selector that is not loaded stays as it is. -/
def unloadKey (s : State) : State := if keyLoaded s (keySel s) || s.keyPend.any (fun x => x.1 == keySel s) then keyChange (keySel s) none s else s

/-- DISCARD_LEDGER while the ledger stage of a warm restart waits (09 R252). -/
def discardLedger (s : State) : State :=
  if !s.keyWait || s.startMode != 2 then s else
  let l := s.ledger.filter fun x => x.2.state == 1 && !x.2.bucket
  let s := each l (fun x s => jobBit R.CMD_UPD_STATUS 3 x.2.slot (bump1 R.CNT_UPD_LOST s)) s
  let s := rset (R.SRV_REPORTk_Ww 8 2) (word l.length) s
  endKeyWait { s with ledger := [], journal := [], stores := [], ledgerGone := true }

/-- A write of TLB_KEY_CTRL: DISCARD_LEDGER, then UNLOAD, then LOAD. -/
def keyCtrl (w : Word) (s : State) : State :=
  let s := if wbit w 2 then discardLedger s else s
  let s := if wbit w 1 then unloadKey s else s
  if wbit w 0 then loadKey s else s

/-! ### Hot pages (09 R266) -/

/-- Halve every count; a page whose count has fallen below half the threshold may post again. -/
def hotDecay (s : State) : State :=
  let h := (s.hot.map fun x => (x.1, x.2 / 2)).filter fun x => x.2 != 0
  let t := fget s R.TLB_CFG F.TLB_CFG_HOT_T
  { s with hot := h, hotHeld := s.hotHeld.filter fun id => decide (t ≤ 2 * mgetD (Config.hotHash (id / 2 ^ 36) (id % 2 ^ 36) % 8192) 0 h) }

end Sys2Proof.Machine
end

