-- ==== Sys2Proof/Machine/Links.lean ====
section
/-! DEFINITION. The peer ports: training, flits and replay, link states and the compass, loss of a port and its handoff, blocks that become unreachable or are lost (10 R270 to R289; 14 R379, R382). -/

namespace Sys2Proof.Machine

/-! ### States of a port (10 R273, R281, Tables 10.14 and 10.16) -/

def txWidth (s : State) (k : Nat) : Nat := fget s (R.LNK_Pk_STATUS k) F.LNK_Pk_STATUS_TX_WIDTH
def rxWidth (s : State) (k : Nat) : Nat := fget s (R.LNK_Pk_STATUS k) F.LNK_Pk_STATUS_RX_WIDTH

/-- Set an event bit of LNK_STATUS for a port. -/
def linkEvent (bit k : Nat) (s : State) : State := setBitFor R.LNK_STATUS bit 6 k s

/-- Good lanes and widths of both directions. -/
def setLanes (k tx rx : Nat) (s : State) : State :=
  fset (R.LNK_Pk_STATUS k) F.LNK_Pk_STATUS_TX_GOOD tx (fset (R.LNK_Pk_STATUS k) F.LNK_Pk_STATUS_RX_GOOD rx
    (fset (R.LNK_Pk_STATUS k) F.LNK_Pk_STATUS_TX_WIDTH (widthOf tx) (fset (R.LNK_Pk_STATUS k) F.LNK_Pk_STATUS_RX_WIDTH (widthOf rx) s)))

/-- A compass is being computed. -/
def compassDue (s : State) : State := fset R.LNK_COMPASS_GEN F.LNK_COMPASS_GEN_PENDING 1 s

/-- A link-state record in the payload of a LINK flit: the manual gives no layout (DESIGN CHOICE, log 21). -/
def linkPayload (block rport : Nat) (r : LinkRec) : Bytes := leBytes 8 (fld 0 6 block + fld 6 3 rport + fld 9 3 r.state + fld 12 4 r.width) ++ leBytes 8 r.version

/-- Send a record on every UP port but one (R281). -/
def flood (but : Option Nat) (block rport : Nat) (r : LinkRec) (s : State) : State :=
  each ((List.range 6).filter fun k => portState s k == PS.up && but != some k) (fun k s => sendLink k (linkPayload block rport r) s) s

/-- The record of a port of this block: a port in RETRAIN is shown as it was (DEDUCED, log 21). -/
def raiseRecord (k : Nat) (s : State) : State :=
  let st := if portState s k == PS.retrain then PS.up else portState s k
  let r := (mfind (self s * 8 + k) s.linkMap).getD { state := 0, width := 0, version := 0 }
  if r.state == st && r.width == txWidth s k then s else
  let r := { state := st, width := txWidth s k, version := r.version + 1 : LinkRec }
  flood none (self s) k r (compassDue { s with linkMap := mput (self s * 8 + k) r s.linkMap })

/-- Send every record held on a port that has come UP, so that both ends hold one map (DEDUCED, log 21). -/
def sendMap (k : Nat) (s : State) : State := each s.linkMap (fun x s => sendLink k (linkPayload (x.1 / 8) (x.1 % 8) x.2) s) s

/-- A record of a port of this block comes back with a newer version: the block raises its own beyond it (DESIGN CHOICE, log 21). -/
def ownRecord (rport version : Nat) (s : State) : State :=
  let r := (mfind (self s * 8 + rport) s.linkMap).getD { state := 0, width := 0, version := 0 }
  if version ≤ r.version then s else
  let r : LinkRec := { r with version := version + 1 }
  flood none (self s) rport r { s with linkMap := mput (self s * 8 + rport) r s.linkMap }

/-- A record of a port that is newer than the one held (R281). -/
def linkRecord (port block rport state width version : Nat) (s : State) : State :=
  if decide (nblocks s ≤ block) || decide (6 ≤ rport) then s
  else if block == self s then ownRecord rport version s else
  let old := (mfind (block * 8 + rport) s.linkMap).getD { state := 0, width := 0, version := 0 }
  if version ≤ old.version then s else
  let r := { state := state, width := width, version := version : LinkRec }
  flood (some port) block rport r (compassDue { s with linkMap := mput (block * 8 + rport) r s.linkMap })

/-- NARROW, where a direction has trained below width 8. -/
def markNarrow (k : Nat) (s : State) : State := if decide (txWidth s k < 8) || decide (rxWidth s k < 8) then linkEvent 2 k s else s

/-- Whether a packet handled by this block still waits for a route, for a partner or a route at an adder, for room in a coalescing store, or for a service tag (R277). -/
def keptWaits (s : State) (a : Arrival) : Bool :=
  s.sendQ.any (fun x => x.1 == some a.port && x.2 == a.p) || s.holds.any (fun h => h.port == a.port && h.p == a.p)
    || s.jobs.any (fun j => j.held.any fun x => x.1 == a.port && x.2.1 == a.p && x.2.2)
    || (a.p.cls == CL.req && s.serves.any fun v => v.src == a.p.src && v.jobId == a.p.jobId && v.tag == requestTag a.p && s.tagWait.any fun x => match x.2 with
      | .serve id _ => id == v.id
      | _ => false)

/-- The flits of packets that no longer wait leave their receive buffers, and their credit returns (R276, R277). -/
def freeKept (s : State) : State :=
  each (s.kept.filter fun a => !keptWaits s a) (fun a s => freeCredit a.port (3 * a.p.cls + a.vc) a.n s) { s with kept := s.kept.filter (keptWaits s) }

/-- Let every waiting packet try again. -/
def pumpLinks (s : State) : State := freeKept (pumpHolds (pumpNet s))

/-! ### Losing a port in service (10 Table 10.9) -/

/-- A port enters RETRAIN (R286). -/
def retrainPort (k : Nat) (s : State) : State :=
  if decide (6 ≤ k) || portState s k != PS.up then s
  else linkEvent 0 k (bump1 R.CNT_LNK_RETRAIN (setPortState k PS.retrain (updPort k (fun q => { q with naks := 0 }) s)))

/-- A port leaves service as DEAD or DISABLED: counted, logged, flooded; a HANDOFF is awaited and due (steps 3 to 7). What has come of an unfinished packet is discarded (R287). -/
def portGone (k st : Nat) (s : State) : State :=
  let s := linkEvent 1 k (bump1 R.CNT_LNK_DEAD (setPortState k st s))
  let s := elog 0x0B EU.port k st 0 0 s
  raiseRecord k (updPort k (fun q => { q with handoff := true, owes := true, part := [], freed := [], owed := 0 }) s)

/-- The flits of a replay buffer from sequence number n on, in their order. -/
def unackedFlits (q : PortSt) (n : Nat) : List (Nat × Word × Bytes) :=
  sortBy (·.1) (q.replay.flatMap fun e => (e.seqs.zipIdx.filter fun x => decide (n ≤ x.1)).map fun x => (x.1, e.flit x.2 x.1))

/-- Resend every sequenced flit from sequence number n on (R275, item 5). -/
def resend (k n : Nat) (s : State) : State :=
  let l := unackedFlits (port s k) n
  each l (fun x s => emitFlit k x.2.1 x.2.2 s) (bump (R.CNT_LNK_Pk_REPLAY k) l.length s)

/-- The end of a fast retrain (Table 10.9, steps 2 and 3). -/
def fastRetrainEnd (k tx rx : Nat) (s : State) : State :=
  if decide (6 ≤ k) || portState s k != PS.retrain then s else
  let s := updPort k (fun q => { q with flits := 0 }) (setLanes k tx rx s)
  if widthOf tx == 0 || widthOf rx == 0 then portGone k PS.dead s
  else pumpLinks (sendMap k (raiseRecord k (markNarrow k (resend k (port s k).acked (setPortState k PS.up s)))))

/-! ### Training (10 Table 10.2, R271 to R273) -/

/-- Whether a port has a neighbour (01 R24). -/
def portWired (s : State) (k : Nat) : Bool := decide (k < 6) && (neighbour s.straps (self s) k).isSome

def setTries (k n : Nat) (s : State) : State := fset (R.LNK_Pk_STATUS k) F.LNK_Pk_STATUS_TRIES n s

/-- Start the full training of a port. -/
def startTraining (k : Nat) (s : State) : State :=
  if !portWired s k then s else
  raiseRecord k (updPort k (fun q => { q with step := 1 }) (setTries k 0 (setLanes k 0 0 (setPortState k PS.training s))))

/-- A port in training is DEAD or MISMATCH. -/
def trainingLost (k st : Nat) (s : State) : State :=
  raiseRecord k (linkEvent 1 k (setPortState k st (updPort k (fun q => { q with step := 0 }) s)))

/-- A step fails: before step 5 the port begins again, up to three times; from step 5 on it is DEAD (R271; DESIGN CHOICE for a later step, log 21). -/
def trainingFails (k : Nat) (s : State) : State :=
  let n := fget s (R.LNK_Pk_STATUS k) F.LNK_Pk_STATUS_TRIES + 1
  if decide (5 ≤ (port s k).step) then trainingLost k PS.dead s
  else if n < 3 then updPort k (fun q => { q with step := 1 }) (setTries k n s)
  else trainingLost k PS.dead (setTries k 3 s)

/-- What this block sends at step 5: itself, and its good-lane mask for each direction (R272). -/
def ownIdentity (s : State) (k : Nat) : PartnerId :=
  { block := self s, xc := s.straps.xc, yc := s.straps.yc, zc := s.straps.zc, xd := s.straps.xd, yd := s.straps.yd, zd := s.straps.zd, port := k,
    family := fget s R.MG_IDENT F.MG_IDENT_FAMILY, major := fget s R.MG_IDENT F.MG_IDENT_MAJOR,
    txGood := fget s (R.LNK_Pk_STATUS k) F.LNK_Pk_STATUS_TX_GOOD, rxGood := fget s (R.LNK_Pk_STATUS k) F.LNK_Pk_STATUS_RX_GOOD }

/-- The checks of R272 on a partner. -/
def identityOk (s : State) (k : Nat) (p : PartnerId) : Bool :=
  p.family == fget s R.MG_IDENT F.MG_IDENT_FAMILY && p.major == fget s R.MG_IDENT F.MG_IDENT_MAJOR
    && p.xd == s.straps.xd && p.yd == s.straps.yd && p.zd == s.straps.zd && p.port == mate k
    && (match neighbour s.straps (self s) k with
        | some b => p.xc == coord s.straps b 0 && p.yc == coord s.straps b 1 && p.zc == coord s.straps b 2
        | none => false)

/-- The partner's identity arrives at step 5: the good lanes of a direction are those that both ends found good. -/
def takeIdentity (k : Nat) (p : PartnerId) (s : State) : State :=
  if identityOk s k p then
    let both := fun (f : Fld) (m : Nat) (s : State) => fset (R.LNK_Pk_STATUS k) f (fget s (R.LNK_Pk_STATUS k) f &&& m) s
    let s := both F.LNK_Pk_STATUS_TX_GOOD p.rxGood (both F.LNK_Pk_STATUS_RX_GOOD p.txGood s)
    let s := fset (R.LNK_Pk_STATUS k) F.LNK_Pk_STATUS_PARTNER p.block (fset (R.LNK_Pk_STATUS k) F.LNK_Pk_STATUS_PARTNER_PORT p.port s)
    updPort k (fun q => { q with step := 6 }) s
  else trainingLost k PS.mismatch (vlog VK.torusMismatch (portSource k) 0 0 0 0 s)

/-- Step 6: widths; a direction without a lane makes the port DEAD. -/
def applyWidths (k : Nat) (s : State) : State :=
  let tx := fget s (R.LNK_Pk_STATUS k) F.LNK_Pk_STATUS_TX_GOOD
  let rx := fget s (R.LNK_Pk_STATUS k) F.LNK_Pk_STATUS_RX_GOOD
  let s := setLanes k tx rx s
  if widthOf tx == 0 || widthOf rx == 0 then trainingLost k PS.dead s else updPort k (fun q => { q with step := 7 }) s

/-- The port by which a crossing holds a packet, and the packet. -/
def Crossed.onPort (x : Crossed) : Option (Nat × Packet) := match x with
  | .packet _ k p => some (k, p)
  | .passing k p => some (k, p)
  | _ => none

/-- The link layer of a port starts afresh: packets that have come whole before hold none of its buffers, and what its crossing still holds is discarded whole (13 R347). -/
def freshPort (k : Nat) (s : State) : State :=
  let lost := (s.crossing.filterMap Crossed.onPort).filter fun x => x.1 == k
  let off := updWhere (fun (a : Arrival) => a.port == k) fun a => { a with n := 0 }
  { s with
    ports := s.ports.set k {}
    arrived := off (s.arrived.filter fun a => !lost.contains (a.port, a.p))
    kept := off s.kept
    crossing := s.crossing.filter fun x => !(x.onPort.any fun y => y.1 == k) }

/-- Steps 7 and 8: the link layer starts afresh, and the port is UP. -/
def portUp (k : Nat) (s : State) : State :=
  pumpLinks (sendMap k (raiseRecord k (markNarrow k (setPortState k PS.up (freshPort k s)))))

def trainingStep (k : Nat) (ev : TrainEvent) (s : State) : State :=
  if decide (6 ≤ k) || portState s k != PS.training then s else
  let n := (port s k).step
  match ev with
  | .goodLanes tx rx => if n ≤ 4 then fset (R.LNK_Pk_STATUS k) F.LNK_Pk_STATUS_TX_GOOD tx (fset (R.LNK_Pk_STATUS k) F.LNK_Pk_STATUS_RX_GOOD rx s) else s
  | .identity p => if n == 5 then takeIdentity k p s else s
  | .stepFailed i => if i == n then trainingFails k s else s
  | .stepDone i =>
    if i != n || n == 5 || n == 0 then s
    else if n == 6 then applyWidths k s
    else if n == 7 then portUp k s
    -- a port whose clock is missing does not pass the first step (12 R328)
    else if n == 1 && clockBad s (11 + k) then trainingFails k s
    else
      let s := updPort k (fun q => { q with step := n + 1 }) s
      if n == 4 then emit (.partner k (ownIdentity s k)) s else s

/-! ### LNK_Pk_CTRL (10 R289, Table 10.16) -/

/-- DISABLE: a port in service leaves it with a handoff; a DEAD or training port stops training. -/
def disablePort (k : Nat) (s : State) : State :=
  let st := portState s k
  if decide (6 ≤ k) then s
  else if st == PS.up || st == PS.retrain then portGone k PS.disabled s
  else if st == PS.training || st == PS.dead then raiseRecord k (setPortState k PS.disabled (updPort k (fun q => { q with step := 0 }) s))
  else s

/-- ENABLE: full training of a port that is DEAD, MISMATCH or DISABLED. -/
def enablePort (k : Nat) (s : State) : State :=
  let st := portState s k
  if st == PS.dead || st == PS.mismatch || st == PS.disabled then startTraining k s else s

/-- A write of LNK_Pk_CTRL: DISABLE, then ENABLE, then RETRAIN. -/
def portCtrl (k : Nat) (w : Word) (s : State) : State :=
  when (wbit w 0) (retrainPort k) (when (wbit w 2) (enablePort k) (when (wbit w 1) (disablePort k) s))

/-! ### Flits (10 R274 to R277) -/

/-- Header of an IDLE flit. -/
def idleHeader (ack : Nat) (valid nak : Bool) (crVc crCount : Nat) : Word :=
  word (fld 19 12 ack + fld 31 1 (natOfBool valid) + fld 32 1 (natOfBool nak) + fld 33 4 crVc + fld 37 11 crCount)

/-- Send an IDLE flit; its payload is zeros (DESIGN CHOICE, log 21). -/
def sendIdle (k ack : Nat) (valid nak : Bool) (crVc crCount : Nat) (s : State) : State := emitFlit k (idleHeader ack valid nak crVc crCount) (padTo 116 []) s

/-- Acknowledge what was received in order, and return the credit of the flits that have left their buffers. -/
def sendAck (k : Nat) (s : State) : State :=
  let q := port s k
  let a := q.rxSeq + 4095
  let valid := q.rxSeq != 0
  let s := if q.freed.isEmpty then sendIdle k a valid false 15 0 s
    else each q.freed (fun x s => sendIdle k a valid false x.1 x.2 s) s
  updPort k (fun q => { q with owed := 0, freed := [] }) s

/-- An IDLE flit on every UP port, whether or not there is anything to acknowledge (R274). -/
def sendIdles (s : State) : State := each ((List.range 6).filter fun k => portState s k == PS.up) sendAck s

/-- Ask for a resend from the flit expected, no more than once every 500 ns for the same one (R275, item 2). -/
def sendNak (k : Nat) (s : State) : State :=
  let q := port s k
  let soon := match q.nakSent with
    | some (n, t) => n == q.rxSeq && decide (s.aon < t + 500)
    | none => false
  if soon then s
  else updPort k (fun q => { q with nakSent := some (q.rxSeq, s.aon) }) (sendIdle k q.rxSeq true true 15 0 s)

/-- Free what is acknowledged up to sequence number n, each packet when its last flit is (R275, item 4). -/
def ackTo (k n : Nat) (s : State) : State :=
  updPort k (fun q => { q with acked := n, replay := q.replay.filter (fun e => e.open_ || e.seqs.any fun i => decide (n ≤ i)), naks := if q.acked < n then 0 else q.naks }) s

/-- An ACK or NAK names a flit never sent (Table 10.10). -/
def fseqBad (k : Nat) (s : State) : State := retrainPort k (vlog VK.fseqBad (portSource k) 0 0 0 0 s)

/-- Act on the acknowledgement of a flit. -/
def flitAck (k : Nat) (hdr : Word) (s : State) : State :=
  if !wbit hdr 31 then s else
  let q := port s k
  let nak := wbit hdr 32
  let d := (wbits hdr 19 12 + (if nak then 4096 else 4097) - q.acked % 4096) % 4096
  let sent := q.txSeq - q.acked
  if nak && decide (d < sent) then
    let n := q.acked + d
    let c := if q.nakFor == n then q.naks + 1 else 1
    let s := updPort k (fun q => { q with nakFor := n, naks := c }) (ackTo k n s)
    if 8 ≤ c then retrainPort k s else resend k n s
  else if !nak && decide (d ≤ sent) && (d != 0 || q.acked != 0) then ackTo k (q.acked + d) s
  else if decide (4096 - d ≤ min 2048 q.acked) then s
  else fseqBad k s

/-- Take the credit that a flit returns. -/
def flitCredit (k : Nat) (hdr : Word) (s : State) : State :=
  let b := wbits hdr 33 4
  if b == 15 then s else updPort k (fun q => { q with used := mput b (mgetD b 0 q.used - wbits hdr 37 11) q.used }) s

/-- Flits that a packet of n flits, of which i have come, holds in its buffer: an escape packet longer than its buffer passes through it, and its first flits leave as they come (R276; DESIGN CHOICE, log 21). -/
def heldFlits (vc n i : Nat) : Nat := if vc == 0 then i else i - min i (n - 32)

/-- Flits of a packet, by its HEAD flit. -/
def flitsNamed (fs : List Bytes) : Nat := bits (leAt (fs.headD []) 0 8) 15 7 + 1

/-- Flits held in a receive buffer: of packets not yet whole, and of whole ones that wait. -/
def occupancy (s : State) (k b : Nat) : Nat :=
  let fs := mgetD b [] (port s k).part
  heldFlits (b % 3) (flitsNamed fs) fs.length + sumNat (((s.arrived ++ s.kept).filter fun a => a.port == k && 3 * a.p.cls + a.vc == b).map (·.n))

/-- The next sequenced flit is accepted. -/
def acceptFlit (k : Nat) (s : State) : State :=
  let s := pmc PMC.peerRx none (some k) none 1 (updPort k (fun q => { q with rxSeq := q.rxSeq + 1, owed := q.owed + 1, nakSent := none }) s)
  if 32 ≤ (port s k).owed then sendAck k s else s

/-- Classes of a kind of packet (Table 10.7; 14 R380, R384). -/
def kindClasses (kind : Nat) : List Nat :=
  if kind == K.rowReq || kind == K.partReq || kind == K.winRead || kind == K.winWrite || kind == 0x08 then [CL.req]
  else if kind == K.rowRsp then [CL.rsp, CL.sync]
  else if kind == K.partRsp || kind == K.winData || kind == K.winAck || kind == K.ack || kind == K.error || kind == 0x09 then [CL.rsp]
  else if kind == K.gradRec || kind == K.mark1 || kind == K.mark2 then [CL.grad]
  else if decide (K.refresh ≤ kind) && decide (kind ≤ K.handoff) || kind == K.restart || kind == 0x69 then [CL.sync]
  else if decide (K.regRead ≤ kind) && decide (kind ≤ K.event) then [CL.ctrl]
  else []

/-- Whether a window access names a byte count it may not have, or bears other data than it names (10 Table 10.7; that this is BAD_PACKET is a DESIGN CHOICE, log 20). -/
def badWindow (p : Packet) : Bool :=
  let n := bits (leAt p.body 8 8) 0 14
  (p.kind == K.winRead || p.kind == K.winWrite)
    && (n % 64 != 0 || n == 0 || decide (8192 < n) || p.bodyBytes != 16 + (if p.kind == K.winWrite then n else 0))

/-- Whether a packet breaks the form of R278 and R279 (Table 10.10, BAD_PACKET). -/
def badPacket (s : State) (p : Packet) : Bool :=
  decide (5 ≤ p.cls) || !(kindClasses p.kind).contains p.cls || flitsOf p.bodyBytes != p.lenM1 + 1 || p.body.length != p.bodyBytes
    || decide (128 ≤ p.lenM1) || decide (nblocks s ≤ p.dest) || badWindow p

/-- A bad packet is logged; a request with a valid SRC is answered, any other packet discarded (Table 10.10). -/
def rejectPacket (k : Nat) (p : Packet) (s : State) : State :=
  let s := vlog VK.badPacket (portSource k) 0 0 0 0 s
  if p.cls == CL.req && decide (p.src < nblocks s) && p.src != self s then sendError p.src p.jobId (requestTag p) EC.badPacket (requestEcho p) s
  else bump1 R.CNT_LNK_DISCARD s

/-- A packet is whole: it waits in its buffer to be handled, or is bad (R277). -/
def packetWhole (k b : Nat) (fs : List Bytes) (s : State) : State :=
  let p := parsePacket fs.flatten
  let s := updPort k (fun q => { q with part := mdel b q.part, lastPkt := some (q.rxSeq - 1) }) s
  let n := heldFlits (b % 3) fs.length fs.length
  if decide (15 ≤ b) || p.cls != b / 3 || badPacket s p then rejectPacket k p (freeCredit k b n s)
  else { s with arrived := s.arrived ++ [{ port := k, vc := b % 3, n := n, p := p }] }

/-- A HEAD or BODY flit enters its buffer. A BODY flit without a HEAD belongs to a packet already discarded. -/
def takeFlit (k b : Nat) (head : Bool) (payload : Bytes) (s : State) : State :=
  let old := mgetD b [] (port s k).part
  if !head && old.isEmpty then freeCredit k b 1 s else
  let s := if head && !old.isEmpty then bump1 R.CNT_LNK_DISCARD (vlog VK.badPacket (portSource k) 0 0 0 0 (freeCredit k b (heldFlits (b % 3) (flitsNamed old) old.length) s)) else s
  let fs := if head then [payload] else old ++ [payload]
  let n := flitsNamed fs
  -- a flit that leaves as it comes
  let s := if heldFlits (b % 3) n fs.length == heldFlits (b % 3) n (fs.length - 1) then freeCredit k b 1 s else s
  if n ≤ fs.length then packetWhole k b fs s else updPort k (fun q => { q with part := mput b fs q.part }) s

/-- A sequenced flit whose CRC matches (R275, R276). -/
def flitSeq (k : Nat) (hdr : Word) (payload : Bytes) (s : State) : State :=
  let ty := wbits hdr 0 2
  let cls := wbits hdr 2 3
  let vc := wbits hdr 5 2
  let d := (wbits hdr 7 12 + 4096 - (port s k).rxSeq % 4096) % 4096
  if d != 0 then (if d < 2048 then sendNak k s else s)
  else if ty == 3 then acceptFlit k s
  -- a packet of a reserved CLASS or VC is put together apart from the buffers, and then rejected whole
  else if decide (5 ≤ cls) || vc == 3 then takeFlit k (15 + 3 * (4 * cls + vc)) (ty == 1) payload (acceptFlit k s)
  else
    let b := 3 * cls + vc
    if vcCap vc ≤ occupancy s k b then retrainPort k (vlog VK.creditOverrun (portSource k) 0 0 0 0 s)
    else takeFlit k b (ty == 1) payload (acceptFlit k s)

/-- A flit arrives on a port that is UP. -/
def flitReceive (k : Nat) (hdr : Word) (payload : Bytes) (crc : Nat) (cw : Ecc) (s : State) : State :=
  if decide (6 ≤ k) || portState s k != PS.up then s
  else if cw == .uncorrectable then sendNak k (bump1 (R.CNT_LNK_Pk_FEC_UNCORR k) s)
  else
    let s := if cw == .corrected then bump1 (R.CNT_LNK_Pk_FEC_CORR k) s else s
    if crc32 (leBytes 8 hdr.toNat ++ (padTo 116 payload).take 116) != crc then sendNak k (bump1 (R.CNT_LNK_Pk_CRC k) s)
    else
      let s := flitCredit k hdr (flitAck k hdr s)
      let s := if portState s k == PS.up && wbits hdr 0 2 != 0 then flitSeq k hdr ((padTo 116 payload).take 116) s else s
      pumpLinks s

/-- A packet that has waited in a receive buffer is handled; its flits stay there as long as it waits for a local resource or a route (R277). -/
def leaveBuffer (k : Nat) (p : Packet) (s : State) : State :=
  match s.arrived.find? fun a => a.port == k && a.p == p with
  | some a => { s with arrived := s.arrived.erase a, kept := s.kept ++ [a] }
  | none => s

/-! ### Blocks without a route (14 R379) -/

def peerSrc (b : Nat) (x : Src) : Bool := match x with
  | .peer c => c == b
  | .window c => c == b
  | _ => false

/-- Requests of an operation or of the host that must be made again. -/
def madeAgain (d : Dest) : Bool := match d with
  | .opLine _ _ _ => true
  | .opWrite _ _ _ => true
  | .window _ _ => true
  | _ => false

/-- Absorb what is outstanding at a block: tiles are dispatched again, other requests wait for a tag again. -/
def absorbPeer (b : Nat) (s : State) : State :=
  let s := requeueTiles (fun t => s.fetches.any fun f => peerSrc b f.src && tileDest t.id f.dest) s
  let rest := s.fetches.filter fun f => peerSrc b f.src
  let s := each rest (fun f s => absorbTag f.tag s) s
  { s with tagWait := s.tagWait ++ (rest.filter fun f => madeAgain f.dest).map fun f => (f.pool, f.dest) }

/-- Discard the packets for a block, those of a replay buffer toward it among them; its ordered streams begin again at 0 (DESIGN CHOICE, log 21). -/
def discardFor (b : Nat) (s : State) : State :=
  let mine := fun (k : Nat) => (port s k).handoff && neighbour s.straps (self s) k == some b
  let kept := sumNat (((List.range 6).filter mine).map fun k => ((port s k).replay.filter fun r => r.pkt.isSome).length)
  let waits := sumNat ([CL.sync, CL.ctrl].map fun c => (ostream s b c).waiting.length)
  let n := (s.sendQ.filter fun x => x.2.dest == b).length + (s.holds.filter fun h => h.dest == b).length + kept + waits
  let s := each [CL.sync, CL.ctrl] (fun c s => setOStream b c { ostream s b c with tx := 0, unacked := [], waiting := [] } s) s
  bump R.CNT_LNK_LOST_DISCARD n { s with
    sendQ := s.sendQ.filter fun x => x.2.dest != b
    holds := s.holds.filter fun h => h.dest != b
    ports := s.ports.zipIdx.map fun x => if mine x.2 then { x.1 with replay := [] } else x.1 }

def setHeld (j v : Nat) (s : State) : State := fset (R.MG_Jj_EPOCH j) F.MG_Jj_EPOCH_HELD v s

def markLost (b : Nat) (on : Bool) (s : State) : State := rset R.MG_LOST_BLOCKS (wset (rget s R.MG_LOST_BLOCKS) b 1 (natOfBool on)) s

/-- Declare a block unreachable (R379). -/
def declareUnreachable (b : Nat) (s : State) : State :=
  if s.unreach.contains b || b == self s then s else
  let s := discardFor b (absorbPeer b (raiseEpoch s))
  let s := each ((List.range 16).filter (slotOn s)) (fun j s => setHeld j 1 s) s
  let s := setBit R.MG_FENCE_STATUS 2 (elog 0x0C EU.block b 1 0 0 (markLost b true s))
  { s with unreach := s.unreach ++ [b] }

/-- Whether a block of the torus is unreachable and not lost: its jobs are held (R379). -/
def jobsHeld (s : State) : Bool := s.unreach.any fun b => !s.lost.contains b

/-- Jobs go on when no block of theirs is unreachable any more. -/
def unhold (s : State) : State :=
  if !jobsHeld s then each (List.range 16) (fun j s => setHeld j 0 s) s else s

/-! ### Lost blocks (14 R382) -/

/-- Halt the job of a slot: its MERIDIANs, the issued one and those that stand aside among them, and its running operation end with ABORTED. -/
def haltJob (slot : Nat) (s : State) : State :=
  let s := abortAside slot s
  let s := each (s.ops.filter fun o => o.queue == slot && (o.place == .running || (o.place == .issued && o.opcode == OP.meridian))) abortOp s
  let s := setMstate slot 0 (updJob slot (fun j => { j with mer := none, merNext := [] }) s)
  let s := fset (R.MG_Jj_EPOCH slot) F.MG_Jj_EPOCH_HALTED 1 (stopCmd slot s)
  errBit 8 (setBit R.MG_FENCE_STATUS 3 (elog 0x0D EU.slot slot (slotJobId s slot) 0 0 s))

/-- A block that has stayed unreachable is lost: its jobs halt, and nothing waits for its notices or acknowledgements (R382; 02 R48). -/
def loseBlock (b : Nat) (s : State) : State :=
  if !s.unreach.contains b || s.lost.contains b then s else
  let s := awaitForget b (elog 0x0C EU.block b 2 0 0 { s with lost := s.lost ++ [b] })
  let s := setBit R.MG_FENCE_STATUS 2 s
  let slots := (List.range 16).filter (slotOn s)
  let s := unhold (each slots haltJob s)
  deliverAll (each slots (fun j s => each (slotDescs s j) (fun d s => tryRetire j d.tableId d.version s) s) s)

/-! ### The compass (10 R282, R283) and the handoff (R286 to R288) -/

/-- HANDOFF of a port that has left service: the last whole packet accepted on it (10 Table 10.7). -/
def sendHandoff (k : Nat) (s : State) : State :=
  match neighbour s.straps (self s) k with
  | none => s
  | some b =>
    let q := port s k
    let s := updPort k (fun q => { q with owes := false }) s
    sendPacket b CL.sync K.handoff 0 (leBytes 8 (fld 0 3 k + fld 3 12 (q.lastPkt.getD 0) + fld 15 1 (natOfBool q.lastPkt.isSome))) s

/-- Install the compass of the link-state map: a new generation where an escape route differs; blocks without a route are declared, handoffs go out, waiting packets try again. -/
def compassInstall (s : State) : State :=
  if fget s R.LNK_COMPASS_GEN F.LNK_COMPASS_GEN_PENDING == 0 then s else
  let (mode, new) := computeCompass s.straps s.linkMap (self s)
  let old := (List.range (nblocks s)).map fun d => (d, (compassOf s d).esc)
  let g := compassGen s
  let gone := (new.filter fun x => x.2.esc == 7).map (·.1)
  let oldMode := fget s R.LNK_COMPASS_GEN F.LNK_COMPASS_GEN_MODE
  let changed := (new.map fun x => (x.1, x.2.esc)) != old
  let s := { s with compass := new }
  let s := if changed then
      bump1 R.CNT_LNK_GEN (setBit R.LNK_STATUS 3 (rset R.LNK_COMPASS_GEN (word (fld 0 8 (g + 1) + fld 8 1 mode)) { s with oldEsc := mput g (oldMode, old) (mdel ((g + 1) % 256) s.oldEsc) }))
    else rset R.LNK_COMPASS_GEN (word (fld 0 8 g + fld 8 1 mode)) s
  let s := each gone declareUnreachable s
  let s := each ((List.range 6).filter fun k => (port s k).owes) sendHandoff s
  pumpLinks s

/-- Drop the table of an older generation (R283, item 5). -/
def compassExpire (g : Nat) (s : State) : State := { s with oldEsc := mdel g s.oldEsc }

/-- Handle HANDOFF: the packets that the other end did not accept go out again, ahead of later ones (R287). One that comes before this end has left service takes it out first (DESIGN CHOICE, log 21). -/
def recvHandoff (p : Packet) (s : State) : State :=
  let w := leAt p.body 0 8
  let k := mate (bits w 0 3)
  if decide (6 ≤ k) || neighbour s.straps (self s) k != some p.src then s else
  let s := if portState s k == PS.up || portState s k == PS.retrain then portGone k PS.dead s else s
  let q := port s k
  if !q.handoff then s else
  let d := (bits w 3 12 + 4096 - q.acked % 4096) % 4096
  let after := fun (e : Replay) => bits w 15 1 == 0 || !decide (d < q.txSeq - q.acked) || e.open_ || decide (q.acked + d < e.seqs.getLastD 0)
  let again := (q.replay.filter after).filterMap fun r => r.pkt.map fun x => ((none : Option Nat), x)
  let s := updPort k (fun q => { q with handoff := false, replay := [] }) { s with deepWait := s.deepWait.filter fun i => i != k }
  pumpLinks (bump R.CNT_LNK_REINJECT again.length { s with sendQ := again ++ s.sendQ })

/-- No HANDOFF has come: the partner is unresponsive, and is reported (R288; 14 R379). -/
def handoffTimeout (k : Nat) (s : State) : State :=
  if decide (6 ≤ k) || !(port s k).handoff then s else
  match neighbour s.straps (self s) k with
  | some b =>
    let s := linkEvent 4 k s
    let s := if s.unreach.contains b then s else declareUnreachable b s
    updPort k (fun q => { q with handoff := false }) s
  | none => s

/-! ### Commands -/

/-- FLIT_RECEIVE (R275, R276). -/
def execFlitReceive (k : Nat) (hdr : Word) (payload : Bytes) (crc : Nat) (cw : Ecc) (s : State) : Host.Outcome State Fault Refusal := act s (flitReceive k hdr payload crc cw)

/-- LINK_ACK_TIMER (R275, item 3): the flit that acknowledges is sent though nothing is owed, as an IDLE flit is due in any case (R274). -/
def execLinkAckTimer (k : Nat) (s : State) : Host.Outcome State Fault Refusal :=
  act s fun s => if decide (k < 6) && portState s k == PS.up then sendAck k s else s

/-- LINK_STATE_RECORD (R281). -/
def execLinkStateRecord (k block rport state width version : Nat) (s : State) : Host.Outcome State Fault Refusal :=
  act s fun s => if decide (k < 6) && portState s k == PS.up then linkRecord k block rport state width version s else s

/-- COMPASS_GEN_EXPIRE (R283, item 5). -/
def execCompassGenExpire (g : Nat) (s : State) : Host.Outcome State Fault Refusal := act s (compassExpire g)

/-- PORT_TRAINING_STEP (R271 to R273). -/
def execPortTrainingStep (k : Nat) (ev : TrainEvent) (s : State) : Host.Outcome State Fault Refusal := act s (trainingStep k ev)

/-- PORT_RETRAIN_TRIGGER (R286): every cause has one effect. -/
def execPortRetrainTrigger (k : Nat) (_cause : RetrainCause) (s : State) : Host.Outcome State Fault Refusal := act s (retrainPort k)

/-- FAST_RETRAIN_END (Table 10.9). -/
def execFastRetrainEnd (k tx rx : Nat) (s : State) : Host.Outcome State Fault Refusal := act s (fastRetrainEnd k tx rx)

/-- BG_RETRAIN (R289); none while the block enters DEEP (13 Table 13.7). -/
def execBgRetrain (k : Nat) (s : State) : Host.Outcome State Fault Refusal :=
  act s fun s => if fbit s R.LNK_CFG F.LNK_CFG_BG_RETRAIN && portState s k == PS.dead && s.pmode != 3 && s.pmode != 5 then startTraining k s else s

end Sys2Proof.Machine
end

