-- ==== Sys2Proof/Machine/Migrate.lean ====
section
/-! DEFINITION. The round of a restarted block, and the migration of a sheet (14 R378, R380 to R386). -/

namespace Sys2Proof.Machine

/-! ### A new sheet epoch (14 R378, R380) -/

/-- Send a staged record again with the new epoch, one for this block itself too (14 R380, item 2). -/
def resendRec (slot : Nat) (x : Sent) (s : State) : State :=
  let r := { x.r with epoch := sheetEpoch s slot }
  if x.dest == self s then gradArrive true 0 (mkPacket s x.dest CL.grad K.gradRec r.jobId r.body) (bump1 R.CNT_GS_RESENT s)
  else sendPacket x.dest CL.grad K.gradRec r.jobId r.body (bump1 R.CNT_GS_RESENT s)

/-- COUNT of the staged records for a block that a marker of step st covers, after the markers of earlier steps. -/
def countFor (s : State) (slot dest : Nat) (earlier : List Nat) (st : Nat) (fwd : Bool) : Nat :=
  sumNat (((job s slot).sentRecs.filter fun x =>
    x.dest == dest && decide (x.r.step ≤ st) && earlier.all (fun e => decide (e < x.r.step)) && (x.kind == 2) == fwd).map fun x => x.r.count)

/-- COUNTs, by block, of the staged records that no marker covers yet. -/
def uncovered (j : Job) (fwd : Bool) : List (Nat × Nat) :=
  (j.sentRecs.filter fun x => (x.kind == 2) == fwd && !j.sentMarks.any fun m =>
    m.1 == (if fwd then K.mark2 else K.mark1) && m.2.1 == x.dest && decide (x.r.step ≤ m.2.2.1)).foldl (fun l x => addCount (x.dest + 64 * x.r.step) x.r.count l) []

/-- Send the markers of the open steps again, each with the COUNT sent again (R380, item 3). -/
def resendMarks (slot : Nat) (s : State) : State :=
  let l := (job s slot).sentMarks
  each l (fun x s =>
    let earlier := (l.filter fun y => y.1 == x.1 && y.2.1 == x.2.1 && decide (y.2.2.1 < x.2.2.1)).map fun y => y.2.2.1
    sendMarker slot x.1 x.2.2.1 x.2.1 (countFor s slot x.2.1 earlier x.2.2.1 (x.1 == K.mark2)) s) (updJob slot (fun j => { j with sentMarks := [] }) s)

/-- Adopt a sheet epoch: what was received for steps not begun is discarded, its COUNTs absorbed as stale (06 R176; DEDUCED, log 13), and what was sent for open steps is sent again (R380). -/
def adoptEpoch (slot f : Nat) (s : State) : State :=
  let f := f % 2 ^ 32
  let s := fset (R.MG_Jj_EPOCH slot) F.MG_Jj_EPOCH_SHEET_EPOCH f (setJournal slot { journalOf s slot with sheetEpoch := f } s)
  let kept := fun (st : Nat) => merBegun s slot st
  let s := bump R.CNT_GS_STALE (sumNat (((job s slot).totals.filter fun t => !kept t.step && !t.done).map (·.count))) s
  let s := updJob slot (fun j => { j with
    totals := j.totals.filter fun t => kept t.step
    recv := j.recv.filter fun x => kept x.1
    fwdRecv := j.fwdRecv.filter fun x => kept x.1
    mark1 := j.mark1.filter fun m => kept m.step
    mark2 := j.mark2.filter fun m => kept m.step
    sentTo := uncovered j false
    fwdTo := uncovered j true
    mer := j.mer.map fun m => { m with redo := m.redo || m.phase == 2 } }) s
  let s := each (job s slot).sentRecs (resendRec slot) s
  bump1 R.CNT_JOB_RESTART (resendMarks slot s)

/-! ### The round (14 R380) -/

def RS.query : Nat := 0
def RS.reply : Nat := 1
def RS.set : Nat := 2

/-- Body of a RESTART message. -/
def restartBody (s : State) (slot phase v : Nat) : Bytes :=
  leBytes 8 (fld 0 2 phase + fld 2 8 (slotJobId s slot) + fld 16 48 (closedStep s slot)) ++ leBytes 8 (v % 2 ^ 32)

def sendRestart (slot phase v : Nat) (dest : Nat) (s : State) : State := sendPacket dest CL.sync K.restart (slotJobId s slot) (restartBody s slot phase v) s

def replyKey (slot b : Nat) : Nat := slot * 64 + b

/-- With a REPLY of every block of the job, the restarted block adopts F and sends SET (item 3). -/
def roundCheck (slot : Nat) (s : State) : State :=
  match mfind slot s.restart with
  | none => s
  | some v =>
    let vs := (jobOthers s).map fun b => mfind (replyKey slot b) s.replies
    if vs.any Option.isNone then s else
    let f := vs.foldl (fun m x => max m (x.getD 0 + 1)) v
    let s := { s with restart := mdel slot s.restart, replies := s.replies.filter fun x => x.1 / 64 != slot }
    each (jobOthers s) (sendRestart slot RS.set f) (adoptEpoch slot f s)

/-- Begin the round of a slot that a warm restart has enabled again (item 1). -/
def startRound (slot : Nat) (s : State) : State :=
  let v := sheetEpoch s slot + 1
  let s := { s with restart := mput slot v s.restart, replies := s.replies.filter fun x => x.1 / 64 != slot }
  roundCheck slot (each (jobOthers s) (sendRestart slot RS.query v) s)

/-! ### Migration (14 R383 to R386) -/

def K.migData : Nat := 0x08
def K.migAck : Nat := 0x09
def K.migReady : Nat := 0x69

/-- Staged value of a register, or its active one (15 R406). -/
def stagedReg (s : State) (off : Nat) : Word := (mfind off s.staged).getD (rget s off)

def migShow (state role reason rows : Nat) (s : State) : State :=
  rset R.MG_MIG_STATE (word (fld 0 3 state + fld 4 2 role + fld 8 4 reason + fld 16 32 (sat 32 rows))) s

def migRole (s : State) (m : Mig) : Nat := if m.owner == self s then 1 else if m.dest == self s then 2 else 0

/-- A migration ends as FAILED: logged, shown; a request held for the sheet is answered (R386). -/
def migFail (reason : Nat) (s : State) : State :=
  match s.mig with
  | none => s
  | some m =>
    let mine := fun (x : Nat × Packet) => (match slotOfJob s x.2.jobId with
      | some slot => migHolds s slot (readCommon x.2.body)
      | none => false)
    let held := s.serveHeld.filter mine
    let s := migShow 4 (migRole s m) reason m.next { s with mig := none, migHeld := [], serveHeld := s.serveHeld.filter fun x => !mine x }
    let s := setBit R.MG_FENCE_STATUS 4 (elog 0x10 EU.table m.table 4 reason 0 s)
    releaseRows m.slot (releaseServes (each held (fun x s => sendError x.2.src x.2.jobId (requestTag x.2) EC.noRoute (requestEcho x.2) s) s))

/-- A descriptor with the sheet's new owner in its SHEET_MAP. -/
def movedDesc (m : Mig) (d : Desc) : Desc :=
  let d' := d.setW (2 + m.sheet / 8) (8 * (m.sheet % 8)) 6 m.dest
  d'.setW 22 0 32 d'.computeDigest

/-- Purge this block's near memory of a sheet, as of a version (08 R220); its pinned regions are RELEASED. -/
def purgeSheet (m : Mig) (s : State) : State :=
  let row := fun (slot table version row : Nat) => slot == m.slot && table == m.table && version == m.version && (match findDesc s slot table version with
    | some d => d.ownerSlot row == m.sheet
    | none => false)
  let s := { s with
    near := s.near.filter fun e => !row e.slot e.table e.version e.row
    victim := s.victim.filter fun x => !row x.2.slot x.2.table x.2.version x.2.row
    prefetched := updWhere (fun p => row p.slot p.table p.version p.row) (fun p => { p with usable := false }) s.prefetched
    fetches := updWhere (fun f => row f.slot f.table f.version f.row) (fun f => { f with stale := true }) s.fetches
    idir := s.idir.filter fun e => !row e.slot e.table e.version e.row }
  each (List.range 16) (fun k s =>
    if pinState s k != 0 && pinA s k F.NM_PINk_A_SLOT == m.slot && pinA s k F.NM_PINk_A_TABLE_ID == m.table && pinA s k F.NM_PINk_A_VERSION == m.version
    then setPinState k 3 { s with pins := s.pins.filter fun x => x.1 / 2 ^ 32 != k } else s) s

/-- A migration is DONE on this block: its descriptor takes the new owner (Table 14.6, step 6; R385). -/
def migDone (m : Mig) (s : State) : State :=
  let s := if m.owner == self s then bump R.CNT_MIG_ROWS m.next (purgeSheet m s) else s
  let s := { s with mig := none, migHeld := [] }
  let s := match findDesc s m.slot m.table m.version with
    | some d => putDesc m.slot (movedDesc m d) s
    | none => s
  let s := migShow 3 (migRole s m) 0 m.next s
  releaseRows m.slot (releaseServes (setBit R.MG_FENCE_STATUS 4 (elog 0x10 EU.table m.table 3 0 0 s)))

/-- Why a staged migration is not accepted, if it is not (R383, Table 14.9). -/
def migRefusal (s : State) (slot table version sheet dest step : Nat) : Option Nat :=
  match (if slotOn s slot then findDesc s slot table version else none) with
  | none => some 1
  | some d =>
    if d.state != 2 then some 1
    else if !(jobBlocks s).contains dest || decide (d.sheets ≤ sheet) || dest == d.sheetMap sheet || (d.sheetOf dest).isSome then some 2
    else if s.queues.any fun x => decide (step ≤ x.maxStep) then some 3
    else if s.mig.isSome then some 4
    else if d.rowmode then some 5
    else none

/-- Items of a sheet's directory: its buckets, then the words of its bitmap. -/
def migDirItems (d : Desc) (sheet : Nat) : Nat := if d.admits then 2 ^ d.dirLog2 + ceilDiv (ceilDiv (sheetRows d sheet) 8) 8 else 0

/-- Device address and length of a directory item. -/
def migDirSpan (d : Desc) (i : Nat) : Nat × Nat :=
  if i < 2 ^ d.dirLog2 then (d.dirBase + dirBucketOff i, 128) else (d.dirBase + dirBitmapOff d + 8 * (i - 2 ^ d.dirLog2), 8)

/-- The next item to send: whether it is of the directory, its index, and the migration once it is sent. -/
def migNext (m : Mig) (d : Desc) : Option (Bool × Nat × Mig) :=
  match m.again, m.againDir with
  | i :: r, _ => some (false, i, { m with again := r })
  | [], i :: r => some (true, i, { m with againDir := r })
  | [], [] =>
    if m.next < sheetRows d m.sheet then some (false, m.next, { m with next := m.next + 1 })
    else if m.dirNext < migDirItems d m.sheet then some (true, m.dirNext, { m with dirNext := m.dirNext + 1 })
    else none

/-- Bytes of an item as it stands at the old owner; none where they cannot be read now (DESIGN CHOICE, log 23). -/
def migBytes (m : Mig) (d : Desc) (dir : Bool) (i : Nat) (s : State) : Option Bytes × State :=
  let get := fun (va n : Nat) (s : State) => if n == 0 then (some ([] : Bytes), s) else match unitRead m.slot va n .probe s with
    | (.data b, s) => (some b, s)
    | (_, s) => (none, s)
  if dir then let sp := migDirSpan d i; get sp.1 sp.2 s
  else
    let row := d.rowOf m.sheet i
    match get (d.masterAddr row) d.mstride s with
    | (none, s) => (none, s)
    | (some w, s) =>
      match get (d.stateAddr row) d.sstride s with
      | (none, s) => (none, s)
      | (some st, s) => (some (w ++ st), s)

/-- Body of a MIG_DATA: the common part, the index and byte offset, the bytes (DESIGN CHOICE of the layout, log 23). -/
def migBody (s : State) (m : Mig) (d : Desc) (aux i off : Nat) (b : Bytes) : Bytes :=
  commonPart d 0 m.step 0 (sheetEpoch s m.slot) b.length aux ++ leBytes 8 (fld 0 40 i + fld 40 24 off) ++ b

/-- Send the messages of one item; at MIG_RATE GB/s, n bytes take n / MIG_RATE ns, and the next item leaves no earlier (R384; DESIGN CHOICE, log 77). -/
def migSend (m : Mig) (d : Desc) (dir : Bool) (i : Nat) (b : Bytes) (s : State) : State :=
  let cs := chunks 8192 b
  let s := { s with mig := some { m with out := cs.length, notBefore := max s.aon m.notBefore + ceilDiv b.length (max 1 (fget s R.MG_FENCE_CFG F.MG_FENCE_CFG_MIG_RATE)) } }
  let s := each cs.zipIdx (fun x s => sendPacket m.dest CL.req K.migData (slotJobId s m.slot) (migBody s m d (natOfBool dir) i (8192 * x.2) x.1) s) s
  migShow 1 1 0 m.next s

/-- The old owner sends the next part, the last one once its meridian of C - 1 has completed and nothing is left (Table 14.6, steps 1, 2 and 4). -/
def migPump (s : State) : State :=
  match s.mig with
  | none => s
  | some m =>
    if m.owner != self s || m.out != 0 || m.last || decide (s.aon < m.notBefore) then s else
    match findDesc s m.slot m.table m.version with
    | none => s
    | some d =>
      match migNext m d with
      | some (dir, i, m') =>
        (match migBytes m d dir i s with
         | (some b, s) => migSend m' d dir i b s
         | (none, s) => s)
      | none =>
        if m.cut then
          let s := { s with mig := some { m with out := 1, last := true } }
          migShow 2 1 0 m.next (sendPacket m.dest CL.req K.migData (slotJobId s m.slot) (migBody s m d 2 0 0 []) s)
        else s

/-- START in MG_MIG_CTRL: the staged migration is accepted, or FAILED (R383). -/
def migStart (s : State) : State :=
  let a := (stagedReg s R.MG_MIG_A).toNat
  let slot := bits a 0 4
  let table := bits a 4 12
  let version := bits a 16 16
  let sheet := bits a 32 6
  let dest := bits a 38 6
  let step := bits (stagedReg s R.MG_MIG_B).toNat 0 48
  match migRefusal s slot table version sheet dest step, findDesc s slot table version with
  | none, some d =>
    let m : Mig := { slot := slot, table := table, version := version, sheet := sheet, owner := d.sheetMap sheet, dest := dest, step := step, next := 0, dirNext := 0,
                     again := [], againDir := [], notBefore := 0, out := 0, last := false, withdrawn := false, cut := false }
    let s := { s with mig := some m, migHeld := [] }
    migPump (migShow (if migRole s m == 0 then 2 else 1) (migRole s m) 0 0 s)
  | some r, _ => setBit R.MG_FENCE_STATUS 4 (migShow 4 0 r 0 s)
  | none, none => s

/-- CANCEL in MG_MIG_CTRL, before the meridian of C - 1 begins (R386). -/
def migCancel (s : State) : State :=
  match s.mig with
  | some m => if merBegun s m.slot (m.step - 1) then s else migFail 7 s
  | none => s

/-- A write of MG_MIG_CTRL: CANCEL only, where both bits are set (R388). -/
def migCtrl (w : Word) (s : State) : State := if wbit w 1 then migCancel s else if wbit w 0 then migStart s else s

/-- Write the bytes of a part at the new owner under its own translation; none where an address cannot be written now. -/
def migWrite (m : Mig) (d : Desc) (dir : Bool) (i off : Nat) (b : Bytes) (s : State) : Option State :=
  let put := fun (va : Nat) (b : Bytes) (s : State) => if b.isEmpty then (true, s) else match unitWrite m.slot va b .probe s with
    | (.ok _, s) => (true, s)
    | (_, s) => (false, s)
  if dir then (match put ((migDirSpan d i).1 + off) b s with
    | (true, s) => some s
    | _ => none)
  else
    let row := d.rowOf m.sheet i
    let w := b.take (d.mstride - off)
    match put (d.masterAddr row + off) w s with
    | (true, s) =>
      (match put (d.stateAddr row + (off - d.mstride)) (b.drop (d.mstride - off)) s with
       | (true, s) => some s
       | _ => none)
    | _ => none

/-- Acknowledge a part. -/
def migAcknowledge (p : Packet) (last : Bool) (s : State) : State :=
  sendPacket p.src CL.rsp K.migAck p.jobId (p.body.take 8 ++ leBytes 8 (natOfBool last)) s

/-- Handle MIG_DATA at the new owner; the last part makes it serve the sheet (Table 14.6, steps 1 and 5). A part that cannot be written now waits (R277). -/
def recvMigData (p : Packet) (s : State) : State :=
  let c := readCommon p.body
  match s.mig with
  | none => s
  | some m =>
    if m.dest != self s || m.owner != p.src || m.table != c.table || m.version != c.version || slotOfJob s p.jobId != some m.slot then s else
    match findDesc s m.slot m.table m.version with
    | none => s
    | some d =>
      let w := leAt p.body 24 8
      if maskBit c.aux 1 then
        let s := each (jobOthers s) (fun b s => sendPacket b CL.sync K.migReady p.jobId (leBytes 8 (fld 0 12 m.table + fld 12 16 m.version + fld 28 6 m.sheet)) s) s
        migDone m (migAcknowledge p true s)
      else
        match migWrite m d (maskBit c.aux 0) (bits w 0 40) (bits w 40 24) (p.body.drop 32) s with
        | some s => migAcknowledge p false s
        | none => { s with migHeld := s.migHeld ++ [p] }

/-- Take up the parts that wait. -/
def migRetry (s : State) : State := each s.migHeld recvMigData { s with migHeld := [] }

/-- Handle MIG_ACK at the old owner. -/
def recvMigAck (p : Packet) (s : State) : State :=
  match s.mig with
  | none => s
  | some m =>
    let w := leAt p.body 0 8
    if m.owner != self s || m.dest != p.src || m.table != bits w 0 12 || m.version != bits w 12 16 || m.out == 0 then s
    else if leAt p.body 8 8 % 2 == 1 then migDone m s
    else migPump { s with mig := some { m with out := m.out - 1 } }

/-- Handle MIG_READY: a block that is neither owner is done; the old one still waits for the MIG_ACK of the last part, and no longer fails (Table 14.6, steps 5 and 6; R386). -/
def recvMigReady (p : Packet) (s : State) : State :=
  match s.mig with
  | none => s
  | some m =>
    let w := leAt p.body 0 8
    if m.dest != p.src || m.table != bits w 0 12 || m.version != bits w 12 16 then s
    else if m.owner == self s then { s with mig := some { m with ready := true } } else migDone m s

/-- A migration whose owners include a block that is lost, or has restarted, fails before MIG_READY (R386). After it the old owner is done: no MIG_ACK will come any more (DESIGN CHOICE, log 23). -/
def migPeerGone (b : Nat) (s : State) : State :=
  match s.mig with
  | some m => if m.owner != b && m.dest != b then s else if m.ready then migDone m s else migFail 6 s
  | none => s

/-! ### Handling RESTART (14 R379, R380) -/

/-- A block has restarted: it is reachable, holds no insets, and held jobs may go on. -/
def blockBack (b : Nat) (s : State) : State :=
  let s := migPeerGone b (awaitForget b (markLost b false s))
  unhold { s with unreach := s.unreach.filter fun x => x != b, lost := s.lost.filter fun x => x != b }

/-- QUERY: answer with this block's sheet epoch (item 2). -/
def recvQuery (port : Nat) (p : Packet) (s : State) : State :=
  let s := blockBack p.src s
  match slotOfJob s (bits (leAt p.body 0 8) 2 8) with
  | none => jobAbsent port s
  | some slot => sendRestart slot RS.reply (sheetEpoch s slot) p.src s

/-- REPLY: held until every block of the job has sent one. -/
def recvReply (port : Nat) (p : Packet) (s : State) : State :=
  match slotOfJob s (bits (leAt p.body 0 8) 2 8) with
  | none => jobAbsent port s
  | some slot => if (mfind slot s.restart).isNone then s else roundCheck slot { s with replies := mput (replyKey slot p.src) (bits (leAt p.body 8 8) 0 32) s.replies }

/-- SET: a larger value is adopted (item 4). -/
def recvSet (port : Nat) (p : Packet) (s : State) : State :=
  match slotOfJob s (bits (leAt p.body 0 8) 2 8) with
  | none => jobAbsent port s
  | some slot =>
    let f := bits (leAt p.body 8 8) 0 32
    if sheetEpoch s slot < f then adoptEpoch slot f s else s

/-! ### Commands -/

end Sys2Proof.Machine
end

