-- ==== Sys2Proof/Machine/PortLife.lean ====
section
/-! DEFINITION. The life of the host port and of the compute port: completions, retrain, training, modules, loss of the compute partner (11 R303, R309, R310; 12 R320 to R322). -/

namespace Sys2Proof.Machine

/-! ### Reads of host memory that end (11 R303, R307, R311) -/

/-- Whether a failed read leaves its operation with HOST_LOST: the port is not in service (11 R303, R311). -/
def hostGone (s : State) : Bool := !hostOpen s

def condLost (q seq : Nat) (s : State) : State := if hostGone s then opCond q seq SC.hostLost s else s

/-- The tag of a fill whose host lines fail retires. -/
def retireFill (d : Dest) (s : State) : State :=
  match s.fetches.find? fun f => f.dest == d with
  | some f => retireTag f.tag s
  | none => s

/-- What a failed read means for its user: a row is missing, any other input is fatal (04 R112; 11 R303, R307, R311). -/
def readLost (r : HRead) (s : State) : State :=
  match r.dest with
  | .tile id key => condLost r.opq r.opseq (tileMisses id key (retireFill r.dest (dropHostReads r.dest s)))
  | .prefetch _ _ _ _ => bump1 R.CNT_PF_DROP (retireFill r.dest (dropHostReads r.dest s))
  | .serve id key =>
    let s := dropHostReads r.dest s
    if key == legendKey then serveFail id EC.inputFault s else serveDone id (setServeRow id key .missing (retireFill r.dest s))
  | .opLine q seq _ => condLost q seq (opReadFail q seq s)
  | .pin _ _ => retireFill r.dest (dropHostReads r.dest s)
  | .nobody => if r.flush then updOp r.opq r.opseq (fun o => { o with flushes := o.flushes - 1 }) (condLost r.opq r.opseq (opEnd r.opq r.opseq SC.faultFatal s)) else s
  | _ => s

/-- An outstanding read fails. -/
def failRead (r : HRead) (s : State) : State := readLost r (hostReadFail r { s with hreads := s.hreads.filter fun x => x != r })

/-- A fill has all of its part. -/
def fillArrived (f : Fetch) (part : Bytes) (s : State) : State :=
  match f.dest with
  | .tile id key => fillTile f id key part s
  | .serve id key => fillServe f id key part s
  | .prefetch q seq _ _ => fillPrefetch f q seq part s
  | .pin k i => fillPin f k i part s
  | _ => absorbTag f.tag s

/-- A fill that cannot be read (08 R234, item 1). -/
def fillBroken (f : Fetch) (s : State) : State :=
  match f.dest with
  | .tile id _ => fillTileUE f id s
  | .serve id _ => fillServeUE f id s
  | .prefetch _ _ _ _ => bump1 R.CNT_PF_DROP (retireTag f.tag s)
  | .pin _ _ => retireTag f.tag s
  | _ => absorbTag f.tag s

/-- Take a fill whose far-memory lines are read as far as it can go. -/
def tryFill (f : Fetch) (s : State) : State :=
  match fillPart s f with
  | .part b => fillArrived f b (dropHostReads f.dest s)
  | .uncorrectable pa => fillBroken f (dropHostReads f.dest (hbmUE pa s))
  | .notYet => s

/-- A read has its bytes. -/
def readGot (r : HRead) (data : Bytes) (s : State) : State :=
  let s := hostRx data.length (bump1 R.CNT_HST_RD_DONE s)
  let gone := { s with hreads := s.hreads.filter fun x => x != r }
  let kept := { s with hreads := updWhere (fun x => x == r) (fun x => { x with got := some data, issued := false }) s.hreads }
  match r.dest with
  | .opLine q seq va => addLines q seq va data gone
  | .nobody => if r.flush then updOp r.opq r.opseq (fun o => { o with flushes := o.flushes - 1 }) gone else gone
  | .serve id key =>
    if key == legendKey then serveLegendGot id kept
    else (match kept.fetches.find? fun f => f.dest == r.dest with
      | some f => tryFill f kept
      | none => gone)
  | d => match kept.fetches.find? fun f => f.dest == d with
    | some f => tryFill f kept
    | none => gone

def findRead (s : State) (tag : Nat) : Option HRead := s.hreads.find? fun r => r.issued && r.tag == tag

/-- A completion of a read of host memory (11 R303; Table 11.7). -/
def hostCompletion (tag : Nat) (status : CplStatus) (data : Bytes) (s : State) : State :=
  if lstate s != LS.up && lstate s != LS.held then s else
  match findRead s tag with
  | none => let (v, s) := freeNat s; hostVlogOpen VH.unexpectedCpl v s
  | some r => hostReadPump (if status == .success && (data.length == r.len || r.flush) then readGot r data s else failRead r s)

/-- No completion within CPL_TIMEOUT. A wait behind a retrain is not subject to it (11 Table 11.4, step 2). -/
def cplTimeout (tag : Nat) (s : State) : State :=
  if lstate s != LS.up then s else
  match findRead s tag with
  | none => s
  | some r => hostReadPump (failRead r s)

/-! ### Retrain and training of the host port (11 R309, R310; 12 R322) -/

/-- The port retrains: from HELD too, where it makes no request to host memory meanwhile (11 R309, Table 11.7). -/
def hostRetrain (s : State) : State :=
  if lstate s != LS.up && lstate s != LS.held then s
  else setBit R.HST_STATUS 1 (bump1 R.CNT_HST_RETRAIN (setLstate LS.retrain { s with hstHeld := lstate s == LS.held }))

/-- RETRAIN of HST_CTRL, ignored unless LSTATE is UP (11 Table 11.10). -/
def hostRetrainReg (s : State) : State := if lstate s == LS.up then hostRetrain s else s

/-- The module is up again, and the port as it was: held writes are replayed, then what queued behind them (Table 11.4, step 4). -/
def hostRetrainDone (s : State) : State :=
  if lstate s != LS.retrain then s else
  let s := setLstate (if s.hstHeld then LS.held else LS.up) { s with hstHeld := false }
  hostDrain (each (s.hwrites.filter (·.sent)) (fun w s => emit (.hostWrite w.path w.addr w.data) (bump1 R.CNT_HST_WR_REPLAY s)) s)

/-- The host module may train: it has a partner, which is not in reset. -/
def hostMayTrain (s : State) : Bool := s.straps.host && !s.hstRst && decide (2 ≤ s.stage) && !wbit (word s.clocksBad) 16

def hostStartTraining (s : State) : State :=
  if hostMayTrain s && (lstate s == LS.down || lstate s == LS.lost) then setLstate LS.training s else s

/-- The host module is in training, also where the port is shown LOST meanwhile (11 Table 11.5, step 6). -/
def hostTraining (s : State) : Bool := hostMayTrain s && (lstate s == LS.training || lstate s == LS.lost)

/-- Training ends: UP the first time since block reset, HELD after a loss of the host. -/
def hostTrained (s : State) : State :=
  if hostTraining s then setLstate (if (rget s R.CNT_HST_LOST) == 0 then LS.up else LS.held) s else s

/-- A module that fails to train at 16 GT/s leaves the port DOWN (11 Table 11.1). It is no loss of the host, which R310 counts; the table has no row of its own for it (DESIGN CHOICE, log 79). -/
def hostUntrained (s : State) : State := if hostTraining s then setLstate LS.down s else s

def hostResume (s : State) : State := if lstate s == LS.held then setLstate LS.up s else s

/-- A write of HST_CTRL: RESUME, then RETRAIN. -/
def hostCtrl (w : Word) (s : State) : State := when (wbit w 1) hostRetrainReg (when (wbit w 0) hostResume s)

/-! ### Modules of the compute port (12 R320, R321) -/

/-- States of a module: 0 DOWN, 1 TRAINING, 2 UP, 3 EXCLUDED; 4 is TRAINING of a module that was UP. -/
def CM.down : Nat := 0
def CM.training : Nat := 1
def CM.up : Nat := 2
def CM.excluded : Nat := 3
def CM.again : Nat := 4

def modState (s : State) (m : Nat) : Nat := s.cptMods.getD m 0

def setMod (m v : Nat) (s : State) : State := { s with cptMods := s.cptMods.set m v }

def modsUp (s : State) : Nat := (s.cptMods.filter fun m => m == CM.up).length

def setPstate (v : Nat) (s : State) : State := fset R.CMD_CPT_LINK F.CMD_CPT_LINK_PSTATE v s

/-- The sideband detects a partner. -/
def modDetect (m : Nat) (s : State) : State :=
  if modState s m == CM.down && decide (m < 8) && !s.cptPrst && decide (2 ≤ s.stage) && !wbit (word s.clocksBad) 15 then setMod m CM.training s else s

/-- A module is UP: PSTATE follows with the first one, and what has waited for a module leaves. -/
def modUp (m : Nat) (s : State) : State :=
  if modState s m == CM.training || modState s m == CM.again then
    let s := setMod m CM.up s
    cptFlush (if s.cptPrst then s else setPstate 1 s)
  else s

/-- The messages that a dropped module had not had acknowledged are sent again on the others: the last of those it has carried, how many of them is a free value (R320, item 4; DESIGN CHOICE, log 92). -/
def resendModule (m : Nat) (s : State) : State :=
  let mine := s.cptSent.filter fun x => x.1 == m
  let (v, s) := freeNat s
  each (mine.drop (v % (mine.length + 1))) (fun x s => cptOut x.2 s) { s with cptSent := s.cptSent.filter fun x => x.1 != m }

/-- A module that is not UP in time is EXCLUDED; one that was in service is counted, and its messages are sent again (R320, items 3 and 4). -/
def modExclude (m : Nat) (s : State) : State :=
  if modState s m == CM.training then setMod m CM.excluded s
  else if modState s m == CM.again then resendModule m (setBit R.CMD_CPT_LINK 23 (bump1 R.CNT_CPT_MOD_DROP (setMod m CM.excluded s)))
  else s

/-- A module leaves UP in service and retrains. -/
def modDown (m : Nat) (s : State) : State := if modState s m == CM.up then setMod m CM.again s else s

/-- RETRAIN_MASK: excluded modules return to DOWN. -/
def retrainMask (mask : Nat) (s : State) : State :=
  each (maskList 8 mask) (fun m s => if modState s m == CM.excluded then setMod m CM.down s else s) s

/-- Whether an operation awaits input of the compute port, or returns results on it (R321, item 3). -/
def needsPort (s : State) (o : Op) : Bool :=
  (o.place == .issued || o.place == .running) && !o.endNow && (waitsData (if o.place == .issued then stagedView s o else o) || (o.opcode == OP.lkPool && !o.outDst))

/-- A numbered message of the block. -/
def isNumbered (x : Out) : Bool := match x with
  | .cpt w0 _ _ => wbits w0 0 4 != MT.credit
  | _ => false

/-- A message that the crossing of a compute module holds. -/
def Crossed.isMessage (x : Crossed) : Bool := match x with
  | .message _ _ _ => true
  | _ => false

/-- What the compute port holds goes with its links: messages that wait for a module, and messages not yet taken (12 R321; 13 R347). -/
def cptDiscard (s : State) : State :=
  bump R.CNT_CPT_MSG_DISCARD (s.cptHeld.filter isNumbered).length { s with cptHeld := [], cptSent := [], crossing := s.crossing.filter fun x => !x.isMessage }

/-- The compute partner is lost (R321). -/
def cptLost (s : State) : State :=
  let s := cptDiscard s
  let s := setBit R.CMD_CPT_LINK 22 (bump1 R.CNT_CPT_LOST (setPstate 2 s))
  let s := each (List.range 16) (fun q s => if (queue s q).state == 0 then s else
    updQueue q (fun x => { x with resGrant := x.resUsed, renotice := true }) (stopQueue q s)) s
  let s := each (s.ops.filter (needsPort s)) abortOp s
  deliverAll { s with cptMods := s.cptMods.map fun m => if m == CM.excluded then CM.down else m }

/-- CPT_PRST_N is asserted, or no module has been UP for 10 ms. -/
def cptPartnerLost (cause : CptLossCause) (s : State) : State :=
  match cause with
  | .resetPin =>
    let s := { s with cptPrst := true }
    if pstate s == 2 then s else cptLost s
  | .noModule => if pstate s == 1 && modsUp s == 0 then cptLost s else s

/-- The pin alone, on a block that is not up. -/
def cptPinLow (cause : CptLossCause) (s : State) : State := match cause with
  | .resetPin => { s with cptPrst := true }
  | .noModule => s

/-! ### Commands -/

/-- HOST_PORT_RETRAIN (11 R309). -/
def execHostPortRetrain (s : State) : Host.Outcome State Fault Refusal := act s hostRetrain

/-- HST_RST_RELEASE (12 R322): the pin is released; the module trains where it may. -/
def execHstRstRelease (s : State) : Host.Outcome State Fault Refusal :=
  actInput s (fun s => hostStartTraining { s with hstRst := false }) fun s => { s with hstRst := false }

/-- CPT_MODULE_DETECT (12 R320, item 2). -/
def execCptModuleDetect (m : Nat) (s : State) : Host.Outcome State Fault Refusal := act s (modDetect m)

/-- CPT_MODULE_EXCLUDE (12 R320, items 3 and 4). -/
def execCptModuleExclude (m : Nat) (s : State) : Host.Outcome State Fault Refusal := act s (modExclude m)

/-- CPT_MODULE_DOWN (12 R320, item 4). -/
def execCptModuleDown (m : Nat) (s : State) : Host.Outcome State Fault Refusal := act s (modDown m)

/-- CPT_PRST_RELEASE (12 R321): the pin is released; PSTATE is UP where a module already is. -/
def execCptPrstRelease (s : State) : Host.Outcome State Fault Refusal :=
  actInput s (fun s => if modsUp s != 0 then setPstate 1 { s with cptPrst := false } else { s with cptPrst := false }) fun s => { s with cptPrst := false }

end Sys2Proof.Machine
end

