-- ==== Sys2Proof/Machine/Power.lean ====
section
/-! DEFINITION. Block reset, power-good, VIN, clocks, supplies, voltage loops, thermal trip, NAP and DEEP, and the tick of always-on time (12 R322 to R334; 13 R340 to R364; 14 R377; 08 R236, R237; 07 R202). -/

namespace Sys2Proof.Machine

/-! ### Block reset (14 R376, R377, Table 14.5; 07 R202, R206) -/

/-- Registers that block reset leaves as they are: the always-on island, the error log's, and the pins (13 R362; 14 R387; 12 R333). -/
def islandRegs : List Nat := [R.MG_PIN_STATUS, R.MG_ELOG_COUNT, R.MG_ELOG_SEL, R.PWR_WAKE_EN, R.PWR_WAKE_AT, R.PWR_WAKE_STATUS, R.PWR_DEEP_COUNT]

/-- What is left of a job slot: the staging of its completed scatters with their residuals, and what an open meridian has committed (14 R381, Table 14.5; 07 R206). -/
def resetJob (l : Journal) (j : Job) : Job :=
  let begun := fun (st : Nat) => l.isOpen && decide (st ≤ l.step)
  { resid := j.resid.filter fun r => !r.flush || begun r.step
    sentRecs := j.sentRecs.filter fun x => x.kind == 0 || begun x.r.step
    sentMarks := j.sentMarks.filter fun m => begun m.2.2.1
    totals := j.totals.filter fun t => begun t.step
    occ := if l.isOpen then j.occ else []
    occDrop := if l.isOpen then j.occDrop else [] }

/-- Everything outside far memory, the nonvolatile store, the always-on island, the error log and the pins takes its reset value; unacknowledged units were never released (log 25). -/
def resetState (s : State) : State :=
  { State.reset with
    pending := s.pending
    fresh := s.fresh
    out := s.out
    regs := s.regs.filter fun x => islandRegs.contains x.1
    aon := s.aon
    vin := s.vin
    pwrGood := s.pwrGood
    blkRst := s.blkRst
    hstRst := s.hstRst
    cptPrst := s.cptPrst
    hbmReleased := s.hbmReleased
    selfRefresh := s.hbmReleased
    rstHigh := s.rstHigh
    tap := s.tap
    straps := s.straps
    clocksBad := s.clocksBad
    powered := s.powered
    temps := s.temps
    page := s.page
    journal := s.journal
    factory := s.factory
    fieldRepair := s.fieldRepair
    repairList := s.repairList
    fwSlots := s.fwSlots
    fwRun := s.fwRun
    fwPref := s.fwPref
    elog := s.elog
    gaz := s.gaz
    far := s.far
    farGen := s.farGen
    lineKey := s.lineKey
    ueLines := s.ueLines
    ledger := s.ledger
    privKey := s.privKey
    jobs := s.jobs.zipIdx.map fun x => resetJob (journalOf s x.2) x.1
    stores := s.stores }

/-! ### Temperatures (08 R236, R237; 12 R333; sensors numbered as log 26 states) -/

/-- Whether the always-on island, the thermal outputs and clock monitoring are live: from 1 ms after PWR_GOOD rises (12 R326). -/
def islandLive (s : State) : Bool := s.powered && decide (1000000 ≤ s.aon)

/-- Whether the thermal outputs are live: not before the island is, and not in DEEP (12 R326, R336; 13 R364). -/
def thermalLive (s : State) : Bool := s.up || (islandLive s && s.pmode != 2)

/-- Whether the readings of a position's vault count: it is enabled, or no position is, as in block reset (12 R336; DEDUCED, log 93). -/
def sensed (s : State) (i : Nat) : Bool := enabled s i || coreCount s == 0

/-- Readings of the vault sensors that count, of the positions that satisfy p: four sensors to a position. -/
def dramReadings (s : State) (p : Nat → Bool) : List Int :=
  (s.temps.filter fun x => decide (x.1 < 576) && p (x.1 / 4) && sensed s (x.1 / 4)).map (·.2)

def maxInt (l : List Int) : Int := l.foldl max 0

/-- Highest DRAM reading of a partition, and of the block; 0 while there is none. -/
def dramMax (s : State) (p : Nat) : Int := maxInt (dramReadings s fun i => partitionOf i == p)
def blockMax (s : State) : Int := maxInt (dramReadings s fun _ => true)

/-- The readings of every vault sensor. -/
def vaultReadings (s : State) : List Int := (s.temps.filter fun x => decide (x.1 < 576)).map (·.2)

/-- Cycles of AON_REFCLK in each 200 for which TEMP_PWM is high: the highest reading over vault and base-die sensors, plus 50; none while it is held low, as it is before the island is live and in DEEP (12 R333, R336; 13 R364). -/
def tempPwm (s : State) : Nat :=
  if !thermalLive s then 0 else
  match (s.temps.filter fun x => decide (x.1 < 580)).map (·.2) with
  | [] => 0
  | x :: r => if fbit s R.MG_PIN_CFG F.MG_PIN_CFG_TPWM_EN then (max (-50) (min 150 (r.foldl max x)) + 50).toNat else 0

/-- Refresh interval of a vault, in ms (08 R236). -/
def vaultRefresh (s : State) (phys : Nat) : Nat := if (s.temps.filter fun x => decide (x.1 < 576) && x.1 / 4 == phys).all (fun x => decide (x.2 ≤ 85)) then 32 else 16

/-- THERM_WARN_N follows BLOCK_MAX with 3 °C of hysteresis. -/
def warnCheck (s : State) : State :=
  let lvl : Int := fget s R.MG_PIN_CFG F.MG_PIN_CFG_WARN_LEVEL
  if lvl ≤ blockMax s then fset R.MG_PIN_STATUS F.MG_PIN_STATUS_WARN_OUT 1 s
  else if blockMax s ≤ lvl - 3 then fset R.MG_PIN_STATUS F.MG_PIN_STATUS_WARN_OUT 0 s else s

/-- Whether THERM_WARN_N is asserted; it is released until the island is live, and in DEEP (12 R333, R336; 13 R364). -/
def warnPin (s : State) : Bool := thermalLive s && fbit s R.MG_PIN_STATUS F.MG_PIN_STATUS_WARN_OUT

/-- Whether THERM_TRIP_N is asserted. -/
def tripPin (s : State) : Bool := thermalLive s && tripped s

/-- The level of HBMk_RESET_N: low until the first start of the stack, and while VIN is absent (12 R323, R336). -/
def hbmResetPin (s : State) (k : Nat) : Bool := s.vin && maskBit s.hbmReleased k

def anyTrip (s : State) : Bool := (vaultReadings s).any fun t => decide (98 ≤ t)

/-- TRIP as the sensors leave it on a block that is in reset: its outputs go on as 12 R333 states, and nothing is counted (12 R336, R377; DEDUCED, log 93). -/
def tripInReset (s : State) : State :=
  if !thermalLive s then s
  else if anyTrip s then fset R.NM_TEMP F.NM_TEMP_TRIP 1 s
  else if (vaultReadings s).all fun t => decide (t ≤ 92) then fset R.NM_TEMP F.NM_TEMP_TRIP 0 s else s

/-- A reading of a sensor. -/
def temperature (sensor : Nat) (celsius : Int) (s : State) : State :=
  if !thermalLive s then s else warnCheck { s with temps := mput sensor celsius s.temps }

/-- A reading of a sensor while the block is in reset. -/
def temperatureInReset (sensor : Nat) (celsius : Int) (s : State) : State := tripInReset (temperature sensor celsius s)

/-- The block enters thermal trip. -/
def thermalTrip (s : State) : State :=
  if tripped s || !anyTrip s then s else
  let s := setBit R.NM_STATUS 3 (bump1 R.CNT_THERMAL_TRIP (fset R.NM_TEMP F.NM_TEMP_TRIP 1 s))
  errBit 0 (elog 0x0E EU.block 0 (maxInt (vaultReadings s)).toNat 0 0 s)

/-- Whether every sensor reads 92 °C or below. -/
def tripOver (s : State) : Bool := (vaultReadings s).all fun t => decide (t ≤ 92)

def thermalTripExit (s : State) : State := if tripped s && tripOver s then fset R.NM_TEMP F.NM_TEMP_TRIP 0 s else s

/-! ### Block reset and its release -/

/-- The block as block reset, or DEEP, leaves it. The thermal outputs go on: THERM_WARN_N by WARN_LEVEL as it is after reset, THERM_TRIP_N as before (12 R336). -/
def toReset (s : State) : State :=
  let t := resetState s
  warnCheck (if tripped s then fset R.NM_TEMP F.NM_TEMP_TRIP 1 t else t)

/-- The block enters block reset (12 R329; 14 R377). cause is the DETAIL of its log entry. -/
def blockReset (cause : Nat) (s : State) : State := { toReset (elog 0x04 EU.block 0 cause 0 0 s) with blkRst := true }

/-- Power-good has fallen, or VAON is at fault: one shutdown, then reset until power-good returns (07 R202; 12 R329, R331; 13 R349). A firmware image that was being written is lost (15 R405). -/
def powerFall (s : State) : State :=
  if !s.powered then s else
  let busy := s.fwBusy
  let s := if s.blkRst then s else blockReset 3 s
  let s := { s with powered := false, pmode := 0, released := none, tap := .testLogicReset }
  if busy then { s with fwSlots := s.fwSlots.modify (1 - s.fwRun) fun _ => { whole := false, image := [] } } else s

/-- Far memory loses its contents, with its stacks or by a test of it, and with them all that the block keeps there (07 R202; 12 R336; 15 R396). -/
def forgetFar (s : State) : State :=
  { s with
    far := []
    farGen := s.farGen + 1
    lineKey := []
    ueLines := []
    ledger := []
    gaz := []
    stores := []
    jobs := List.replicate 16 {}
    page := []
    journal := []
    resuming := [] }

/-- The straps as sampled: coordinates, and sizes from sizes minus one (12 Table 12.5). -/
def sampleStraps (t : Straps) : Straps :=
  { xc := t.xc % 4, yc := t.yc % 4, zc := t.zc % 4, xd := t.xd % 4 + 1, yd := t.yd % 4 + 1, zd := t.zd % 4 + 1, host := t.host }

/-- Stage k of a start runs: its survey shows it (15 R392, Table 15.3). -/
def beginStage (k : Nat) (s : State) : State :=
  rset (R.SRV_REPORTk_Ww k 0) (word (fld 0 4 k + fld 4 3 1 + fld 7 1 (natOfBool (s.startMode == 2)))) { s with stage := k }

/-- A start of the block begins with stage 1 (15 R392, R401). -/
def beginStart (s : State) : State := beginStage 1 { s with startMode := 0 }

/-- A release of BLK_RST_N takes effect: the straps are sampled and a start begins (12 R326, R329). -/
def leaveReset (t : Straps) (s : State) : State := beginStart { s with blkRst := false, released := none, straps := sampleStraps t }

/-- BLK_RST_N is released, or found high as power-good returns; earlier than 1 ms after the rise of PWR_GOOD, the release takes effect at the end of that time (12 R326). -/
def resetReleased (t : Straps) (s : State) : State :=
  let s := { s with rstHigh := some t }
  if !s.powered || !s.blkRst then s else if islandLive s then leaveReset t s else { s with released := some t }

/-- A release that was held takes effect when its time has come. -/
def heldRelease (s : State) : State := match s.released with
  | some t => if islandLive s && s.blkRst then leaveReset t s else s
  | none => s

/-! ### A FAILED port (12 R323; 15 R403) -/

/-- An HBM port becomes FAILED, until block reset, and is marked in the repair map: every row with a part or an entry on its stack is counted lost (07 R206). -/
def hbmPortFailed (k detail : Nat) (s : State) : State :=
  if decide (8 ≤ k) || hbmFailed s k then s else
  let lost := stackLoses s k
  let s := fset (R.HBM_Pk_STATUS k) F.HBM_Pk_STATUS_TRAINED 0 (setRepair (144 + k) 1 { s with hbmDown := maskSet s.hbmDown k })
  let s := errBit 1 (elog 0x08 EU.hbm k detail 0 0 s)
  each (List.range 16) (fun j s => rowsLost j ((lost.filter fun x => x.1 == j).map fun x => x.2.1 * 2 ^ 40 + x.2.2) s) s

/-! ### Reference clocks (12 R328, Table 12.4) -/

/-- What a lost clock does in service. -/
def clockEffect (c : Nat) (s : State) : State :=
  if c == 0 then errBit 3 s
  else if c == 1 then each (List.range 8) modDown s
  else if c == 2 then hostRetrain s
  else if c ≤ 10 then (if fbit s (R.HBM_Pk_STATUS (c - 3)) F.HBM_Pk_STATUS_TRAINED then hbmPortFailed (c - 3) 1 s else s)
  else retrainPort (c - 11) s

/-- A reference clock fails, on a powered block that is not up. -/
def clockGone (c : Nat) (s : State) : State :=
  if !islandLive s || decide (17 ≤ c) || clockBad s c then s else { s with clocksBad := maskSet s.clocksBad (clockBit c) }

def clockLoss (c : Nat) (s : State) : State :=
  if decide (17 ≤ c) || clockBad s c then s
  else clockEffect c (elog 0x0A EU.clock c c 0 0 (bump1 R.CNT_CLK_LOSS { s with clocksBad := maskSet s.clocksBad (clockBit c) }))

/-- A reference clock is good again, on a powered block that is not up. -/
def clockBack (c : Nat) (s : State) : State :=
  if !islandLive s || decide (17 ≤ c) || !clockBad s c then s else { s with clocksBad := maskClear s.clocksBad (clockBit c) }

/-- Modules that left UP for want of their clock return through DOWN (12 Table 12.4). -/
def modsBack (s : State) : State := { s with cptMods := s.cptMods.map fun m => if m == CM.training || m == CM.again then CM.down else m }

/-- A clock is recovered: the modules return through DOWN; the other ports act as their own rules state. -/
def clockRecover (c : Nat) (s : State) : State :=
  if decide (17 ≤ c) || !clockBad s c then s else
  let s := { s with clocksBad := maskClear s.clocksBad (clockBit c) }
  if c == 1 then modsBack s else s

/-! ### Operating point (13 R350 to R353) -/

/-- An event of PWR_STATUS that concerns a partition. -/
def pwrEvent (bit p : Nat) (s : State) : State := setBitFor R.PWR_STATUS bit 6 p s

/-- One run of a partition's thermal loop. -/
def thermalOne (p : Nat) (tb : Int) (s : State) : State :=
  let t := dramMax s p
  let th := s.therm.getD p 750
  let put := fun (v : Nat) (s : State) => { s with therm := s.therm.set p v }
  if 95 ≤ t || 105 ≤ tb then
    let v := max 550 (th - 10)
    let s := if v < th then pwrEvent 0 p (put v s) else put v s
    if v == 550 then pwrEvent 3 p s else s
  else if t ≤ 92 && tb ≤ 102 then put (min (vsetMv s p) (th + 10)) s
  else s

/-- The thermal loops of one period. -/
def thermalLoop (base : List Int) (s : State) : State :=
  let s := { s with temps := (List.range 4).foldl (fun l p => mput (576 + p) (base.getD p 0) l) s.temps }
  let s := each (List.range 4) (fun p s => thermalOne p (base.getD p 0) s) s
  if (List.range 4).any fun p => decide (s.therm.getD p 750 < vsetMv s p) then bump1 R.CNT_PWR_THERM_US s else s

/-- Highest of a partition value. -/
def maxPart (f : Nat → Nat) : Nat := (List.range 4).foldl (fun m p => max m (f p)) 0

/-- The power loop of one period; power is the average over the last 1 ms, in W. The current, and VIN at its sense point, are open values (log 27). -/
def powerLoop (watts : Nat) (s : State) : State :=
  let lim := fget s R.PWR_LIMIT F.PWR_LIMIT_LIMIT
  let (i, s) := freeNat s
  let (v, s) := freeNat s
  let s := fset R.PWR_RAIL F.PWR_RAIL_POWER watts (fset R.PWR_RAIL F.PWR_RAIL_IIN i (fset R.PWR_RAIL F.PWR_RAIL_VIN_MV v s))
  let e := s.energy + watts
  let s := bump R.CNT_PWR_ENERGY_MJ (e / 10) { s with energy := e % 10 }
  let c := s.pwrCeil
  let s :=
    if lim < watts then
      let v := max 550 (c - 10)
      when (decide (v < c)) (setBit R.PWR_STATUS 1) { s with pwrCeil := v }
    else if 100 * watts ≤ 95 * lim then { s with pwrCeil := min 900 (c + 10) } else s
  if s.pwrCeil < maxPart (vsetMv s) then bump1 R.CNT_PWR_LIMIT_US s else s

/-- The fast limiter: voltages are kept in tenths of a millivolt. -/
def fastLimit (amps : Nat) (s : State) : State :=
  if amps ≤ 380 then s else
  let v := maxPart fun p => s.volts.getD p 0 / 10
  setBit R.PWR_STATUS 2 (bump1 R.CNT_PWR_FAST_LIMIT { s with pwrCeil := max 550 (v - 50), fast := true })

/-- Move a voltage toward its target by a step. -/
def rampTo (step v t : Nat) : Nat := if v ≤ t then min t (v + step) else max t (v - step)

/-- Whether the partitions follow their targets: the supplies are up, and the block is not in retention. -/
def ramping (s : State) : Bool := s.up && decide (2 ≤ s.stage) && s.pmode != 1

/-- One tick of 40 ns of every regulator: 10 mV per µs, or 50 mV per µs under the fast limiter. A partition in reset has no supply (14 Table 14.4). -/
def rampVolts (s : State) : State :=
  if !ramping s then s else
  let step := if s.fast then 20 else 4
  let on := fun (p : Nat) => !s.scopes.contains { partition := true, index := p }
  let v := (List.range 4).map fun p => if on p then rampTo step (s.volts.getD p 0) (10 * vtarget s p) else s.volts.getD p 0
  { s with volts := v, fast := s.fast && (List.range 4).any fun p => on p && v.getD p 0 != 10 * vtarget s p }

/-- The pace meters of one period of 10 µs (13 R342). -/
def paceMeter (counts : List Nat) (s : State) : State :=
  let s := if s.pmode == 1 then s else
    rset R.PWR_PACE (word ((List.range 4).foldl (fun a p => a + fld (16 * p) 16 (sat 16 (counts.getD p 0 / 10))) 0)) s
  each (List.range 4) (fun p s => pmc PMC.pace (some p) none none (counts.getD p 0) s) s

/-! ### Supplies (13 R349) -/

/-- A fault of a partition's supply (Table 13.3, supplies 0 to 7): its partition is reset. -/
def railFault (k : Nat) (s : State) : State :=
  resetScope true (k % 4) 2 (errBit 2 (pwrEvent 5 (k % 4) (elog 0x09 EU.supply k k 0 0 (bump1 R.CNT_PWR_RAIL_FAULT s))))

/-- A fault of a supply of the block (supplies 8 to 13): block reset, or a shutdown for VAON. In block reset its registers stay at their reset values. -/
def supplyFault (k : Nat) (s : State) : State :=
  let s := if s.blkRst then s else errBit 2 (setBit R.PWR_STATUS 5 (elog 0x09 EU.supply k k 0 0 (bump1 R.CNT_PWR_RAIL_FAULT s)))
  if k == 13 then powerFall s else blockReset 2 s

/-! ### Power states (13 R354 to R361) -/

def tol (s : State) : Nat := fget s R.PWR_LATENCY F.PWR_LATENCY_TOL

def deepEn (s : State) : Bool := fbit s R.PWR_CFG F.PWR_CFG_DEEP_EN

/-- The deepest state that TOL and DEEP_EN permit: 1 IDLE, 2 NAP, 3 DEEP. -/
def allowed (s : State) : Nat := if tol s < 50 then 1 else if decide (900000 ≤ tol s) && deepEn s then 3 else 2

/-- Whether a packet of this block is unacknowledged on a link or in an ordered stream, or still waits to leave. -/
def packetsOut (s : State) : Bool :=
  s.ports.any (fun q => q.replay.any fun r => match r.pkt with
    | some p => p.src == self s
    | none => false)
  || s.ostreams.any (fun x => !x.2.unacked.isEmpty || !x.2.waiting.isEmpty) || s.sendQ.any fun x => x.2.src == self s

/-- The first unmet condition of R356; 0 when all hold. -/
def napBlocker (s : State) : Nat :=
  if tol s < 50 then 1
  else if s.ops.any fun o => o.place == .issued || o.place == .running || o.place == .aside then 2
  else if !s.flights.isEmpty || s.ledger.any fun x => x.2.state == 1 then 3
  else if !s.fq.isEmpty || s.inval.isSome then 4
  else if !s.hostHeld.isEmpty || !s.winReqs.isEmpty || !s.fwd.isEmpty || !s.hreads.isEmpty || !s.hwrites.isEmpty || !s.hostCpls.isEmpty
    || !(lstate s == LS.up || lstate s == LS.down || lstate s == LS.held) then 5
  else if (s.arrived ++ s.kept).any (fun a => a.p.dest == self s) || packetsOut s then 6
  else if (List.range 16).any (fun k => pinState s k == 1) || tripped s then 7
  else if fbit s R.MG_CFG_STATUS F.MG_CFG_STATUS_PENDING then 8
  else 0

/-- Every condition for NAP, on a block that is ready (15 R397). -/
def mayNap (s : State) : Bool := ready s && s.pmode == 0 && napBlocker s == 0

/-- The retention voltages of NAP, in tenths of a millivolt: VCORE and VSRAM (Table 13.3). -/
def retention : Nat := 5000
def sramRetention : Nat := 5500

/-- VSRAM of a partition, in tenths of a millivolt: the higher of VCORE + 50 mV and 0.70 V, its retention voltage in NAP, and none without its supply (13 R348, Table 13.3; 14 Table 14.4). -/
def vsram (s : State) (p : Nat) : Nat :=
  if s.pmode == 1 then sramRetention else if s.volts.getD p 0 == 0 && partReset s p then 0 else max (s.volts.getD p 0 + 500) 7000

/-- Whether a module of the compute port, or the host's, is in L1 of UCIe: those that are UP are, from the first step of an entry into NAP on (R357). -/
def cptInL1 (s : State) (m : Nat) : Bool := (s.pmode == 1 || s.pmode == 4) && modState s m == CM.up
def hostInL1 (s : State) : Bool := (s.pmode == 1 || s.pmode == 4) && lstate s == LS.up

/-- Enter NAP: steps 1 to 3, with the modules in L1, the vaults and the stacks in self-refresh; step 4 is 20 µs away (R357). -/
def napEntry (s : State) : State := if !mayNap s then s else { s with pmode := 4, modeAt := s.aon + 20000, selfRefresh := 511 }

/-- Step 4: every partition in retention, and the entry counted. -/
def napReached (s : State) : State := bump1 R.CNT_PWR_NAP (rset R.PWR_PACE 0 { s with pmode := 1, volts := List.replicate 4 retention })

/-- Leave NAP: stacks and vaults leave self-refresh, the contour halvings that fell due are applied, and the supplies rise to their targets at their rate (R350, R357). -/
def leaveNap (s : State) : State :=
  each (List.range s.contourDue) (fun _ s => decayContours s) { s with pmode := 0, selfRefresh := 0, contourDue := 0 }

/-- An entry is abandoned (R361). -/
def abandoned (s : State) : State := setBit R.PWR_STATUS 4 (bump1 R.CNT_PWR_ABANDON s)

/-- Abandon the entry into DEEP: the stacks leave self-refresh, the host module trains again, and the ports disabled for it start again through ENABLE (R361). -/
def abandonDeep (s : State) : State :=
  let ports := s.deepOff
  let was := s.pmode
  let s := abandoned { s with pmode := 0, selfRefresh := 0, deepOff := [], deepWait := [] }
  each ports enablePort (if was == 5 then hostStartTraining s else s)

/-- A wake event: the block leaves NAP, or abandons an entry under way (R357, R361). -/
def wake (s : State) : State :=
  if s.pmode == 1 then leaveNap s
  else if s.pmode == 4 then abandoned (leaveNap s)
  else if s.pmode == 3 || s.pmode == 5 then abandonDeep s else s

/-- A command that is a wake event while the block is up: the block wakes, then the command has its effect. -/
def actAwake (s : State) (f : State → State) : Host.Outcome State Fault Refusal := act s fun s => f (wake s)

/-- A write of PWR_LATENCY: a TOL below the exit latency of the present state wakes the block (R355). -/
def writeLatency (w : Word) (s : State) : State :=
  let s := rset R.PWR_LATENCY (word (wbits w 0 32)) s
  if ((s.pmode == 1 || s.pmode == 4) && decide (tol s < 50)) || ((s.pmode == 3 || s.pmode == 5) && decide (tol s < 900000)) then wake s else s

/-- Every condition for DEEP (R358). -/
def mayDeep (s : State) : Bool :=
  ready s && decide (s.pmode ≤ 1) && allowed s == 3 && napBlocker s == 0 && !(List.range 16).any (slotOn s) && s.fwd.isEmpty && s.keyPend.isEmpty

/-- Step 5 of Table 13.7: the block is in DEEP, with everything outside far memory and the island lost. -/
def deepReached (s : State) : State := { toReset (bump1 R.PWR_DEEP_COUNT s) with pmode := 2, tap := .testLogicReset }

/-- Step 3: the modules and the host's take the link-disabled state. Step 4 is 1 ms away, step 5 1.5 ms. -/
def deepDisable (s : State) : State :=
  setLstate LS.down (setPstate 0 { s with pmode := 5, modeAt := s.aon + 1500000, cptMods := List.replicate 8 CM.down, cptSent := [], cptHeld := [] })

/-- Go on into DEEP once every disabled port has its HANDOFF. -/
def deepProgress (s : State) : State := if s.pmode == 3 && s.deepWait.isEmpty then deepDisable s else s

/-- Enter DEEP: the journal takes the check value of selector 0, and the UP ports leave service (Table 13.7, steps 1 and 2). -/
def deepEntry (s : State) : State :=
  if !mayDeep s then s else
  let s := if s.pmode == 1 then leaveNap s else s
  let s := if keyLoaded s 0 then recordKcv (keyCheck (keyOf s 0)) s else s
  let up := (List.range 6).filter fun k => portState s k == PS.up || portState s k == PS.retrain
  deepProgress (each up disablePort { s with pmode := 3, deepOff := up, deepWait := up })

/-- Steps of an entry that fall due with time: step 4 of NAP; of DEEP, self-refresh of the stacks, and step 5. -/
def modeStep (s : State) : State :=
  if s.pmode == 4 && decide (s.modeAt ≤ s.aon) then napReached s
  else if s.pmode == 5 && decide (s.modeAt ≤ s.aon) then deepReached s
  else if s.pmode == 5 && decide (s.modeAt ≤ s.aon + 500000) then { s with selfRefresh := s.selfRefresh ||| 255 }
  else s

/-- A port whose partner sends no HANDOFF abandons the entry. -/
def deepHandoffTimeout (k : Nat) (s : State) : State := if s.pmode == 3 && s.deepWait.contains k then abandonDeep s else s

/-- Whether a comparator of Table 13.8 can fire as the block stands. -/
def comparatorMay (s : State) (c : Nat) : Bool :=
  if c == 1 then (rget s R.PWR_WAKE_AT) != 0 && decide ((rget s R.PWR_WAKE_AT).toNat ≤ s.aon)
  else if c == 3 then s.straps.host
  else if c == 4 then (List.range 6).any (portWired s)
  else decide (c < 8)

/-- A comparator fires in DEEP: its HIT bit, and a wake where it is enabled (R360, R362; 17 R439). -/
def deepWake (c : Nat) (s : State) : State :=
  if s.pmode != 2 || s.blkRst || !s.powered || !comparatorMay s c then s else
  let s := setBit R.PWR_WAKE_STATUS c s
  if !wbit (rget s R.PWR_WAKE_EN) c then s else
  let s := rset R.PWR_STATE (word (fld 8 3 c + fld 11 1 1)) { s with pmode := 0 }
  beginStart (if wbit (rget s R.PWR_WAKE_STATUS) 5 then errBit 6 s else s)

/-! ### The tick (13 R363; 17 R442) -/

/-- Cores of a partition that hold a tile of the running operation. -/
def busyCores (o : Op) (p : Nat) : Nat := (nub ((o.tiles.filter fun t => partitionOf t.core == p).map (·.core))).length

/-- Time-driven programmable counters of one tick: busy cores, a running operation, meridians, tags held. -/
def tickCounters (s : State) : State :=
  let s := match running s with
    | some o => each (List.range 4) (fun p s => pmc PMC.coreBusy (some p) none (some o.queue) (40 * busyCores o p) s) (pmc PMC.opRun none none (some o.queue) 40 s)
    | none => s
  let s := each (List.range 16) (fun j s => if fget s (R.CMD_GS_Jj_STEP j) F.CMD_GS_Jj_STEP_MSTATE == 3 then pmc PMC.meridian none none (some j) 40 s else s) s
  let n := s.tagNs + 40 * ownOut s
  pmc PMC.tagUs none none none (n / 1000) { s with tagNs := n % 1000 }

/-- IDLE flits at the end of every microsecond (10 R274). -/
def idleFlits (s : State) : State := if s.aon % 1000 < 40 then sendIdles s else s

/-- The modules have had their messages acknowledged (12 R320; DESIGN CHOICE, log 92). -/
def cptAck (s : State) : State := { s with cptSent := [] }

/-- One tick of 40 ns with no command: time, voltages, the host adapter's acknowledgements, time-driven counters, and the packets that wait try again (DESIGN CHOICE, log 5). -/
def idleTick (s : State) : State :=
  let s := heldRelease (if s.powered then { s with aon := s.aon + 40 } else s)
  if s.up then holdInputs s (modeStep (migPump (pumpLinks (idleFlits (tickCounters (cptAck (hostAck (rampVolts s)))))))) else s

/-! ### Commands -/

/-- BLK_RST_ASSERT (12 R329). -/
def execBlkRstAssert (s : State) : Host.Outcome State Fault Refusal :=
  actAlways s fun s =>
    let s := { s with rstHigh := none }
    if s.powered && !s.blkRst then blockReset 1 s else { s with released := none }

/-- BLK_RST_RELEASE (12 R326, R329, R330). -/
def execBlkRstRelease (t : Straps) (s : State) : Host.Outcome State Fault Refusal :=
  actAlways s (resetReleased t)

/-- PWR_GOOD_FALL (07 R202; 12 R329, R331). -/
def execPwrGoodFall (s : State) : Host.Outcome State Fault Refusal := actAlways s fun s => powerFall { s with pwrGood := false }

/-- PWR_GOOD_RISE (12 R326; 13 R362; 14 R387): the always-on island and the error log start afresh. -/
def execPwrGoodRise (s : State) : Host.Outcome State Fault Refusal :=
  actAlways s fun s =>
    if s.pwrGood || !s.vin then s
    else { s with pwrGood := true, powered := true, blkRst := true, released := s.rstHigh, aon := 0, energy := 0, elog := [], regs := [], temps := [] }

/-- VIN_RISE (12 R323). -/
def execVinRise (s : State) : Host.Outcome State Fault Refusal :=
  actAlways s fun s => if s.vin then s else { s with vin := true, hbmReleased := 0, selfRefresh := 0 }

/-- VIN_REMOVAL (07 R202; 12 R336). -/
def execVinRemoval (s : State) : Host.Outcome State Fault Refusal :=
  actAlways s fun s =>
    if s.vin then forgetFar { powerFall s with vin := false, pwrGood := false, hbmReleased := 0, selfRefresh := 0 } else s

/-- CLOCK_LOSS (12 R328). -/
def execClockLoss (c : Nat) (s : State) : Host.Outcome State Fault Refusal := actInput s (clockLoss c) (clockGone c)

/-- CLOCK_RECOVER (12 R328). -/
def execClockRecover (c : Nat) (s : State) : Host.Outcome State Fault Refusal := actInput s (clockRecover c) (clockBack c)

/-- THERMAL_LOOP (13 R351). -/
def execThermalLoop (base : List Int) (s : State) : Host.Outcome State Fault Refusal := act s (thermalLoop base)

/-- POWER_LOOP (13 R352). -/
def execPowerLoop (watts : Nat) (s : State) : Host.Outcome State Fault Refusal := act s (powerLoop watts)

/-- FAST_LIMIT (13 R352). -/
def execFastLimit (amps : Nat) (s : State) : Host.Outcome State Fault Refusal := act s (fastLimit amps)

/-- PACE_METER (13 R342). -/
def execPaceMeter (counts : List Nat) (s : State) : Host.Outcome State Fault Refusal := act s (paceMeter counts)

/-- RAIL_FAULT (13 R349). In DEEP only VAON and VIO12 are on. -/
def execRailFault (k : Nat) (s : State) : Host.Outcome State Fault Refusal :=
  if k < 8 then act s (railFault k)
  else actAlways s fun s => if decide (k < 14) && (s.up || (s.powered && (k == 13 || (k == 12 && s.pmode == 2)))) then supplyFault k s else s

/-- THERMAL_TRIP (08 R237). -/
def execThermalTrip (s : State) : Host.Outcome State Fault Refusal := actInput s thermalTrip tripInReset

/-- THERMAL_TRIP_EXIT (08 R237). -/
def execThermalTripExit (s : State) : Host.Outcome State Fault Refusal := actInput s thermalTripExit tripInReset

/-- NAP_ENTRY (13 R356, R357). -/
def execNapEntry (s : State) : Host.Outcome State Fault Refusal := act s napEntry

/-- NAP_WAKE (13 R357, R361). -/
def execNapWake (_ev : NapWake) (s : State) : Host.Outcome State Fault Refusal := act s wake

/-- DEEP_ENTRY (13 R358, R359). -/
def execDeepEntry (s : State) : Host.Outcome State Fault Refusal := act s deepEntry

/-- DEEP_HANDOFF_TIMEOUT (13 R359). -/
def execDeepHandoffTimeout (k : Nat) (s : State) : Host.Outcome State Fault Refusal := act s (deepHandoffTimeout k)

/-- DEEP_WAKE (13 R360, R362). -/
def execDeepWake (c : Nat) (s : State) : Host.Outcome State Fault Refusal := actAlways s (deepWake c)

/-- HBM_PORT_FAILED (12 R323). -/
def execHbmPortFailed (k : Nat) (crc : Bool) (s : State) : Host.Outcome State Fault Refusal := act s (hbmPortFailed k (if crc then 2 else 1))

/-- TEMPERATURE_READING (12 R333; 08 R236). -/
def execTemperatureReading (sensor : Nat) (celsius : Int) (s : State) : Host.Outcome State Fault Refusal := actInput s (temperature sensor celsius) (temperatureInReset sensor celsius)

/-- CONTOUR_DECAY (08 R212; 13 R357): one that falls due in NAP is applied at its exit. -/
def execContourDecay (s : State) : Host.Outcome State Fault Refusal :=
  act s fun s => if s.pmode == 1 then { s with contourDue := s.contourDue + 1 } else decayContours s

end Sys2Proof.Machine
end

