-- ==== Sys2Proof/Machine/Apply.lean ====
section
/-! DEFINITION. Configuration transactions, firmware updates and the controls of the start (15 R391, R403 to R409; 03 R53, R55; 08 R221; 09 R246; 06 Table 6.9). -/

namespace Sys2Proof.Machine

/-! ### Staged values (15 R406) -/

/-- The block as it would be with every staged value active. -/
def withStaged (s : State) : State := each s.staged (fun x s => rset x.1 x.2 s) s

/-! ### The check (15 R407) -/

/-- A failing field: register and lowest bit. -/
def failIf (c : Bool) (off bit : Nat) : List (Nat × Nat) := if c then [(off, bit)] else []

/-- Conditions of R53 and R240 on job slot j; t has the staged values active. -/
def checkSlot (s t : State) (j : Nat) : List (Nat × Nat) :=
  let r := R.CMD_Qj_CFG j
  if slotOn t j then
    failIf (slotCtx t j == 0) r 1
    ++ failIf ((List.range 16).any fun i => i != j && slotOn t i && slotJobId t i == slotJobId t j) r 7
    ++ failIf (fget t r F.CMD_Qj_CFG_CART_LOG2 < 4) r 15
  else failIf (slotOn s j && (!(queue s j).staged.isEmpty || s.ops.any fun o => o.queue == j && (o.place == .issued || o.place == .running))) r 0

/-- Bytes of the three stores of a slot (06 Table 6.9). -/
def storeBytes (cfg : Nat) : Nat := 64 * (2 ^ bits cfg 0 5 + 2 ^ bits cfg 5 5 + (if bits cfg 10 5 == 0 then 0 else 2 ^ bits cfg 10 5))

def gsCfg (s : State) (j : Nat) : Nat := wbits (rget s (R.CMD_GS_Jj_CFG j)) 0 16

/-- Conditions of Table 6.9 on job slot j; the sum names the slot that exceeds it (DESIGN CHOICE, log 28). -/
def checkStores (t : State) (j : Nat) : List (Nat × Nat) :=
  if !slotOn t j then [] else
  let c := gsCfg t j
  let r := R.CMD_GS_Jj_CFG j
  failIf (bits c 0 5 < 16 || 288 * 2 ^ 30 < sumNat (((List.range (j + 1)).filter (slotOn t)).map fun i => storeBytes (gsCfg t i))) r 0
  ++ failIf (bits c 5 5 < 16) r 5
  ++ failIf (bits c 10 5 != 0 && bits c 10 5 < 16) r 10

/-- Whether two regions share a row. -/
def pinsMeet (t : State) (i k : Nat) : Bool :=
  pinA t i F.NM_PINk_A_SLOT == pinA t k F.NM_PINk_A_SLOT && pinA t i F.NM_PINk_A_TABLE_ID == pinA t k F.NM_PINk_A_TABLE_ID
    && pinA t i F.NM_PINk_A_VERSION == pinA t k F.NM_PINk_A_VERSION
    && decide (pinFirst t i < pinFirst t k + pinA t k F.NM_PINk_A_COUNT) && decide (pinFirst t k < pinFirst t i + pinA t i F.NM_PINk_A_COUNT)

/-- Conditions of R221 on region k; the field named is the model's choice (log 28). -/
def checkPin (t : State) (k : Nat) : List (Nat × Nat) :=
  if !pinOn t k then [] else
  let r := R.NM_PINk_A k
  match pinDesc t k with
  | none => failIf (!slotOn t (pinA t k F.NM_PINk_A_SLOT)) r 1 ++ failIf true r 17
  | some d =>
    let n := pinA t k F.NM_PINk_A_COUNT
    let inside := match d.sheetOf (self t) with
      | some sh => decide (pinFirst t k + n ≤ sheetRows d sh)
      | none => false
    failIf (!slotOn t (pinA t k F.NM_PINk_A_SLOT)) r 1
    ++ failIf (!(d.state == 1 || d.state == 2 || (d.state == 3 && !d.released))) r 17
    ++ failIf (n == 0 || !inside) r 33
    ++ failIf ((List.range k).any fun i => pinOn t i && pinsMeet t i k) (R.NM_PINk_B k) 0

/-- Lines of the pin band that no vault in service has retired: what each region's lines may take (08 R230; DESIGN CHOICE, log 76). -/
def bandLines (t : State) : Nat :=
  64 * fget t R.NM_PIN_SETS F.NM_PIN_SETS_PIN_SETS - ((enabledCores t).map fun c => ((retiredPins t).filter fun l => l / 2 ^ 23 == c.1).length).foldl max 0

/-- The pin band must hold every enabled region. -/
def checkBand (t : State) : List (Nat × Nat) :=
  failIf (bandLines t < sumNat (((List.range 16).filter (pinOn t)).map (pinLines t))) R.NM_PIN_SETS 0

/-- Conditions on registers of the whole block. -/
def checkBlock (t : State) : List (Nat × Nat) :=
  let nm := fget t R.NM_CFG
  let bad := fun (p : Nat) => decide (vsetMv t p < 550) || decide (900 < vsetMv t p) || vsetMv t p % 10 != 0
  failIf (12 < nm F.NM_CFG_CONTOUR_LOG2) R.NM_CFG 0
  ++ failIf (nm F.NM_CFG_DECAY_LOG2 < 4 || 20 < nm F.NM_CFG_DECAY_LOG2) R.NM_CFG 28
  ++ failIf (nm F.NM_CFG_LEASE == 0) R.NM_CFG 33
  ++ failIf (fget t R.TLB_CFG F.TLB_CFG_HOT_T == 0) R.TLB_CFG 16
  ++ failIf (20 < fget t R.TLB_CFG F.TLB_CFG_HOT_DECAY) R.TLB_CFG 32
  ++ failIf (nblocks t ≤ fget t R.LNK_CFG F.LNK_CFG_ROOT_BLOCK) R.LNK_CFG 0
  ++ failIf (fget t R.LNK_CFG F.LNK_CFG_FWD_TIMEOUT == 0) R.LNK_CFG 6
  ++ failIf (fget t R.HST_CFG F.HST_CFG_CPL_TIMEOUT == 0) R.HST_CFG 0
  ++ failIf (fget t R.HST_CFG F.HST_CFG_RETRAIN_LIMIT == 0) R.HST_CFG 16
  ++ failIf (fget t R.PWR_CFG F.PWR_CFG_NAP_AFTER < 10) R.PWR_CFG 0
  ++ failIf (fget t R.PWR_CFG F.PWR_CFG_DEEP_AFTER == 0) R.PWR_CFG 16
  ++ (List.range 4).flatMap (fun p => failIf (bad p) R.PWR_VSET (16 * p))
  ++ failIf (fget t R.MG_FENCE_CFG F.MG_FENCE_CFG_LOST_TIMEOUT == 0) R.MG_FENCE_CFG 0
  ++ failIf (fget t R.MG_FENCE_CFG F.MG_FENCE_CFG_MIG_RATE == 0) R.MG_FENCE_CFG 16

/-- Every failing field of the staged values. -/
def checkAll (s : State) : List (Nat × Nat) :=
  let t := withStaged s
  (List.range 16).flatMap (checkSlot s t) ++ (List.range 16).flatMap (checkStores t) ++ (List.range 16).flatMap (checkPin t) ++ checkBand t ++ checkBlock t

/-- The first failing field, by offset and then by bit. -/
def firstFail (s : State) : Option (Nat × Nat) := (sortBy (fun x => x.1 * 64 + x.2) (checkAll s)).head?

/-! ### Results (15 R407 to R409, Table 15.8) -/

def pendingApply (s : State) : Bool := fbit s R.MG_CFG_STATUS F.MG_CFG_STATUS_PENDING

def setPending (b : Bool) (s : State) : State := fset R.MG_CFG_STATUS F.MG_CFG_STATUS_PENDING (natOfBool b) s

/-- Record a result. -/
def cfgResult (r : Nat) (s : State) : State :=
  let n := fget s R.MG_CFG_STATUS F.MG_CFG_STATUS_SEQ + 1
  fset R.MG_CFG_STATUS F.MG_CFG_STATUS_RESULT r (fset R.MG_CFG_STATUS F.MG_CFG_STATUS_SEQ n s)

/-- Record a failed check. -/
def cfgFailed (x : Nat × Nat) (s : State) : State :=
  let s := bump1 R.CNT_CFG_FAIL (cfgResult 2 s)
  fset R.MG_CFG_STATUS F.MG_CFG_STATUS_FAIL_OFFSET x.1 (fset R.MG_CFG_STATUS F.MG_CFG_STATUS_FAIL_BIT x.2 s)

/-- CHECK. -/
def cfgCheck (s : State) : State :=
  if pendingApply s then s else
  match firstFail s with
  | none => cfgResult 1 s
  | some x => cfgFailed x s

/-- APPLY: it waits, or is not accepted before the block is ready. -/
def cfgApply (s : State) : State := if pendingApply s then s else if ready s then setPending true s else cfgResult 4 s

/-! ### Stores of job slots (09 R246; 07 R206) -/

def storeSize (s : State) (j : Nat) : Nat := storeBytes (journalOf s j).storeCfg

/-- Whether a span is free of stores. -/
def storeFree (s : State) (a n : Nat) : Bool := !s.stores.any fun x => decide (a < x.2 + storeSize s x.1) && decide (x.2 < a + n)

/-- Base of a new store: the highest place from 8 × lim downward that is free. -/
def storePlace (s : State) (n : Nat) : Nat :=
  let tops := (8 * farLim) :: s.stores.map (·.2)
  (tops.filter fun t => decide (n ≤ t) && storeFree s (t - n) n).foldl (fun m t => max m (t - n)) 0

/-- Whether a buffered entry maps any part of a span of far memory. -/
def mapsSpan (lo hi : Nat) (e : TEnt) : Bool := e.typ == 1 && decide (e.at e.lo < hi) && decide (lo < e.at e.lo + (e.hi - e.lo))

/-- TLB_FAR_LIMIT follows the lowest store; entries that map the newly reserved span are dropped. -/
def setFarLimit (s : State) : State :=
  let new := s.stores.foldl (fun m x => min m x.2) (8 * farLim)
  let s := if new < farLimit s then dropWhere (mapsSpan new (farLimit s)) s else s
  fset R.TLB_FAR_LIMIT F.TLB_FAR_LIMIT_LIMIT new s

/-- Stores of a slot lie at a base from now on, recorded in its journal line. -/
def putStore (j b : Nat) (s : State) : State :=
  setFarLimit (setJournal j { journalOf s j with jobId := slotJobId s j, ctx := slotCtx s j, storeCfg := gsCfg s j, base := b } { s with stores := mput j b s.stores })

/-- Allocate the stores of a slot. -/
def allocStore (j : Nat) (s : State) : State :=
  let s := { s with stores := mdel j s.stores }
  putStore j (storePlace s (storeBytes (gsCfg s j))) s

/-- New sizes for the stores of a slot that stays enabled: they grow or shrink where they lie, downward, or else upward. A store is never moved while its slot is enabled: where neither side is free it keeps its place and its sizes (09 R246; DESIGN CHOICE, log 29). -/
def resizeStore (j : Nat) (s : State) : State :=
  let n := storeBytes (gsCfg s j)
  let b := mgetD j 0 s.stores
  let top := b + storeSize s j
  let t := { s with stores := mdel j s.stores }
  if n ≤ top && storeFree t (top - n) n then putStore j (top - n) t
  else if b + n ≤ 8 * farLim && storeFree t b n then putStore j b t
  else s

/-- Rows that an abandoned meridian of a journal line leaves as they were are lost (07 R206); a bucket entry of it is freed, and the line is discarded. -/
def abandonLine (j : Nat) (s : State) : State :=
  let l := journalOf s j
  let keys := if l.isOpen then (totalKeys s j l.step).filter fun k => !rowOver s j k l.step else []
  let s := rowsLost j keys { s with ledger := s.ledger.filter fun x => !(x.2.bucket && x.2.slot == j) }
  setJournal j { step := 0, sheetEpoch := l.sheetEpoch } (endResuming j { s with jobs := s.jobs.set j {} })

/-! ### Enabling and disabling slots (03 R55; 07 R206; 14 R379, R380, R382; 06 R162) -/

/-- Whether a slot is enabled again, after a warm restart, as its journal line records: with its former CMD_GS_Jj_CFG it takes the same stores (07 R206; 09 R246), and a meridian that stands open asks for its JOB_ID and CTX too. -/
def formerSlot (s : State) (j : Nat) : Bool :=
  let l := journalOf s j
  isResuming s j && l.storeCfg == gsCfg s j && (!l.isOpen || (l.jobId == slotJobId s j && l.ctx == slotCtx s j))

/-- A slot takes the stores that its line records again, under the job and the context it has now. -/
def takeStores (j : Nat) (s : State) : State := setJournal j { journalOf s j with jobId := slotJobId s j, ctx := slotCtx s j } s

/-- The apply enables a slot; a job enabled while a peer block is unreachable is held like the others (14 R379). -/
def enableSlot (j : Nat) (s : State) : State :=
  let s := if jobsHeld s then setHeld j 1 s else s
  if formerSlot s j then startRound j (endResuming j (takeStores j (resumeMeridian j (enableQueue j s))))
  else enableQueue j (allocStore j (abandonLine j s))

/-- MERIDIANs of a slot that is about to be disabled end with ABORTED (DESIGN CHOICE, log 29). -/
def endAside (j : Nat) (s : State) : State := deliverAll (abortAside j s)

/-- A version still DRAINING retires with its slot (14 R382). -/
def retireDraining (j : Nat) (d : Desc) (s : State) : State :=
  if d.state != 3 then s else
  let s := delDesc j d.tableId d.version (purgeVersion j d.tableId d.version s)
  elog 0x0F EU.table d.tableId d.version d.tableId 0 (jobBit R.CMD_GZ_STATUS 3 j (bump1 R.CNT_GZ_RETIRE s))

/-- The apply disables a slot: its stores and all they hold are released. -/
def disableSlot (j : Nat) (s : State) : State :=
  let held := (job s j).held
  let s := { s with ops := s.ops.filter fun o => o.queue != j, jobs := s.jobs.set j {}, stores := mdel j s.stores }
  let s := setJournal j { step := 0, sheetEpoch := sheetEpoch s j } (disableQueue j s)
  let s := fset (R.MG_Jj_EPOCH j) F.MG_Jj_EPOCH_HELD 0 (fset (R.MG_Jj_EPOCH j) F.MG_Jj_EPOCH_HALTED 0 (setMstate j 0 s))
  let s := each (slotDescs s j) (retireDraining j) s
  let s := match s.mig with
    | some m => if m.slot == j then migFail 7 s else s
    | none => s
  releaseServes (setFarLimit (each held (fun x s => gradArrive (!x.2.2) x.1 x.2.1 s) s))

/-- New store sizes of a slot that stays enabled: records held for want of room are taken up (06 R165). -/
def resizeSlot (j : Nat) (s : State) : State := if (journalOf s j).storeCfg == gsCfg s j then s else releaseRecs j (resizeStore j s)

/-! ### Effects of an apply (15 R408; 08 R212, R216, R222, Table 8.2; 13 R350) -/

/-- Whether a register differs between two states. -/
def differs (a b : State) (off : Nat) : Bool := rget a off != rget b off

/-- Near memory after an apply; old holds the former values. -/
def applyNear (old s : State) : State :=
  let f := fun (x : Fld) => fget old R.NM_CFG x != fget s R.NM_CFG x
  let s := if f F.NM_CFG_CONTOUR_LOG2 then { s with contours := [] } else s
  let s := if f F.NM_CFG_VB_EN then { s with victim := [] } else s
  let sets := differs old s R.NM_PIN_SETS
  let s := if sets then { s with near := [] } else s
  if sets || s.pinPlan != planPins s || s.pinSkip != retiredPins s || (List.range 16).any fun k => differs old s (R.NM_PINk_A k) || differs old s (R.NM_PINk_B k) then pinReload s
  else each (List.range 16) (fun k s => if pinState s k == 3 then setPinState k 1 s else s) s

/-- A raised VSET raises the partition's thermal ceiling at once. -/
def applyPower (old s : State) : State :=
  { s with therm := (List.range 4).map fun p => if vsetMv old p < vsetMv s p then vsetMv s p else s.therm.getD p 750 }

/-- Make every staged value active, with what follows from it. -/
def commitStaged (old : State) : State :=
  let t := withStaged old
  let off := (List.range 16).filter fun j => slotOn old j && !slotOn t j
  let on := (List.range 16).filter fun j => !slotOn old j && slotOn t j
  let stay := (List.range 16).filter fun j => slotOn old j && slotOn t j
  let s := each off endAside old
  let s := { withStaged s with staged := [] }
  let s := each stay resizeSlot (each on enableSlot (each off disableSlot s))
  applyPower old (applyNear old s)

/-- Start the next operation after an apply has ended. -/
def afterApply (s : State) : State := deliverAll (startNext (setPending false s))

/-- The spans of far memory that translated accesses in progress read or write: address and bytes. -/
def farAccesses (s : State) : List (Nat × Nat) :=
  s.fetches.flatMap (fun f => (f.lines.filter fun x => !hostLine x).map fun x => (x.1, 64))
    ++ s.winReqs.flatMap (fun w => (w.pieces.filter (·.far)).map fun p => (p.off, p.n))
    ++ s.flights.flatMap fun x => (0, x.2.desc.mstride) :: (ruleParts x.2.desc.rule).map (fun p => (p.1, partLen x.2.desc.ofmt x.2.desc.width p.2))
      |>.map fun p => (x.2.entry.addrs.getD p.1 0, p.2)

/-- Whether an access in progress reaches into a span. -/
def farBusy (s : State) (lo hi : Nat) : Bool := (farAccesses s).any fun x => decide (x.1 < hi) && decide (lo < x.1 + x.2)

/-- Make the checked values active. An apply that lowers TLB_FAR_LIMIT first drops the buffered entries that map the newly reserved span and waits for the accesses translated under them (09 R246). -/
def makeApply (s : State) : State :=
  let t := commitStaged s
  if farLimit t < farLimit s && farBusy s (farLimit t) (farLimit s) then dropWhere (mapsSpan (farLimit t) (farLimit s)) s
  else afterApply (bump1 R.CNT_CFG_APPLY (cfgResult 3 t))

/-- The waiting apply: once nothing runs, no fence or reset is in progress and the block is not entering DEEP, it is checked and made, or fails (R408). -/
def applyCommit (s : State) : State :=
  if !pendingApply s || (running s).isSome || fenceBusy s || s.pmode == 3 || s.pmode == 5 then s else
  match firstFail s with
  | some x => afterApply (cfgFailed x s)
  | none => makeApply s

/-- DISCARD (R409). -/
def cfgDiscard (s : State) : State :=
  let s := { s with staged := [] }
  if pendingApply s then afterApply (cfgResult 5 s) else s

/-- A write of MG_CFG_CTRL: DISCARD, then CHECK, then APPLY (R411). An apply is a wake event (13 R357). -/
def cfgCtrl (w : Word) (s : State) : State :=
  let s := fset R.MG_CFG_CTRL F.MG_CFG_CTRL_VIEW (wbits w 3 1) s
  let s := when (wbit w 2) cfgDiscard s
  let s := when (wbit w 0) cfgCheck s
  if wbit w 1 then cfgApply (wake s) else s

/-! ### MG_BOOT_CTRL (15 R391, R403) -/

/-- FULL_NEXT: FULL_REQ is set in the journal page (15 R391). -/
def fullNext (s : State) : State := if ready s then rewritePage true (pageKcv s) (pagePlace s) s else s

/-- CLEAR_FIELD: the field section is cleared while no job slot is enabled. -/
def clearField (s : State) : State := if (List.range 16).any (slotOn s) then s else { s with fieldRepair := [], repairList := [] }

def bootCtrl (w : Word) (s : State) : State := when (wbit w 0) fullNext (when (wbit w 1) clearField s)

/-! ### Firmware (15 R404, R405) -/

def fwResult (r : Nat) (s : State) : State := fset R.MG_FW_STATUS F.MG_FW_STATUS_RESULT r s

/-- Whether the image that MG_FW_SRC names has a length it may have and lies in far memory. -/
def fwSourceOk (s : State) : Bool :=
  let n := fget s R.MG_FW_SRC F.MG_FW_SRC_PAGES
  1 ≤ n && n ≤ 2048 && fget s R.MG_FW_SRC F.MG_FW_SRC_ADDR * 4096 + n * 4096 ≤ farSize

/-- UPDATE: accepted while no job slot is enabled; ignored during an update, and before the block is ready (15 R399, R405; DEDUCED, log 34). -/
def fwUpdate (s : State) : State :=
  if s.fwBusy || !ready s then s
  else if (List.range 16).any (slotOn s) then fwResult 5 s
  else if !fwSourceOk s then fwResult 6 s
  else fwResult 1 { s with fwBusy := true }

/-- The image, read as context 0's identity map reads it: under selector 1 (DESIGN CHOICE, log 30). -/
def fwImage (s : State) : Bytes :=
  farRead s (keyOf s 1) (fget s R.MG_FW_SRC F.MG_FW_SRC_ADDR * 4096) (fget s R.MG_FW_SRC F.MG_FW_SRC_PAGES * 4096)

/-- The update ends: a valid image fills the slot that is not running, and is preferred. -/
def fwDone (s : State) : State :=
  if !s.fwBusy then s else
  let img := fwImage s
  let s := { s with fwBusy := false }
  if !Config.fwSignatureOk img then fwResult 3 s
  else if Config.fwSecVersion img < Config.fwMinSecVersion then fwResult 4 s
  else fwResult 2 { s with fwSlots := s.fwSlots.set (1 - s.fwRun) { whole := true, image := img }, fwPref := 1 - s.fwRun }

/-! ### Commands -/

/-- FW_UPDATE_DONE (15 R405). -/
def execFwUpdateDone (s : State) : Host.Outcome State Fault Refusal := act s fwDone

end Sys2Proof.Machine
end

