-- ==== Sys2Proof/Machine/Bringup.lean ====
section
/-! DEFINITION. The eight stages of a start, their surveys, and what makes the block ready or refused (15 R389 to R404; 12 R330; 14 R368, R371). -/

namespace Sys2Proof.Machine

/-! ### Surveys (15 R397, R401, Tables 15.3, 15.4) -/

def warmStart (s : State) : Bool := s.startMode == 2

/-- The codes that apply of a list of codes. -/
def codesOf (l : List (Nat × Bool)) : List Nat := (l.filter fun x => x.2).map (·.1)

/-- Write the survey of the stage that ends, its words from w2 on; a failed stage makes the block REFUSED, any other one goes on with next. -/
def endStage (r : StageResult) (skipped : Bool) (fails degr : List (Nat × Bool)) (words : List Nat) (next : State → State) (s : State) : State :=
  let k := s.stage
  let bad := codesOf fails
  let low := codesOf degr
  let result := if !bad.isEmpty then 4 else if skipped then 5 else if !low.isEmpty then 3 else 2
  let code := (bad ++ low).headD 0
  let s := rset (R.SRV_REPORTk_Ww k 0) (word (fld 0 4 k + fld 4 3 result + fld 7 1 (natOfBool (warmStart s)) + fld 8 8 code + fld 16 32 (if skipped then 0 else r.elapsedUs))) s
  let s := rset (R.SRV_REPORTk_Ww k 1) (word s.aon) s
  let s := each words.zipIdx (fun x s => rset (R.SRV_REPORTk_Ww k (2 + x.2)) (word x.1) s) s
  let s := if result == 3 then fset R.SRV_STATE F.SRV_STATE_DEGRADED 1 s else s
  if bad.isEmpty then next s
  else errBit 5 (setBit R.MG_EVENT 1 (fset R.SRV_STATE F.SRV_STATE_REFUSED_AT k { s with stage := 10 }))

/-! ### Stage 1: SUPPLY (12 R330; 15 R392, R404) -/

/-- A coordinate strap that is not below its size. -/
def strapError (s : State) : Bool := decide (s.straps.xd ≤ s.straps.xc) || decide (s.straps.yd ≤ s.straps.yc) || decide (s.straps.zd ≤ s.straps.zc)

/-- LNK_TORUS (10 R270; 12 R330). -/
def torusWord (s : State) : Nat :=
  let t := s.straps
  fld 0 6 (self s) + fld 6 2 t.xc + fld 8 2 t.yc + fld 10 2 t.zc + fld 12 2 (t.xd - 1) + fld 14 2 (t.yd - 1) + fld 16 2 (t.zd - 1) + fld 18 7 (nblocks s)

def fwSlot (s : State) (i : Nat) : FwSlot := s.fwSlots.getD i { whole := false, image := [] }

/-- Whether an image passes the checks of R404: its signature, and its security version. -/
def imageOk (img : Bytes) : Bool := Config.fwSignatureOk img && decide (Config.fwMinSecVersion ≤ Config.fwSecVersion img)

/-- Whether a slot holds a valid image. -/
def fwValid (s : State) (i : Nat) : Bool := (fwSlot s i).whole && imageOk (fwSlot s i).image

/-- The slot that the boot ROM boots once it has verified it: the preferred one, or else the other. -/
def bootSlot (s : State) : Option Nat :=
  if fwValid s s.fwPref then some s.fwPref else if fwValid s (1 - s.fwPref) then some (1 - s.fwPref) else none

/-- Peer ports, host module and compute modules may train; a strap error holds every peer port OFF. The core supplies have risen to their targets (13 R348). -/
def startPorts (s : State) : State :=
  let s := { s with volts := (List.range 4).map fun p => 10 * vtarget s p }
  hostStartTraining (if strapError s then s else each (List.range 6) startTraining s)

def supplyStage (r : StageResult) (s : State) : State :=
  let boot := bootSlot s
  let s := fset R.PWR_RAIL F.PWR_RAIL_VIN_MV r.vinMv { s with fwRun := boot.getD s.fwRun }
  let clocks := fld 0 17 ((2 ^ 17 - 1) ^^^ (s.clocksBad % 2 ^ 17))
  let image := match boot with
    | some i => fld 0 1 i + fld 16 32 (Config.fwVersion (fwSlot s i).image)
    | none => 0
  startPorts (endStage r false [(1, r.supplyOk % 2 ^ 14 != 2 ^ 14 - 1), (3, boot.isNone)] [(2, clockBad s 0)]
    [fld 0 14 r.supplyOk + fld 16 17 clocks, fld 0 25 (torusWord s) + fld 25 1 (natOfBool s.straps.host), image, fld 0 12 r.vinMv] (beginStage 2) s)

/-! ### Stage 2: FAR (08 R233, Table 8.6; 15 R389, R403; 14 R371; 09 R246) -/

/-- The findings of a port; a port without a stack finds none. -/
def hbmFind (r : StageResult) (k : Nat) : HbmFind := r.hbm.getD k { capacity := 0, bin := 0, faulty := [], faultyCmd := [], at80 := false, at64 := false }

/-- Whether a group's spares replace its faulty lanes: its faults, those of the spares among them, are not more than its spares. -/
def repairable (spares : Nat) (g : Nat × Nat) : Bool := decide (g.1 + g.2 ≤ spares)

/-- The step of Table 8.6 that a port fails, 0 for none: its reference clock, its stack, its lanes, its timing. -/
def hbmFailStep (s : State) (r : StageResult) (k : Nat) : Nat :=
  let f := hbmFind r k
  if clockBad s (3 + k) then 1
  else if f.capacity < 72 || f.bin < 80 then 2
  else if !(f.faulty.all (repairable 2) && f.faultyCmd.all (repairable 1)) then 4
  else if !f.at80 && !f.at64 then 6
  else 0

def hbmOk (s : State) (r : StageResult) (k : Nat) : Bool := hbmFailStep s r k == 0

/-- Whether a port trains at 6.4 Gb/s only. -/
def hbmSlow (r : StageResult) (k : Nat) : Bool := !(hbmFind r k).at80

/-- Spare lanes a port uses: one for each faulty lane that is no spare. -/
def hbmSpares (r : StageResult) (k : Nat) : Nat := sumNat (((hbmFind r k).faulty ++ (hbmFind r k).faultyCmd).map (·.1))

/-- Record the training of an HBM port; a pass clears its mark in the repair map. -/
def trainHbm (r : StageResult) (k : Nat) (s : State) : State :=
  let ok := hbmOk s r k
  let s := rset (R.HBM_Pk_STATUS k) (word (if ok then 1 + fld 1 1 (natOfBool (hbmSlow r k)) + fld 3 8 (hbmSpares r k) else 0)) s
  let s := if clockBad s (3 + k) then s else { s with hbmReleased := maskSet s.hbmReleased k, selfRefresh := maskClear s.selfRefresh k }
  if ok then setRepair (144 + k) 0 s else s

/-- Stacks whose identity differs from the recorded one. -/
def stacksChanged (s : State) (ids : List Word) : Nat :=
  if pageValid s then sumNat ((List.range 8).map fun k => if (ids.getD k 0).toNat == pageStack s k then 0 else 2 ^ k) else 0

/-- MODE_REASON; 0 makes the start WARM (15 R389). -/
def modeReason (s : State) (ids : List Word) : Nat :=
  if !pageValid s then 1 else if pageFull s then 2 else if stacksChanged s ids != 0 then 3 else if pageMajor s != identMajor s then 4 else 0

/-- PLACE at a start: the recorded value raised by 2^16, or always-on microseconds (14 R371). -/
def startPlace (s : State) : Nat := (if pageValid s then pagePlace s + 2 ^ 16 else s.aon / 1000) % 2 ^ 32

/-- The far-memory figure in GB/s. -/
def farFigure (s : State) (r : StageResult) : Nat :=
  sumNat (((List.range 8).filter (hbmOk s r)).map fun k => if hbmSlow r k then 1640 else 2048)

/-- Decide the mode, and reserve the recorded stores in WARM. -/
def decideMode (ids : List Word) (s : State) : State :=
  let warm := modeReason s ids == 0
  let s := fset R.MG_EPOCH F.MG_EPOCH_PLACE (startPlace s) { s with startMode := if warm then 2 else 1, stackId := ids }
  if warm then setFarLimit (each (List.range 16) (fun j s => fset (R.MG_Jj_EPOCH j) F.MG_Jj_EPOCH_SHEET_EPOCH (journalOf s j).sheetEpoch s) s)
  else fset R.TLB_FAR_LIMIT F.TLB_FAR_LIMIT_LIMIT (8 * farLim) s

def farStage (r : StageResult) (s : State) : State :=
  let ids := (List.range 8).map fun k => r.stackIds.getD k 0
  let ok := fun k => hbmOk s r k
  let all := (List.range 8).all ok
  let mask := fun (p : Nat → Bool) => sumNat ((List.range 8).map fun k => if p k then 2 ^ k else 0)
  let slow := mask fun k => ok k && hbmSlow r k
  let steps := sumNat ((List.range 8).map fun k => fld (4 * k) 4 (hbmFailStep s r k))
  let words := [mask ok + 256 * slow + 65536 * stacksChanged s ids, steps, if all then modeReason s ids else 0, farFigure s r]
  let s := each (List.range 8) (trainHbm r) s
  let s := if all then decideMode ids s else s
  endStage r false [(1, !all)] [(2, slow != 0)] words (beginStage 3) s

/-! ### Stage 3: CORE (15 R394; 01 R15; 14 R366, R368) -/

def permanent (s : State) (i : Nat) : Bool := bits (repairWord s i) 5 1 == 1
def recordedFenced (s : State) (i : Nat) : Bool := bits (repairWord s i) 2 1 == 1

/-- Positions that run a self-test: not one that has been fenced in this stage (15 R394, R400). -/
def selfTested (s : State) (i : Nat) : Bool := s.factory.getD i 0 != 0 && !permanent s i && !(warmStart s && recordedFenced s i) && !(posOf s i).fenced

/-- A retest of a FENCED position, in FULL, and a spare that fails (DEDUCED, log 31). -/
def testResult (failed : List Nat) (i : Nat) (s : State) : State :=
  if !selfTested s i then s
  else if failed.contains i then
    if recordedFenced s i then setRepair i (repairFence (repairWord s i) (bits (repairWord s i) 8 4)) s
    else if s.factory.getD i 0 == 2 then recordFence i 6 s else s
  else if recordedFenced s i then setRepair i (repairWord s i - 4) s else s

/-- The positions of a cluster that are enabled: those marked enabled that passed, then spares that passed in place of the others. -/
def clusterCores (s : State) (pass : Nat → Bool) (c : Nat) : List Nat :=
  let l := (List.range 9).map fun i => 9 * c + i
  let en := l.filter fun i => s.factory.getD i 0 == 1
  let good := en.filter pass
  good ++ ((l.filter fun i => s.factory.getD i 0 == 2 && pass i).take (en.length - good.length))

/-- The positions after the stage: what is enabled, with logical numbers in ascending order of position. -/
def layPositions (s : State) (on : List Nat) : List Pos :=
  (List.range 144).map fun i =>
    let f := recordedFenced s i
    { mark := if on.contains i then 1 else if s.factory.getD i 0 == 2 then 2 else if f then s.factory.getD i 0 else 0
      logical := (on.filter fun k => decide (k < i)).length
      fenced := f
      isolated := f }

def fencedWord (s : State) (w : Nat) : Nat := sumNat ((List.range 64).map fun i => if decide (64 * w + i < 144) && recordedFenced s (64 * w + i) then 2 ^ i else 0)

def coreStage (r : StageResult) (s : State) : State :=
  let tested := (List.range 144).filter (selfTested s)
  let failed := tested.filter r.selfTestFailed.contains
  let pass := fun i => tested.contains i && !r.selfTestFailed.contains i
  let on := (List.range 16).flatMap (clusterCores s pass)
  let s := each (List.range 144) (testResult r.selfTestFailed) s
  let s := warnCheck { s with pos := layPositions s on }
  let s := each (List.range 3) (fun w s => rset (R.MG_FENCED0 + 8 * w) (word (fencedWord s w)) s) s
  let n := on.length
  endStage r false [(1, n == 0)] [(2, decide (n < 96)), (3, decide (n < (s.factory.filter fun m => m == 1).length))] (coreSurvey s failed.length) (beginStage 4) s

/-! ### Stages 4 and 5: NEAR and TEST (15 R395, R396; 08 R230) -/

/-- Lines retired and sets dead of a vault in the repair map. -/
def retiredLines (s : State) (v : Nat) : Nat := sumNat ((s.repairList.filter fun x => x.1 / 131072 == v).map fun x => maskCount 64 x.2.retired)
def deadSets (s : State) (v : Nat) : Nat := (s.repairList.filter fun x => x.1 / 131072 == v && x.2.dead).length

/-- Vaults in service that exceed the limits of R230. -/
def wornVaults (s : State) : List Nat := (List.range 144).filter fun v => enabled s v && (decide (8192 < retiredLines s v) || decide (64 < deadSets s v))

/-- Fence the cores of worn vaults with cause 4. -/
def fenceWorn (s : State) : State := warnCheck (each (wornVaults s) (fun v s => fenceCause v 4 s) s)

def nearStage (r : StageResult) (s : State) : State :=
  let s := { s with near := [], victim := [], prefetched := [], contours := [], idir := [], pins := [], pinPlan := [], pinSkip := [], nmErrs := [], vsets := s.repairList }
  let on := (List.range 144).filter (enabled s)
  let worn := (wornVaults s).length
  let words := [sumNat (on.map (retiredLines s)), sumNat (on.map (deadSets s)), worn]
  endStage r false [] [(1, worn != 0)] words (beginStage 5) (fenceWorn s)

/-- Retire a line of a set: shown, logged, counted and recorded (08 R230). -/
def retireLine (x : Nat × Nat) (s : State) : State :=
  let v := mgetD x.1 {} s.repairList
  if maskBit v.retired x.2 then s else
  let s := { s with repairList := mput x.1 { v with retired := maskSet v.retired x.2 } s.repairList }
  elog 0x05 EU.vault (x.1 / 131072) x.2 (x.1 % 131072) 0 (setBit R.NM_STATUS 1 (bump1 R.CNT_NM_LINE_RETIRE s))

/-- Make a set DEAD. -/
def killSet (x : Nat × Nat) (s : State) : State :=
  let k := x.1 * 131072 + x.2
  let v := mgetD k {} s.repairList
  if v.dead then s else
  let s := { s with repairList := mput k { v with dead := true } s.repairList }
  elog 0x06 EU.vault x.1 x.2 0 0 (setBit R.NM_STATUS 1 (bump1 R.CNT_NM_LINE_RETIRE s))

def testStage (r : StageResult) (s : State) : State :=
  if warmStart s then endStage r true [] [] [] (beginStage 6) s else
  let s := forgetFar s
  let s := each r.nearDead killSet (each r.nearRetired retireLine s)
  let s := { s with vsets := s.repairList }
  let words := [fld 0 32 r.farMiscompares, fld 0 32 r.nearRetired.length, fld 0 16 r.nearDead.length, fld 0 8 r.farMiscompare]
  endStage r false [(1, r.farMiscompares != 0)] [(2, !r.nearRetired.isEmpty || !r.nearDead.isEmpty)] words (beginStage 6) (fenceWorn s)

/-! ### Stages 6 and 7: PEER and PORT (15 R392, Table 15.2) -/

/-- Whether a port that is not OFF has ended its training. -/
def portSettled (s : State) (k : Nat) : Bool :=
  let st := portState s k
  st == PS.off || st == PS.up || st == PS.dead || st == PS.mismatch || st == PS.disabled

def peerStage (r : StageResult) (s : State) : State :=
  if !(List.range 6).all (portSettled s) then s else
  let err := strapError s
  let s := if err then s else compassInstall (compassDue s)
  let pack := fun (f : Nat → Nat) => sumNat ((List.range 6).map fun k => fld (4 * k) 4 (f k))
  let wired := fun k => !err && portWired s k
  let down := (List.range 6).any fun k => wired k && portState s k != PS.up
  let narrow := (List.range 6).any fun k => portState s k == PS.up && (decide (txWidth s k < 8) || decide (rxWidth s k < 8))
  let reach := if err then 1 else ((List.range (nblocks s)).filter fun b => b == self s || reachable s b).length
  let words := [pack (portState s), pack (txWidth s) + fld 24 24 (pack (rxWidth s)), (rget s R.LNK_COMPASS_GEN).toNat % 512, fld 0 7 reach]
  endStage r false [(1, err)] [(2, down), (3, narrow)] words (beginStage 7) s

/-- MOD_STATE and UP_COUNT (12 Table 12.13); a module that retrains in service is in TRAINING. -/
def modStates (s : State) : Nat := sumNat ((List.range 8).map fun m => fld (2 * m) 2 (if modState s m == CM.again then CM.training else modState s m)) + fld 16 4 (modsUp s)

/-- Entry to stage 8: the key wait, over at once where its keys are loaded (09 R252; 15 R398). -/
def beginLedger (s : State) : State :=
  let s := setBit R.MG_EVENT 2 (beginStage 8 { s with keyWait := true })
  if (if warmStart s then ledgerKeys s else keyLoaded s 0) then endKeyWait s else s

def portStage (r : StageResult) (s : State) : State :=
  endStage r false [] [(1, decide (modsUp s < 8)), (2, s.straps.host && lstate s != LS.up)]
    [modStates s, fld 0 3 (lstate s) + fld 3 1 (natOfBool s.straps.host)] beginLedger s

/-! ### Stage 8: LEDGER (07 R206; 09 R252; 15 R390, R398; 08 R227) -/

/-- Lines 0 and 1 of the journal page, which stage 8 writes at every start with FULL_REQ clear. -/
def writeJournal (s : State) : State := writePage false (keyCheck (keyOf s 0)) (placeEpoch s) s

/-- WARM: recover every LOGGED entry, and keep every journal line for its slot. FULL: the block-private regions are written anew. -/
def ledgerWork (s : State) : State :=
  if warmStart s then
    let s := recoverAll s
    setFarLimit { s with resuming := s.journal.map (·.1) }
  else { s with gaz := [], ledger := [], journal := [], resuming := [] }

/-- The block is ready; insets it may have granted before are purged after a warm restart or a wake from DEEP. -/
def becomeReady (s : State) : State :=
  let s := setBit R.MG_EVENT 0 { s with stage := 9 }
  if warmStart s || fbit s R.PWR_STATE F.PWR_STATE_WOKE then sendPurge s else s

def ledgerStage (r : StageResult) (s : State) : State :=
  if s.keyWait then s else
  let logged := (s.ledger.filter fun x => x.2.state == 1).map (·.2)
  let torn := (logged.filter fun e => e.check != ledgerCheck e).length
  let before := (rget s R.CNT_UPD_ROLLFWD).toNat
  let opens := sumNat ((List.range 16).map fun j => if (journalOf s j).isOpen then 2 ^ j else 0)
  let warm := warmStart s
  let s := ledgerWork (privSync s)
  let found := (rget s (R.SRV_REPORTk_Ww 8 2)).toNat + logged.length
  let words := if warm then [fld 0 18 found, fld 0 18 ((rget s R.CNT_UPD_ROLLFWD).toNat - before), fld 0 18 torn, opens] else [0, 0, 0, 0]
  let lost := rget s R.CNT_UPD_LOST != 0
  endStage r false [] [(1, s.ledgerGone), (2, lost)] words becomeReady (writeJournal s)

/-! ### STAGE_END -/

/-- The stage under way ends (R392). -/
def stageEnd (r : StageResult) (s : State) : State :=
  if s.stage == 1 then supplyStage r s
  else if s.stage == 2 then farStage r s
  else if s.stage == 3 then coreStage r s
  else if s.stage == 4 then nearStage r s
  else if s.stage == 5 then testStage r s
  else if s.stage == 6 then peerStage r s
  else if s.stage == 7 then portStage r s
  else if s.stage == 8 then ledgerStage r s
  else s

/-- STAGE_END (15 R392). -/
def execStageEnd (r : StageResult) (s : State) : Host.Outcome State Fault Refusal := act s (stageEnd r)

end Sys2Proof.Machine
end

