-- ==== Sys2Proof/Machine/Flags.lean ====
section
/-! DEFINITION. The sticky flags of the engines: their registers, how they are read and cleared (05 R145; 17 R443, R444, Tables 17.5, 17.11). Which engine holds a flag is decided where it is raised, through coreFlags and unitFlags. -/

namespace Sys2Proof.Machine

/-- The three engines of a core, in the order of their fields: pool engine, fold array, update engine. -/
def flagFields : List Nat := [0, 4, 8]

/-- Whether a register holds flags: a core position's, or an update unit's. -/
def isCoreFlags (off : Nat) : Bool := decide (0x2010000 ≤ off) && decide (off < 0x2010480)
def isUnitFlags (off : Nat) : Bool := decide (0x2010800 ≤ off) && decide (off < 0x2010840)

/-- The position of a core's flag register. -/
def flagCore (off : Nat) : Nat := (off - 0x2010000) / 8

/-- Whether the factory map marks a position disabled: its flags read as zero, and writes to them are ignored. -/
def factoryOff (s : State) (pos : Nat) : Bool := s.factory.getD pos 0 == 0

/-- A flag register with some of the four flags cleared in every engine that shares it. -/
def clearFlagWord (mask : Nat) (w : Word) : Word := flagFields.foldl (fun w lo => wset w lo 4 (wbits w lo 4 - (wbits w lo 4 &&& mask))) w

/-- CNT_FLAG_SUM written: the named flags are cleared in every engine at one instant. -/
def clearFlags (mask : Nat) (s : State) : State :=
  { s with regs := s.regs.map fun x => if isCoreFlags x.1 || isUnitFlags x.1 then (x.1, clearFlagWord (mask % 16) x.2) else x }

end Sys2Proof.Machine
end

