-- ==== Sys2Proof/Machine/Mgmt.lean ====
section
/-! DEFINITION. The management space: what a register reads as, what a write of one does, snapshots, programmable counters and the debug view (00 R8 to R11, R449; 15 R399, R406, R409; 17 R434 to R448). -/

namespace Sys2Proof.Machine

/-! ### The map (00 R8, R9; 17 R434) -/

def rowHas (r : RegRow) (off : Nat) : Bool :=
  if r.stride == 0 then off == r.base
  else decide (r.base ≤ off) && (off - r.base) % r.stride == 0 && decide ((off - r.base) / r.stride < r.count)

/-- The register implemented at an offset. -/
def findRow (off : Nat) : Option RegRow := regTable.find? fun r => rowHas r off

/-- Whether an access has a width and an alignment that the block accepts. -/
def accessOk (off width : Nat) : Bool := (width == 8 && off % 8 == 0) || (width == 4 && off % 4 == 0)

/-- The bits an access names within its register. -/
def accessMask (off width : Nat) : Nat := if width == 8 then 2 ^ 64 - 1 else (2 ^ 32 - 1) * 2 ^ (8 * (off % 8))

/-- The management space answers from the end of stage 1 (15 R399). -/
def mgmtOpen (s : State) : Bool := decide (2 ≤ s.stage)

/-- An event counter or a programmable counter. -/
def isCounter (off : Nat) : Bool := (decide (0x2002000 ≤ off) && decide (off < 0x200F000)) || (decide (0x2000200 ≤ off) && decide (off < 0x2000240))

/-! ### Derived views -/

/-- An entry of the violation log or of the error log, or zero where it has been overwritten or not been made (03 R76; 14 R387). -/
def logWord (log : List (Nat × LogEnt)) (n i size k : Nat) : Nat :=
  if decide (i < n) && decide (n ≤ i + size) then
    match mfind (i % size) log with
    | some e => if k == 0 then e.w0 else if k == 1 then e.w1 else if k == 2 then e.w2 else e.w3
    | none => 0
  else 0

def vlogWord (s : State) (k : Nat) : Nat := logWord s.vlog (rget s R.MG_VLOG_COUNT).toNat (fget s R.MG_VLOG_SEL ⟨0, 32⟩) 1024 k
def elogWord (s : State) (k : Nat) : Nat := logWord s.elog (rget s R.MG_ELOG_COUNT).toNat (fget s R.MG_ELOG_SEL ⟨0, 32⟩) 512 k

/-- CMD_Qj_STATE (03 Table 3.17). -/
def queueState (s : State) (j : Nat) : Nat :=
  let x := queue s j
  fld 0 2 x.state + fld 2 10 (sumNat (x.staged.map fun c => c.words.length / 8)) + fld 16 48 x.nextSeq

/-- CMD_LK_TAGS (04 R93). -/
def tagsWord (s : State) : Nat := fld 0 18 (ownOut s) + fld 18 16 (serveOut s) + fld 34 16 (pfOut s)

/-- CMD_UPD_LEDGER (07 R207): row entries, so that its identity with CNT_UPD_LOGGED holds (DEDUCED, log 73). -/
def ledgerWord (s : State) : Nat :=
  fld 0 18 (s.ledger.filter fun x => x.2.state == 1 && !x.2.bucket).length + fld 18 1 (natOfBool (s.stage == 8 && !s.keyWait && warmStart s))

/-- CMD_UPD_Jj_JOURNAL (07 Table 7.9). -/
def journalWord (s : State) (j : Nat) : Nat :=
  let l := journalOf s j
  fld 0 48 l.step + fld 48 1 (natOfBool l.isOpen) + fld 49 1 (natOfBool (l.isOpen && isResuming s j)) + fld 56 8 l.jobId

/-- NM_TEMP (08 R236, R237). -/
def tempWord (s : State) : Nat :=
  sumNat ((List.range 4).map fun p => fld (8 * p) 8 (dramMax s p).toNat) + fld 32 8 (blockMax s).toNat
    + fld 40 1 (natOfBool ((vaultReadings s).any fun t => decide (85 < t))) + fld 41 1 (natOfBool (tripped s))

/-- TLB_FQ_STATE (09 R254). -/
def fqState (s : State) : Nat :=
  let old := s.fq.foldl (fun (m : Option (Nat × FqSlot)) x => match m with
    | some y => if x.2.order < y.2.order then some x else m
    | none => some x) none
  fld 0 13 s.fq.length + fld 13 12 (match old with
    | some x => x.1
    | none => 0) + fld 25 1 (natOfBool s.fq.isEmpty) + fld 26 1 (natOfBool (s.fq.length == 4096))

/-- TLB_KEY_KCV of the selected key (09 R251). -/
def kcvWord (s : State) : Nat := if keyLoaded s (keySel s) then keyCheck (keyOf s (keySel s)) + 2 ^ 32 else 0

/-- The selected notice of the hot-page ring (09 R266). -/
def hotWord (s : State) : Nat :=
  let i := fget s R.TLB_HOT_SEL ⟨0, 32⟩
  let n := (rget s R.TLB_HOT_COUNT).toNat
  if decide (i < n) && decide (n ≤ i + 256) then (mgetD (i % 256) 0 s.hotRing).toNat else 0

/-- LNK_COMPASS_DATA of the selected block (10 R282). -/
def compassWord (s : State) : Nat :=
  let d := fget s R.LNK_COMPASS_SEL ⟨0, 6⟩
  if s.compass.isEmpty then 0
  else if d < nblocks s then
    let e := compassOf s d
    fld 0 6 e.minMask + fld 6 3 e.esc + fld 9 6 e.hops
  else fld 6 3 7

/-- HST_STATE (11 R303, R314). -/
def hostWord (s : State) : Nat := fld 0 3 (lstate s) + fld 4 13 (s.hreads.filter (·.issued)).length + fld 17 16 s.hwrites.length

/-- MG_PIN_STATUS (12 Table 12.12). The level of WAKE_N is a free value: no command carries it (log 59). -/
def pinWord (s : State) : Nat :=
  fld 0 1 (natOfBool s.hstRst) + fld 1 1 (natOfBool s.cptPrst) + fld 2 1 (natOfBool (Config.wakeLevel s.aon)) + fld 3 1 (natOfBool s.straps.host) + fld 4 1 (natOfBool (intPin s)) + fld 5 1 (natOfBool (errPin s))
    + fld 6 1 (fget s R.MG_PIN_STATUS F.MG_PIN_STATUS_WARN_OUT) + fld 7 1 (natOfBool (tripped s)) + fld 8 17 ((2 ^ 17 - 1) ^^^ (s.clocksBad % 2 ^ 17))

/-- Whether the block has no work: every condition of R356 but the one on TOL holds (13 R354; DEDUCED, log 31). -/
def workless (s : State) : Bool := napBlocker (fset R.PWR_LATENCY F.PWR_LATENCY_TOL 50 s) == 0

/-- PWR_STATE (13 R354 to R356, R360). -/
def powerWord (s : State) : Nat :=
  let st := if s.pmode == 1 || s.pmode == 4 then 2 else if s.pmode == 3 || s.pmode == 5 then 3 else if workless s then 1 else 0
  fld 0 2 st + fld 2 2 (allowed s) + fld 4 4 (napBlocker s) + (rget s R.PWR_STATE).toNat / 2 ^ 8 % 16 * 2 ^ 8

/-- SRV_STATE (15 Table 15.9); TOTAL_MS from the ELAPSED of the surveys. -/
def startWord (s : State) : Nat :=
  let us := sumNat ((List.range 8).map fun k => wbits (rget s (R.SRV_REPORTk_Ww (k + 1) 0)) 16 32)
  fld 0 4 s.stage + fld 4 2 s.startMode + fld 6 1 (natOfBool s.keyWait) + (rget s R.SRV_STATE).toNat / 2 ^ 7 % 32 * 2 ^ 7 + fld 12 32 (us / 1000)

/-- SRV_REPAIR_DATA (15 R402, R403, Table 15.9). -/
def repairData (s : State) : Nat :=
  let i := fget s R.SRV_REPAIR_SEL ⟨0, 8⟩
  if i < 144 then fld 0 2 (s.factory.getD i 0) + repairWord s i + fld 12 14 (min 8192 (retiredLines s i)) + fld 26 7 (min 64 (deadSets s i))
  else if i < 152 then natOfBool (hbmFailed s (i - 144)) else 0

/-- MG_FW_STATUS (15 R404, R405). -/
def fwWord (s : State) : Nat :=
  fget s R.MG_FW_STATUS F.MG_FW_STATUS_RESULT + fld 3 1 s.fwRun + fld 4 1 s.fwPref + fld 5 1 (natOfBool (fwValid s 0)) + fld 6 1 (natOfBool (fwValid s 1))

/-- MG_FW_VER of the running image. -/
def fwVerWord (s : State) : Nat := let b := (fwSlot s s.fwRun).image; fld 0 32 (Config.fwVersion b) + fld 32 16 (Config.fwSecVersion b)

/-- HBM_Pk_STATUS (08 Table 8.14). -/
def hbmWord (s : State) (k : Nat) : Nat :=
  let w := rget s (R.HBM_Pk_STATUS k)
  (wset (wset w 2 1 (natOfBool (maskBit s.selfRefresh k))) 11 8 (mgetD (580 + k) 0 s.temps).toNat).toNat

/-- CMD_CPT_LINK (12 Table 12.13). -/
def cptWord (s : State) : Nat := modStates s + (rget s R.CMD_CPT_LINK).toNat / 2 ^ 20 % 16 * 2 ^ 20

/-- MG_FENCE_STATE (14 Table 14.9). -/
def fenceWord (s : State) : Nat := fld 0 8 (coreCount s) + fld 8 1 (natOfBool (fenceBusy s)) + (rget s R.MG_FENCE_STATE).toNat / 2 ^ 16 * 2 ^ 16

/-- The fields that a snapshot also copies: OWN_OUT and SERVE_OUT, LOGGED, OUT_READS and WR_OUT (17 R441). -/
def outstanding : List (Nat × Nat) := [(R.CMD_LK_TAGS, 2 ^ 34 - 1), (R.CMD_UPD_LEDGER, 2 ^ 18 - 1), (R.HST_STATE, 2 ^ 33 - 16)]

def debugOn (s : State) : Bool := fbit s R.DBG_CTRL F.DBG_CTRL_DEBUG_EN

/-- What a register reads as, apart from the two views. -/
def plainRead (s : State) (off : Nat) : Nat :=
  let st := (rget s off).toNat
  if isCounter off then st
  else if decide (R.MG_VLOG_DATA0 ≤ off) && decide (off ≤ R.MG_VLOG_DATA3) then vlogWord s ((off - R.MG_VLOG_DATA0) / 8)
  else if decide (R.MG_ELOG_DATA0 ≤ off) && decide (off ≤ R.MG_ELOG_DATA3) then elogWord s ((off - R.MG_ELOG_DATA0) / 8)
  else if decide (0x100000 ≤ off) && decide (off < 0x100400) && off % 64 == 24 then queueState s ((off - 0x100000) / 64)
  else if off == R.CMD_LK_TAGS then tagsWord s
  else if off == R.CMD_UPD_LEDGER then ledgerWord s
  else if decide (0x108200 ≤ off) && decide (off < 0x108300) then journalWord s ((off - 0x108200) / 16)
  else if off == R.NM_TEMP then tempWord s
  else if decide (0x480100 ≤ off) && decide (off < 0x480180) then hbmWord s ((off - 0x480100) / 16)
  else if off == R.TLB_FQ_STATE then fqState s
  else if decide (R.TLB_FQ_DATA0 ≤ off) && decide (off ≤ R.TLB_FQ_DATA3) then fqWord s (fget s R.TLB_FQ_SEL ⟨0, 12⟩) ((off - R.TLB_FQ_DATA0) / 8)
  else if off == R.TLB_KEY_KCV then kcvWord s
  else if off == R.TLB_HOT_DATA then hotWord s
  else if off == R.LNK_TORUS then torusWord s
  else if off == R.LNK_COMPASS_DATA then compassWord s
  else if off == R.HST_STATE then hostWord s
  else if off == R.HST_WIN_CFG then st + fld 1 1 (natOfBool (s.winReqs.any fun w => w.old))
  else if off == R.MG_PIN_STATUS then pinWord s
  else if off == R.CMD_CPT_LINK then cptWord s
  else if off == R.PWR_STATE then powerWord s
  else if off == R.PWR_VNOW then sumNat ((List.range 4).map fun p => fld (16 * p) 10 (s.volts.getD p 0 / 10))
  else if off == R.PWR_AON_TIME then s.aon
  else if off == R.MG_FENCE_STATE then fenceWord s
  else if off == R.MG_SERIAL then Config.serial.toNat
  else if off == R.MG_FW_VER then fwVerWord s
  else if off == R.MG_FW_STATUS then fwWord s
  else if off == R.SRV_STATE then startWord s
  else if off == R.SRV_REPAIR_DATA then repairData s
  else if off == R.MG_INT_STATUS then intStatus s
  else if off == R.CNT_FLAG_SUM then flagSum s
  else if isCoreFlags off then (if factoryOff s (flagCore off) then 0 else st)
  else if off == R.CNT_CTRL then st + fld 2 1 (natOfBool s.snapBusy)
  else if off == R.DBG_STATUS then (if debugOn s then st + natOfBool s.capBusy else 0)
  else if decide (R.DBG_CTRL < off) then (if debugOn s then st else 0)
  else st

/-- A register as it reads: ST fields under VIEW of MG_CFG_CTRL, counters and outstanding terms under VIEW of CNT_CTRL (15 R406; 17 R441). -/
def readReg (s : State) (off : Nat) : Word :=
  match findRow off with
  | none => 0
  | some r =>
    let v := word (plainRead s off)
    if r.st != 0 then (if fbit s R.MG_CFG_CTRL F.MG_CFG_CTRL_VIEW then stagedReg s off else v)
    else if !fbit s R.CNT_CTRL F.CNT_CTRL_VIEW then v
    else if isCounter off then mgetD off 0 s.snap
    else match mfind off outstanding with
      | some m => v &&& word (2 ^ 64 - 1 - m) ||| (mgetD off 0 s.snap &&& word m)
      | none => v

/-! ### Snapshots and programmable counters (17 R441, R442) -/

/-- SNAP: every counter and outstanding term is copied at one instant. -/
def takeSnap (s : State) : State :=
  if s.snapBusy then s else
  let terms := outstanding.map fun x => (x.1, word (plainRead s x.1))
  let cs := s.regs.filter fun x => isCounter x.1
  { rset R.CNT_SNAP_TIME (word s.aon) s with snapBusy := true, snap := terms.foldl (fun m x => mput x.1 x.2 m) cs }

/-- The copy is complete. -/
def endSnap (s : State) : State := { s with snapBusy := false }

/-- CNT_PMSELi written: the counter starts from zero. -/
def writePmsel (i : Nat) (w : Word) (s : State) : State :=
  if i < 8 then rset (R.CNT_PMCi i) 0 (rset (R.CNT_PMSELi i) (word (wbits w 0 22)) s) else s

/-! ### Debug view (17 R445 to R447) -/

def debugRegs : List Nat := [R.DBG_ACC0, R.DBG_ACC1, R.DBG_ACC2, R.DBG_NM_PAR] ++ (List.range 8).map R.DBG_NM_DATAi

/-- Leave debug mode. -/
def leaveDebug (s : State) : State :=
  { fset R.DBG_CTRL F.DBG_CTRL_DEBUG_EN 0 (each debugRegs (fun o s => rset o 0 s) s) with capBusy := false, nmDue := none }

/-- DEBUG_EN as written. -/
def debugEn (on : Bool) (s : State) : State :=
  if on then (if fbit s R.MG_TEST_CFG F.MG_TEST_CFG_TAP_UNLOCK then fset R.DBG_CTRL F.DBG_CTRL_DEBUG_EN 1 s else s)
  else if debugOn s then leaveDebug s else s

def unavailable (b : Bool) (s : State) : State := fset R.DBG_STATUS F.DBG_STATUS_UNAVAILABLE (natOfBool b) s

/-- Whether a selection, a value of DBG_SEL, cannot be captured. -/
def badSel (w : Word) (s : State) : Bool := !enabled s (wfield w F.DBG_SEL_CORE) || s.pmode == 1 || wfield w F.DBG_SEL_KIND == 3

def captureBad (s : State) : Bool := badSel (rget s R.DBG_SEL) s

/-- CAPTURE: the selection is taken with it. -/
def capture (s : State) : State :=
  if !debugOn s || s.capBusy then s
  else if captureBad s then unavailable true s else { unavailable false s with capBusy := true, capSel := rget s R.DBG_SEL }

/-- The tiles a core pools, with their operations; then the segments of long bags whose accumulators wait in it for the other segments (04 R86). -/
def coreTiles (s : State) (core : Nat) : List (Op × Tile) :=
  let ts := s.ops.flatMap fun o => if o.opcode != OP.lkPool then [] else (o.tiles.filter fun t => t.core == core).map fun t => (o, t)
  (ts.filter fun x => x.2.accs.isEmpty) ++ ts.filter fun x => !x.2.accs.isEmpty

/-- Whether a key of an entry has been added: its row, or the default row in its place, is at hand, or a partial pool brings it (04 R88, R101). -/
def keyAdded (s : State) (o : Op) (t : Tile) (bag key : Nat) : Bool :=
  inPart t bag key || (match mgetD key .need t.rows with
    | .notAdmitted => match opDesc s o (keyTable key) with
      | some d => !d.defaultValid || rowSettled (mgetD (defaultKey d) .need t.rows)
      | none => true
    | r => rowSettled r)

/-- The entries of a segment whose rows have arrived: the terms the engine has added, each row at its arrival (DESIGN CHOICE, log 2). -/
def addedSeg (s : State) (o : Op) (t : Tile) (g : BagSeg) : BagSeg :=
  match o.spec g.table, opDesc s o g.table with
  | some sp, some da => { g with entries := g.entries.filter fun e => (compKeys sp g.table da e.1).all (keyAdded s o t g.bag) }
  | _, _ => { g with entries := [] }

/-- The accumulators of a bag's columns, with the pass they were added on: finished once every term of the bag is added, and as far as its terms have been added before (05 R129). -/
def segAccs (s : State) (o : Op) (t : Tile) (g : BagSeg) : Nat × List ColAcc :=
  match mfind g.bag t.accs, mfind g.bag t.kept with
  | some a, _ => (t.pass, a)
  | none, some y => (y.pass, y.accs)
  | none, none =>
    let h := addedSeg s o t g
    let ended := h.entries.length == g.entries.length && t.parts.all fun p => p.bag != g.bag || (match p.st with
      | .have _ _ _ => true
      | .whole => true
      | _ => false)
    (t.pass, if ended then (poolSeg s o t g).accs else (poolTerms s o t h).accs)

/-- Whether a lane pools a column: main lane i those congruent to i, 256 apart, and wide lane j the j-th wide column (DESIGN CHOICE, log 2). -/
def onLane (d : Desc) (i c : Nat) : Bool := if i < 256 then (d.wideSlot c).isNone && c % 256 == i else d.wideSlot c == some (i - 256)

/-- A captured accumulator: its queue, the grid exponent and the replay count of its pass, and its state. -/
structure Captured where
  queue : Nat
  grid : Int
  pass : Nat
  acc : ColAcc
deriving DecidableEq, Repr

/-- The grid accumulator of a column of a bag. -/
def gridAcc (s : State) (o : Op) (t : Tile) (g : BagSeg) (c : Nat) : Option Captured :=
  let x := segAccs s o t g
  (o.spec g.table).bind fun sp => x.2[c]?.map fun a => { queue := o.queue, grid := sp.grid + 8 * (x.1 : Int), pass := x.1, acc := a }

/-- The fold-array accumulator of an output column of a bag: held from the second stage, which follows the bag's last pass, to the tile's completion (04 R104; 14 R367). -/
def foldAcc (s : State) (o : Op) (t : Tile) (g : BagSeg) (c : Nat) : Option Captured :=
  match o.spec g.table, opDesc s o g.table, mfind g.bag t.kept with
  | some sp, some da, some y =>
    if !sp.proj then none else
    let (a, G, _) := secondStage sp (o.matrix sp (poolWidth sp da.width (((opDesc s o sp.compB).map Desc.width).getD 0))) (sp.grid + 8 * (y.pass : Int)) g.count y.accs
    a[c]?.map fun a => { queue := o.queue, grid := G, pass := ((G - sp.projGrid) / 8).toNat, acc := a }
  | _, _, _ => none

/-- What a lane of a core may hold in staging: a column of an open bag of one of the core's tiles. -/
def lanePicks (s : State) (core lane : Nat) : List Captured :=
  (coreTiles s core).flatMap fun x => if !x.2.accs.isEmpty then [] else x.2.open_.flatMap fun g =>
    match opDesc s x.1 g.table with
    | some d => ((List.range (segAccs s x.1 x.2 g).2.length).filter (onLane d lane)).filterMap (gridAcc s x.1 x.2 g)
    | none => []

/-- The accumulator that a selection names (17 R446; 05 R147). Which of the columns that its lane pools a staging accumulator belongs to is free; a tile slot holds the tile that pools in it, else the segment of a long bag left there (DESIGN CHOICE, log 80). -/
def captured (w : Word) (s : State) : Option Captured × State :=
  let core := wfield w F.DBG_SEL_CORE
  if wfield w F.DBG_SEL_KIND == 0 then
    match lanePicks s core (wfield w F.DBG_SEL_INDEX) with
    | [] => (none, s)
    | c :: cs => let (v, s) := freeNat s; ((c :: cs)[v % (c :: cs).length]?, s)
  else
    (((coreTiles s core).find? fun x => x.2.tslot == wfield w F.DBG_SEL_TILE).bind fun x => x.2.segs[wfield w F.DBG_SEL_BAG]?.bind fun g =>
      (if wfield w F.DBG_SEL_KIND == 1 then gridAcc s x.1 x.2 g else foldAcc s x.1 x.2 g) (wfield w F.DBG_SEL_INDEX), s)

/-- The three words of a capture of a kind (17 Table 17.6). -/
def capWords (kind : Nat) : Option Captured → Nat × Nat × Nat
  | none => (0, 0, 0)
  | some c =>
    let a := c.acc
    let tail := fld 0 9 (pattern 9 c.grid) + fld 9 2 c.pass + fld 37 1 1 + fld 38 4 c.queue
    if kind == 0 then (pattern 64 a.stage.toInt, a.steps, tail)
    else (bits a.acc.toNat 0 64, bits a.acc.toNat 64 32 + a.carry.toNat <<< 32, tail + fld 11 26 (min a.n (2 ^ 26 - 1)))

/-- DBG_ACC0 to DBG_ACC2. -/
def setCaptured (x : Nat × Nat × Nat) (s : State) : State := rset R.DBG_ACC2 (word x.2.2) (rset R.DBG_ACC1 (word x.2.1) (rset R.DBG_ACC0 (word x.1) s))

/-- Parity of each 16-bit group of a line, even (PRESUMED, log 31). -/
def lineParity (b : Bytes) : Nat :=
  sumNat ((List.range 32).map fun i => if (List.range 16).foldl (fun p j => p + bits (leAt b (2 * i) 2) j 1) 0 % 2 == 1 then 2 ^ i else 0)

/-- The selector and the 64 bytes of a line of a pinned slot. -/
def pinHolder (s : State) (core set line : Nat) : Option (Nat × Bytes) :=
  s.pins.findSome? fun x =>
    match pinAt s (x.1 / 2 ^ 32) (x.1 % 2 ^ 32) with
    | some (v, ls) => if v != core then none else (findIdx (fun l => l == set * 64 + line) ls).map fun j => (x.2.key, padTo 64 (slice (pinBytes (x.1 / 2 ^ 32) x.2) (64 * j) 64))
    | none => none

/-- The selector and the plain bytes of a line of near memory that an entry of the cache band or a pinned slot holds. -/
def plainLine (s : State) (core set line : Nat) : Option (Nat × Bytes) :=
  if set < firstCacheSet s then pinHolder s core set line
  else if line < 4 then none
  else (lineHolder s core set (line - 4)).map fun x => (x.1.key, padTo 64 (slice x.1.data (64 * (16 * x.2.1 + x.2.2)) 64))

/-- A tag slot (08 Table 8.1), in 12 bytes: piece p of an entry. -/
def tagSlot (e : NEntry) (n : Nat) (p : Piece) : Bytes :=
  leBytes 12 (fld 0 40 e.row + fld 40 12 e.table + fld 52 4 e.slot + fld 56 3 e.kind + fld 59 4 n + fld 63 1 (natOfBool e.lock)
    + fld 64 16 e.version + fld 80 6 p.first + fld 86 4 (p.lines - 1))

/-- The four tag lines of a cache set: its header, and a tag slot for every piece (08 R210). -/
def tagLines (s : State) (core set : Nat) : Bytes :=
  let ps := s.near.flatMap fun e => (e.pieces.zipIdx.filter fun x => x.1.vault == core && x.1.set == set).map fun x => (e, x.2, x.1)
  let occupied := ps.foldl (fun m x => (List.range x.2.2.lines).foldl (fun m i => maskSet m (x.2.2.first + i)) m) 0
  let v := vset s core set
  padTo 256 (leBytes 16 (fld 0 60 occupied + fld 64 60 (v.retired / 16) + fld 124 1 (natOfBool v.dead)) ++ ps.flatMap fun x => tagSlot x.1 x.2.1 x.2.2)

/-- A line of the contour band: 32 contours of 16 bits (08 R209). -/
def contourLine (s : State) (core set line : Nat) : Bytes :=
  (List.range 32).flatMap fun i => leBytes 2 (mgetD (core * contourBand + (set * 64 + line) * 32 + i) 0 s.contours)

/-- The plain bytes of a line that holds no row's data, where the manual lays them out: a contour line or a tag line. -/
def blockLine (s : State) (core set line : Nat) : Option Bytes :=
  if set < 1024 then some (contourLine s core set line)
  else if firstCacheSet s ≤ set && decide (line < 4) then some (slice (tagLines s core set) (64 * line) 64)
  else none

/-- A line of near memory as stored, still encrypted. The manual names no selector for the lines of contours and tags: it is free (log 2). What it gives no layout, a directory line, and what nothing has written are free values. -/
def storedLine (core set line : Nat) (s : State) : Bytes × State :=
  match plainLine s core set line, blockLine s core set line with
  | some (k, b), _ => (xtsLine (keyOf s k) (nearTweak core set line) b, s)
  | none, some b => let (k, s) := freeNat s; (xtsLine (keyOf s (k % 64)) (nearTweak core set line) b, s)
  | none, none => let (v, s) := freeNat s; (leBytes 64 v, s)

/-- NM_READ of a selection, a value of DBG_NM_SEL. -/
def nmReadAt (w : Word) (s : State) : State :=
  let core := wfield w F.DBG_NM_SEL_CORE
  if !enabled s core || (posOf s core).isolated then unavailable true s else
  let (b, s) := storedLine core (wfield w F.DBG_NM_SEL_SET) (wfield w F.DBG_NM_SEL_LINE) (unavailable false s)
  let s := each (List.range 8) (fun i s => rset (R.DBG_NM_DATAi i) (word (leAt b (8 * i) 8)) s) s
  rset R.DBG_NM_PAR (word (lineParity b)) s

/-- NM_READ. -/
def nmRead (s : State) : State := if !debugOn s then s else nmReadAt (rget s R.DBG_NM_SEL) s

/-- CAPTURE and NM_READ of one write: the capture is performed first, and the read follows its copy (17 R448). -/
def captureAndRead (s : State) : State :=
  let t := capture s
  if debugOn s && t.capBusy then { t with nmDue := some (rget s R.DBG_NM_SEL) } else nmRead t

/-- The copy of a capture, with what it holds. -/
def captureCopy (s : State) : State :=
  if badSel s.capSel s then unavailable true s else
  let (c, s) := captured s.capSel s
  setCaptured (capWords (wfield s.capSel F.DBG_SEL_KIND) c) s

/-- The NM_READ that waited for a capture. -/
def readDue (s : State) : State := match s.nmDue with
  | some w => nmReadAt w { s with nmDue := none }
  | none => s

/-- CAPTURE_DONE: the copy (17 Table 17.6; 05 R147), then an NM_READ written with its CAPTURE. -/
def captureDone (s : State) : State := if !s.capBusy then s else readDue (captureCopy { s with capBusy := false })

/-! ### Writes (00 R9 to R11, R449; 15 R399, R409) -/

/-- A word with the written bits taken from the data. -/
def merge (old mask data : Nat) : Nat := old - (old &&& mask) + (data &&& mask)

/-- Registers that take a write before the block is ready (15 R399); ST fields and the keys' data are others. MG_FW_CTRL is none of them: an UPDATE before then is ignored, and R405's REFUSED is for one that the block takes (DEDUCED, log 34). -/
def earlyWrites : List Nat := [R.TLB_KEY_SEL, R.TLB_KEY_CTRL, R.MG_PIN_CFG, R.MG_VLOG_SEL, R.MG_ELOG_SEL, R.SRV_REPAIR_SEL, R.MG_CFG_CTRL, R.MG_TEST_CFG]

def isKeyData (off : Nat) : Bool := decide (0x2000C0 ≤ off) && decide (off < 0x200100)

/-- Whether a write is taken at all. -/
def writable (s : State) (off : Nat) (r : RegRow) : Bool := s.stage == 9 || earlyWrites.contains off || isKeyData off || r.st != 0

/-- The mask field of a status register whose low bits are all clear is cleared (00 R449). -/
def clearMask (r : RegRow) (v : Nat) : Nat :=
  if r.mn != 0 && v % 2 ^ r.cn == 0 then v - (v / 2 ^ r.mlo % 2 ^ r.mn) * 2 ^ r.mlo else v

/-- A write by the access codes of the fields. -/
def writeFields (off : Nat) (r : RegRow) (mask data : Nat) (s : State) : State :=
  if r.st != 0 then
    (if mask &&& r.st == 0 then s
     else if pendingApply s then setBit R.MG_CFG_STATUS 4 s
     else { s with staged := mput off (word (merge (stagedReg s off).toNat (mask &&& r.st) data)) s.staged })
  else if r.rw == 0 && r.w1c == 0 then s
  else
    let v := merge (rget s off).toNat (mask &&& r.rw) data
    let v := v - (v &&& (data &&& mask &&& r.w1c))
    rset off (word (clearMask r v)) s

/-- Error bits that stay set while their condition lasts (17 Table 17.3); was is the register before the write. -/
def heldErrors (was : Nat) (s : State) : Nat :=
  (if tripped s then 1 else 0) + (if (List.range 8).any (hbmFailed s) then 2 else 0) + (if clockBad s 0 then 8 else 0) + bits was 4 1 * 16
    + (if s.stage == 10 then 32 else 0) + (if (List.range 16).any (jobHalted s) then 256 else 0)

/-- CMD_Qj_CTRL: ABORT, then STOP, then RESTART; nothing for a disabled queue (03 R78, Table 3.16). -/
def queueCtrl (q : Nat) (w : Word) (s : State) : State :=
  let on := fun (s : State) => (queue s q).state != 0
  if !on s then s else
  let s := if wbit w 2 then abortSeq q (wbits w 16 48) s else s
  let s := if wbit w 0 then stopCmd q s else s
  if wbit w 1 then restartQueue q s else s

/-- A field kept within limits. -/
def clampField (off : Nat) (f : Fld) (lo hi : Nat) (s : State) : State := fset off f (max lo (min hi (fget s off f))) s

/-- Registers whose write acts: the action, on the register's row, the written bits and the data. -/
def writeAction (off : Nat) (r : RegRow) (mask data : Nat) (s : State) : Option State :=
  let d := word (data &&& mask)
  let new := word (merge (rget s off).toNat mask data)
  let plain := writeFields off r mask data
  if decide (0x100000 ≤ off) && decide (off < 0x100400) && off % 64 == 16 then some (queueCtrl ((off - 0x100000) / 64) d s)
  else if off == R.CMD_CPT_CTRL then some (retrainMask (wbits d 0 8) s)
  else if off == R.TLB_FQ_RESP then some (fqResp d s)
  else if off == R.TLB_INV_CMD then some (invCmd d s)
  else if off == R.TLB_KEY_CTRL then some (keyCtrl d s)
  else if isKeyData off then
    let i := (off - 0x2000C0) / 8
    some { s with keyData := s.keyData.set i (merge (s.keyData.getD i 0) mask data) }
  else if decide (0x500108 ≤ off) && decide (off < 0x500160) && off % 16 == 8 then some (portCtrl ((off - 0x500108) / 16) d s)
  else if off == R.HST_CTRL then some (hostCtrl d s)
  else if off == R.HST_WIN_CFG then some (writeWinCfg new s)
  else if off == R.HST_STATUS then
    let s := plain s
    some (if wbit d 2 then rset R.HST_WIN_FAULT 0 s else s)
  else if off == R.MG_FENCE_CTRL then some (warnCheck (fenceCtrl d s))
  else if off == R.MG_MIG_CTRL then some (migCtrl d s)
  else if off == R.MG_BOOT_CTRL then some (bootCtrl d s)
  else if off == R.MG_CFG_CTRL then some (cfgCtrl (word (merge (rget s off).toNat mask data)) s)
  else if off == R.MG_FW_CTRL then some (if wbit d 0 then fwUpdate s else s)
  else if off == R.MG_TEST_CFG then
    let s := plain s
    some (if fbit s R.MG_TEST_CFG F.MG_TEST_CFG_TAP_UNLOCK || !debugOn s then s else leaveDebug s)
  else if off == R.PWR_LATENCY then some (writeLatency new s)
  else if off == R.PWR_LIMIT then some (clampField off F.PWR_LIMIT_LIMIT 150 600 (plain s))
  else if off == R.HBM_SPILL_CFG then some (clampField off F.HBM_SPILL_CFG_RATE 1 32 (plain s))
  else if off == R.MG_PIN_CFG then some (warnCheck (clampField off F.MG_PIN_CFG_WARN_LEVEL 60 97 (plain s)))
  else if off == R.MG_ERR_STATUS then
    let was := (rget s off).toNat
    let s := plain s
    some (rset off (word ((rget s off).toNat ||| heldErrors was s)) s)
  else if off == R.CNT_CTRL then some (when (wbit d 0) takeSnap (plain s))
  else if decide (0x2000100 ≤ off) && decide (off < 0x2000140) then some (writePmsel ((off - 0x2000100) / 8) new s)
  else if off == R.CNT_FLAG_SUM then some (clearFlags d.toNat s)
  else if isCoreFlags off then some (if factoryOff s (flagCore off) then s else plain s)
  else if off == R.DBG_CTRL then
    some (if mask % 2 == 0 then s else (if wbit d 1 && wbit d 2 then captureAndRead else if wbit d 1 then capture else when (wbit d 2) nmRead) (debugEn (wbit d 0) s))
  else if off == R.DBG_SEL || off == R.DBG_NM_SEL then some (if debugOn s then plain s else s)
  else none

/-- A write of the written bits of the register at an aligned offset. -/
def writeReg (off mask data : Nat) (s : State) : State :=
  match findRow off with
  | none => s
  | some r =>
    if !writable s off r then s
    else match writeAction off r mask data s with
      | some s => s
      | none => writeFields off r mask data s

/-! ### Accesses of a source (00 R9; 17 R435, R436) -/

/-- The sources, numbered: the host port on a traffic class, forwarded control, the management controller. -/
def sourceKey (src : Source) : Nat := match src with
  | .host tc => tc
  | .forwarded => 8
  | .controller => 9

/-- An access of an illegal width or alignment: logged with the route it came by (03 R76; 11 R313). -/
def badAccess (src : Source) (off : Nat) (s : State) : State :=
  match src with
  | .host _ => let (h, s) := freeNat s; hostVlog VK.regAccess (self s * 2 ^ 26 + off) (word h) s
  | _ => vlog VK.regAccess 2 0 0 0 0 s

/-- A latch of a high half lasts until the source's next access. -/
def dropLatch (src : Source) (s : State) : State :=
  { s with lastAcc := s.lastAcc.filter fun x => x.1 != sourceKey src, halves := s.halves.filter fun x => x.1 != sourceKey src }

/-- A write of the management space. -/
def accessWrite (src : Source) (off width : Nat) (value : Word) (s : State) : State :=
  let s := dropLatch src s
  if !accessOk off width then badAccess src off s
  else writeReg (off / 8 * 8) (accessMask off width) (value.toNat * 2 ^ (8 * (off % 8))) s

/-- A read of the management space: its value, and the state with its latch. -/
def accessRead (src : Source) (off width : Nat) (s : State) : Word × State :=
  let k := sourceKey src
  let latched := if width == 4 && off % 8 == 4 && mgetD k 0 s.lastAcc == off / 8 * 8 then mfind k s.halves else none
  let s := dropLatch src s
  if !accessOk off width then (0, badAccess src off s) else
  let w := readReg s (off / 8 * 8)
  if width == 8 then (w, s)
  else if off % 8 == 4 then (latched.getD (word (wbits w 32 32)), s)
  else
    let s := if isCounter off && (findRow off).isSome then { s with lastAcc := mput k off s.lastAcc, halves := mput k (word (wbits w 32 32)) s.halves } else s
    (word (wbits w 0 32), s)

end Sys2Proof.Machine
end

