-- ==== Sys2Proof/Machine/HostReq.lean ====
section
/-! DEFINITION. Requests of the host: management spaces, the host window, forwarded control between a root and its targets, loss of the host (11 R297 to R302, R306, R309 to R313; 10 R290, R291). -/

namespace Sys2Proof.Machine

/-! ### Forwarded control (10 R290; body layout of Table 10.7) -/

/-- WIDTH of REG_READ and REG_WRITE: 0 for 64 bits, 1 for the low half, 2 for the high half. -/
def widthCode (off width : Nat) : Nat := if width == 8 then 0 else if off % 8 == 0 then 1 else 2

/-- Forwarded accesses outstanding toward a target. -/
def fwdOut (s : State) (b : Nat) : Nat := (s.fwd.filter fun f => f.target == b).length

/-- The root begins a forwarded access. -/
def forwardAccess (b : Nat) (q : HostReq) (off width : Nat) (s : State) : State :=
  let id := s.nextReq % 65536
  let f : FwdAcc := { reqId := id, target := b, write := q.write, width := width, tc := q.tc }
  let s := { s with nextReq := (id + 1) % 65536, fwd := s.fwd ++ [f] }
  let body := leBytes 8 (fld 0 26 (off / 8 * 8) + fld 26 2 (widthCode off width) + fld 32 16 id)
  if q.write then sendPacket b CL.ctrl K.regWrite 0 (body ++ leBytes 8 (leNat q.data)) s else sendPacket b CL.ctrl K.regRead 0 body s

/-- Offset and width of a forwarded access as its packet names them. -/
def fwdPlace (b : Bytes) : Nat × Nat :=
  let w := leAt b 0 8
  let off := bits w 0 26
  if bits w 26 2 == 0 then (off, 8) else if bits w 26 2 == 1 then (off, 4) else if bits w 26 2 == 2 then (off + 4, 4) else (off, 0)

def sendRegRsp (p : Packet) (result value : Nat) (s : State) : State :=
  sendPacket p.src CL.ctrl K.regRsp 0 (leBytes 8 (fld 32 16 (bits (leAt p.body 0 8) 32 16) + fld 48 2 result) ++ leBytes 8 value) s

/-- A target refuses any block but its root. -/
def refuseFwd (port : Nat) (p : Packet) (s : State) : State := sendRegRsp p 1 0 (vlog VK.fwdSource (portSource port) 0 0 0 0 s)

def recvRegRead (port : Nat) (p : Packet) (s : State) : State :=
  if p.src != rootBlock s then refuseFwd port p s
  else
    let (v, s) := accessRead .forwarded (fwdPlace p.body).1 (fwdPlace p.body).2 s
    sendRegRsp p 0 v.toNat s

def recvRegWrite (port : Nat) (p : Packet) (s : State) : State :=
  if p.src != rootBlock s then refuseFwd port p s
  else sendRegRsp p 0 0 (accessWrite .forwarded (fwdPlace p.body).1 (fwdPlace p.body).2 (word (leAt p.body 8 8)) s)

/-- The host's access ends: a read with its data, a write as done. -/
def endFwd (f : FwdAcc) (value : Nat) (s : State) : State :=
  let s := bump1 R.CNT_LNK_FWD { s with fwd := s.fwd.filter fun x => x != f }
  if f.write then s else hostCplOk f.tc 0 (leBytes f.width value) s

/-- The answer of a target; a late one is discarded. -/
def recvRegRsp (p : Packet) (s : State) : State :=
  let id := bits (leAt p.body 0 8) 32 16
  match s.fwd.find? fun f => f.reqId == id && f.target == p.src with
  | none => s
  | some f => endFwd f (if bits (leAt p.body 0 8) 48 2 == 0 then leAt p.body 8 8 else 0) s

/-- No answer in time: a read ends as zero, a write as done (R290, item 4). The event names no port, so PORT_MASK stays as it is (R449; DEDUCED, log 78). -/
def fwdExpire (id : Nat) (s : State) : State :=
  match s.fwd.find? fun f => f.reqId == id with
  | none => s
  | some f =>
    let s := vlog VK.fwdTimeout (escSource s f.target) 0 0 0 0 s
    endFwd f 0 (setBit R.LNK_STATUS 5 (bump1 R.CNT_LNK_FWD_TIMEOUT s))

/-- EVENT at the root (10 R291). -/
def recvEvent (p : Packet) (s : State) : State :=
  if rootBlock s == self s then rset R.LNK_EVENT_BLOCKS (wset (rget s R.LNK_EVENT_BLOCKS) p.src 1 1) s else s

/-- The EVENT that a block sends again while its interrupt stays raised. -/
def eventAgain (s : State) : State := if reports s && interrupt s then sendPacket (rootBlock s) CL.ctrl K.event 0 [] s else s

/-! ### The host-port space (11 R297 to R299) -/

/-- A request of a type or an address that is refused: Unsupported Request for a read, a write is discarded (11 Table 11.7). The header is not part of the command: its bytes are a free value. -/
def refuseHost (kind : Nat) (q : HostReq) (s : State) : State :=
  let (h, s) := freeNat s
  let s := hostVlog kind q.addr (word h) s
  if q.write then s else hostCplFail .unsupported q.tc s

/-- A request to a management space. -/
def mgmtRequest (q : HostReq) (s : State) : State :=
  let b := q.addr / 2 ^ 26
  let off := q.addr % 2 ^ 26
  if b == self s then
    if q.write then accessWrite (.host q.tc) off q.len (word (leNat q.data)) s
    else
      let (v, s) := accessRead (.host q.tc) off q.len s
      hostCplOk q.tc q.addr (leBytes q.len v.toNat) s
  else if nblocks s ≤ b then refuseHost VH.outOfSpace q s
  else if rootBlock s != self s then refuseHost VH.notRoot q s
  else if !accessOk off q.len then
    let (h, s) := freeNat s
    let s := hostVlog VK.regAccess q.addr (word h) s
    if q.write then s else hostCplOk q.tc q.addr (zeros q.len) s
  else forwardAccess b q off q.len s

/-- A refused request that is answered is completed on its path (11 R304). -/
def answerBad (tc : Option Nat) (s : State) : State := match tc with
  | some c => hostCplFail .unsupported c s
  | none => s

/-- A breach of the host side (11 R313, Table 11.7). -/
def unsupportedRequest (req : BadRequest) (addr : Nat) (header : Word) (s : State) : State :=
  match req with
  | .badTlp n => answerBad n (hostVlog VH.badTlp addr header s)
  | .unsupported n => answerBad n (hostVlog VH.unsupported addr header s)
  | .poisoned => hostVlog VH.poisoned addr header s
  | .unexpectedCpl => hostVlog VH.unexpectedCpl addr header s
  | .creditOverrun => hostRetrain (hostVlog VH.creditOverrun addr header s)

/-- The path of a breach: that on which it is answered, or none of the block's. -/
def breachPath (req : BadRequest) : Nat := match req with
  | .badTlp (some c) => c
  | .unsupported (some c) => c
  | _ => 8

/-- Carry out a request. A write of more than the maximum payload is malformed, and discarded (11 Tables 11.1, 11.7). -/
def hostPerform (q : HostReq) (s : State) : State :=
  let stop := q.addr + q.len
  match q.bad with
  | some (req, header) => unsupportedRequest req q.addr header s
  | none =>
  if q.write && decide (512 < q.len) then hostVlogOpen VH.badTlp q.addr s
  else if q.addr < winBase then (if winBase < stop then refuseHost VH.outOfSpace q s else mgmtRequest q s)
  else if q.addr < 2 * winBase then (if 2 * winBase < stop then refuseHost VH.outOfSpace q s else winStart q.tc q.write (q.addr - winBase) q.len q.data s)
  else refuseHost VH.outOfSpace q s

/-- Whether a request must wait: for the end of a retrain, which loses none (11 R309), for an earlier write of its path (11 R306), or for a place at the root (10 R290, item 2). -/
def hostBlocked (s : State) (q : HostReq) : Bool :=
  lstate s == LS.retrain || (q.bad.isNone &&
  (s.winReqs.any (fun w => w.write && w.tc == q.tc) || s.fwd.any (fun f => f.write && f.tc == q.tc)
    || (decide (q.addr < winBase) && q.addr / 2 ^ 26 != self s && decide (16 ≤ fwdOut s (q.addr / 2 ^ 26)))))

/-- Carry out what waits, in order on each path. -/
def pumpHost (s : State) : State :=
  each s.hostHeld (fun q s =>
    if s.hostHeld.any (fun x => x.tc == q.tc) || hostBlocked s q then { s with hostHeld := s.hostHeld ++ [q] } else hostPerform q s) { s with hostHeld := [] }

/-- A request arrives while the host is in service or held (11 R310, step 6); one that meets a retrain waits for its end (R309). -/
def hostRequest (q : HostReq) (s : State) : State :=
  if lstate s != LS.up && lstate s != LS.retrain && lstate s != LS.held then s else
  let s := hostRx q.data.length s
  pumpHost { s with hostHeld := s.hostHeld ++ [q] }

/-! ### Loss of the host (11 R310 to R312, Tables 11.5, 11.6) -/

/-- The writes for the host are discarded. -/
def discardWrites (s : State) : State := each s.hwrites (fun w s => hostDiscard w.opq w.opseq s) { s with hwrites := [] }

/-- The reads fail: every outstanding one counts (11 R303), one that was never issued does not. -/
def failReads (s : State) : State :=
  let s := each ((s.hreads.filter fun r => r.issued && r.got.isNone).map (·.tag)) (fun t s => match findRead s t with
    | some r => failRead r s
    | none => s) s
  each (s.hreads.filter fun r => r.got.isNone) (fun r s => if s.hreads.contains r then readLost r { s with hreads := s.hreads.filter fun x => x != r } else s) s

/-- The host's request that a crossing holds. -/
def Crossed.request (x : Crossed) : Option HostReq := match x with
  | .host q => some q
  | _ => none

/-- Whether a crossing of the host port holds an item. -/
def Crossed.ofHost (x : Crossed) : Bool := match x with
  | .host _ => true
  | .completion _ _ _ => true
  | _ => false

/-- Whole host writes are completed; reads of the host are dropped. -/
def finishHostWrites (s : State) : State :=
  let held := (s.hostHeld ++ s.crossing.filterMap Crossed.request).filter fun q => q.write && q.bad.isNone
  let rids := (s.winReqs.filter fun w => !w.write).map (·.rid)
  each held hostPerform (each rids dropWin { s with hostHeld := [], crossing := s.crossing.filter fun x => !x.ofHost })

/-- The host is lost. -/
def loseHost (s : State) : State :=
  let s := setBit R.HST_STATUS 0 (bump1 R.CNT_HST_LOST (setLstate LS.lost { s with hstHeld := false }))
  let s := finishHostWrites (failReads (discardWrites s))
  let s := rset R.HST_WIN_FAULT 0 (writeWinCfg 0 { s with fwd := [], hostCpls := [] })
  allFatal s

/-- The host reset input is asserted, or the bridge signals a reset or a disable (11 R310; 12 R322). -/
def hostLost (cause : HostLossCause) (s : State) : State :=
  if cause == .resetPin && !s.straps.host then { s with hstRst := true } else
  let s := if cause == .resetPin then { s with hstRst := true } else s
  let l := lstate s
  if l == LS.up || l == LS.retrain || l == LS.held then loseHost s
  else if l == LS.training && cause == .resetPin then (if rget s R.CNT_HST_LOST == 0 then setLstate LS.down s else loseHost s)
  else s

/-- A retrain did not end within RETRAIN_LIMIT. -/
def retrainLimit (s : State) : State := if lstate s == LS.retrain then loseHost s else s

end Sys2Proof.Machine
end

