-- ==== Sys2Proof/Machine/Settle.lean ====
section
/-! DEFINITION. What follows of itself when something has arrived: the running operation goes on, writes and results leave, reads are issued, meridians dispatch, cartouches that are due are delivered (03 R64 to R67; 04 R84 to R92; 07 R196). -/

namespace Sys2Proof.Machine

/-- The work of a running operation, by its opcode. -/
def advanceOp (o : Op) (s : State) : State :=
  let c := o.opcode
  if c == OP.lkPool then lkAdvance o.queue o.seq s
  else if c == OP.gsScatter then gsAdvance o.queue o.seq s
  else if c == OP.gzRowput then rowputAdvance o.queue o.seq s
  else if c == OP.memCopy then copyAdvance o.queue o.seq s
  else if c == OP.rowExport then exportAdvance o.queue o.seq s
  else if c == OP.rowImport then importAdvance o.queue o.seq s
  else s

/-- Tiles whose rows have all arrived complete. -/
def completeTiles (o : Op) (s : State) : State :=
  each ((findOp s o.queue o.seq).getD o).tiles (fun t s => completeTile o.queue o.seq t.id s) s

/-- The running operation goes on with what has arrived, unless its job is held; one that has ended gives up what it has in progress. -/
def advance (s : State) : State :=
  match running s with
  | none => s
  | some o =>
    if o.endNow then cancelOp o.queue o.seq s
    else if o.effectDue || jobHeld s o.queue then s
    else completeTiles o (advanceOp o s)

/-- Writes and results of every operation leave as far as they can. -/
def pumpOps (s : State) : State := each s.ops (fun o s => pumpResults o.queue o.seq (pumpWrites o.queue o.seq s)) s

def rounds : Nat → State → State
  | 0, s => s
  | n + 1, s => rounds n (pumpOps (advance s))

/-- Keys, host requests and reads, meridians and migrations that waited. -/
def pumpWaits (s : State) : State :=
  let s := pumpHost (hostReadPump (pumpKeys s))
  migPump (migRetry (each (List.range 16) merPump s))

/-- Everything that can go on does. -/
def settle (s : State) : State :=
  let s := pumpWaits (rounds 8 s)
  deepProgress (pumpLinks (deliverAll (prefetchOp (startNext (endIssued (deliverAll s))))))

/-- A command's effect, with what follows of it. -/
def actSettle (s : State) (f : State → State) : Host.Outcome State Fault Refusal := act s fun s => settle (f s)

/-- A command that is a wake event, with what follows of it. -/
def actWake (s : State) (f : State → State) : Host.Outcome State Fault Refusal := act s fun s => settle (f (wake s))

/-- A write of a register by its own command, which the block takes once it is ready (15 R399). -/
def actReady (s : State) (f : State → State) : Host.Outcome State Fault Refusal := act s fun s => if ready s then settle (f s) else s

end Sys2Proof.Machine
end

