-- ==== Sys2Proof/Machine/Ahnop.lean ====
section
/-! DEFINITION. The commands of the twelve Ahnop operations, the messages of the compute port, and the life of the operations in a queue (03 R55 to R78, R450; 16 R411 to R434). -/

namespace Sys2Proof.Machine

/-! ### Operations -/

/-- The issued operation of an opcode has its gazetteer effect (03 R64). -/
def gazEffect (code : Nat) (f : Op → State → State) (s : State) : State :=
  match dueGaz s code with
  | some o => settle (f o (effectDone o.queue o.seq s))
  | none => s

/-- The running operation of an opcode begins its work. -/
def beginWork (code : Nat) (f : Nat → Nat → State → State) (s : State) : State :=
  match running s with
  | some o => if o.opcode == code && o.effectDue && !o.endNow && !jobHeld s o.queue then settle (f o.queue o.seq (effectDone o.queue o.seq s)) else s
  | none => s

/-- An operation without work goes to its completion. -/
def noWork (q seq : Nat) (s : State) : State := updOp q seq (fun o => { o with phase := .drain }) s

/-- NOP (16 R412). -/
def execNop (s : State) : Host.Outcome State Fault Refusal := act s (beginWork OP.nop noWork)

/-- LK_POOL (04 R80 to R84). -/
def execLkPool (s : State) : Host.Outcome State Fault Refusal := act s (beginWork OP.lkPool lkAdvance)

/-- GS_SCATTER (06 R150 to R152). -/
def execGsScatter (s : State) : Host.Outcome State Fault Refusal := act s (beginWork OP.gsScatter gsAdvance)

/-- MERIDIAN (06 R172). -/
def execMeridian (s : State) : Host.Outcome State Fault Refusal := act s (beginWork OP.meridian startMeridian)

/-- GZ_DEFINE (02 R28, R29; 16 R420). -/
def execGzDefine (s : State) : Host.Outcome State Fault Refusal := act s (gazEffect OP.gzDefine defineTable)

/-- GZ_SWITCH (02 R45; 16 R421). -/
def execGzSwitch (s : State) : Host.Outcome State Fault Refusal := act s (gazEffect OP.gzSwitch switchTable)

/-- GZ_DROP (16 R422). -/
def execGzDrop (s : State) : Host.Outcome State Fault Refusal := act s (gazEffect OP.gzDrop dropTable)

/-- GZ_ROWMODE (02 R49; 16 R423). -/
def execGzRowmode (s : State) : Host.Outcome State Fault Refusal := act s (gazEffect OP.gzRowmode rowmodeTable)

/-- GZ_ROWPUT (02 R50; 16 R425 to R427). -/
def execGzRowput (s : State) : Host.Outcome State Fault Refusal := act s (beginWork OP.gzRowput rowputAdvance)

/-- MEM_COPY (16 R428, R429). -/
def execMemCopy (s : State) : Host.Outcome State Fault Refusal := act s (beginWork OP.memCopy copyAdvance)

/-- ROW_EXPORT (16 R430, R431). -/
def execRowExport (s : State) : Host.Outcome State Fault Refusal := act s (beginWork OP.rowExport exportAdvance)

/-- ROW_IMPORT (16 R432, R433). -/
def execRowImport (s : State) : Host.Outcome State Fault Refusal := act s (beginWork OP.rowImport importAdvance)

/-! ### Messages of the compute port (03 R57 to R61, R77) -/

/-- A message of the compute die is taken, or waits while the port is up and no module of it carries traffic: the crossings of its modules hold it (12 R320; 13 R347; 14 R375). It is a wake event (13 R357). -/
def crossMessage (w0 w1 : Word) (body : List Word) (s : State) : State :=
  let s := wake s
  if pstate s == 1 && (txModule s).isNone then { s with crossing := s.crossing ++ [.message w0 w1 body] } else settle (receiveMsg w0 w1 body s)

/-- A message of one TYPE arrives. -/
def message (typ : Nat) (w0 w1 : Word) (body : List Word) (s : State) : State :=
  if wbits w0 0 4 == typ then crossMessage w0 w1 body s else s

/-- CMD_MESSAGE (03 R61). -/
def execCmdMessage (w0 w1 : Word) (body : List Word) (s : State) : Host.Outcome State Fault Refusal := act s (message MT.cmd w0 w1 body)

/-- DATA_MESSAGE (03 R59). -/
def execDataMessage (w0 w1 : Word) (body : List Word) (s : State) : Host.Outcome State Fault Refusal := act s (message MT.data w0 w1 body)

/-- CREDIT_MESSAGE (03 R59). -/
def execCreditMessage (w0 w1 : Word) (body : List Word) (s : State) : Host.Outcome State Fault Refusal := act s (message MT.credit w0 w1 body)

/-- Whether a message has a TYPE the die may not send, or a LEN outside 1 to 64 (03 Table 3.13). -/
def badMessage (w0 : Word) : Bool :=
  let t := wbits w0 0 4
  !(t == MT.cmd || t == MT.data || t == MT.ctrl || t == MT.credit) || wbits w0 8 7 == 0 || decide (64 < wbits w0 8 7)

/-- BAD_MESSAGE (03 R77, Table 3.13). -/
def execBadMessage (w0 w1 : Word) (body : List Word) (s : State) : Host.Outcome State Fault Refusal :=
  act s fun s => if badMessage w0 then crossMessage w0 w1 body s else s

/-! ### Issue, completion, time limits -/

/-- OP_ISSUE (03 R62, R63, R450). -/
def execOpIssue (s : State) : Host.Outcome State Fault Refusal := actSettle s issueNext

/-- OP_COMPLETE (03 R66, R71, R73). -/
def execOpComplete (s : State) : Host.Outcome State Fault Refusal := actSettle s completeAll

/-- An operation that waits for its bank looks at the header again. -/
def bankAgain (s : State) : State :=
  match running s with
  | some o => if o.waitRb && o.phase == .bank && !o.endNow then settle (rereadBank o.queue o.seq s) else s
  | none => s

/-- RESULT_BANK_WAIT (03 R73, item 1). -/
def execResultBankWait (s : State) : Host.Outcome State Fault Refusal := act s bankAgain

/-- PORT_TIMEOUT (03 R67). -/
def execPortTimeout (q : Nat) (s : State) : Host.Outcome State Fault Refusal := actSettle s (expirePort q)

/-- STREAM_GAP (03 R58, R77). -/
def execStreamGap (q : Nat) (s : State) : Host.Outcome State Fault Refusal := act s (expireGap q)

/-! ### Abort, stop, restart (03 R74, R78) -/

/-- A CTRL message for a queue. What it does is what its control word says: ABORT, then STOP; RESTART comes by the register alone (03 R57, R74, R78). -/
def ctrlMessage (w0 w1 : Word) (q : Nat) (body : List Word) (s : State) : State :=
  if wbits w0 0 4 == MT.ctrl && wbits w0 4 4 == q then crossMessage w0 w1 body s else s

/-- An action of CMD_Qj_CTRL or of a CTRL message. A disabled queue takes none. -/
def queueAction (route : CtrlRoute) (q : Nat) (f : State → State) (s : State) : State :=
  match route with
  | .register => if ready s && (queue s q).state != 0 then settle (f s) else s
  | .message w0 w1 body => ctrlMessage w0 w1 q body s

/-- ABORT (03 R74). -/
def execAbort (route : CtrlRoute) (q seq : Nat) (s : State) : Host.Outcome State Fault Refusal :=
  act s (queueAction route q (abortSeq q seq))

/-- STOP (03 R78). -/
def execStop (route : CtrlRoute) (q : Nat) (s : State) : Host.Outcome State Fault Refusal :=
  act s (queueAction route q (stopCmd q))

/-- RESTART (03 R78). -/
def execRestart (r : Restart) (s : State) : Host.Outcome State Fault Refusal :=
  act s (queueAction r.route r.queue (restartQueue r.queue))

end Sys2Proof.Machine
end

