-- ==== Sys2Proof/Machine/Parity.lean ====
section
/-! DEFINITION. Errors of near memory and of its SRAM buffers: parity with replay, and retirement (08 R217, R228 to R230). -/

namespace Sys2Proof.Machine

/-- A line of near memory by its vault, set and line of the set, as one number (08 R209). -/
def nmLine (core set line : Nat) : Nat := core * 2 ^ 23 + set * 64 + line

/-- An error found and replayed: counted and shown (08 R229, Table 8.12). -/
def replayed (s : State) : State := setBit R.NM_STATUS 0 (bump1 R.CNT_NM_REPLAY (bump1 R.CNT_NM_PARITY s))

/-- Invalidate a cached entry, whatever its kind and though it is LOCKed: its next reader finds none and goes to the source; a fill already under way is not installed (08 R214, Table 8.4). -/
def replayEntry (e : NEntry) (s : State) : State :=
  staleFills e.slot e.table e.version e.row { s with near := s.near.filter fun x => !x.is e.slot e.table e.version e.row e.kind }

/-- Whether a line has shown an error before. -/
def erredBefore (s : State) (core set line : Nat) : Bool := s.nmErrs.contains (nmLine core set line)

def noteErr (core set line : Nat) (s : State) : State := { s with nmErrs := s.nmErrs ++ [nmLine core set line] }

/-- Take a line of a set out of service: logged, counted, in the repair map, and never allocated again; a vault worn by it has its core fenced (08 R230). -/
def retireData (core set n : Nat) (s : State) : State :=
  let k := core * 131072 + set
  let v := vset s core set
  fenceWorn (retireLine (k, n) { s with vsets := mput k { v with retired := maskSet v.retired n } s.vsets })

/-- Take a set out of service. -/
def retireSet (core set : Nat) (s : State) : State :=
  fenceWorn (killSet (core, set) { s with vsets := mput (core * 131072 + set) { vset s core set with dead := true } s.vsets })

/-- The line offset of the pin band at a line of a vault: pinLine backwards. -/
def pinOffset (s : State) (core line : Nat) : Nat := line - (s.pinSkip.filter fun l => l / 2 ^ 23 == core && decide (l % 2 ^ 23 < line)).length

/-- The region and entry whose slot holds a line of the pin band (08 R222). -/
def pinSlotAt (s : State) (core line : Nat) : Option (Nat × Nat) :=
  let off := pinOffset s core line
  let n := max 1 (coreCount s)
  s.pinPlan.findSome? fun x =>
    let i := (off - x.2.1) / max 1 x.2.2 * n + (posOf s core).logical
    if decide (x.2.1 ≤ off) && decide (i < pinA s x.1 F.NM_PINk_A_COUNT) && (pinState s x.1 == 1 || pinState s x.1 == 2) then some (x.1, i) else none

/-- Fills of the row of a pinned slot that are under way enter it no more (08 R214). -/
def stalePin (k i : Nat) (s : State) : State :=
  match mfind (pinKey k i) s.pins with
  | some p => staleFills (pinA s k F.NM_PINk_A_SLOT) (pinA s k F.NM_PINk_A_TABLE_ID) (pinA s k F.NM_PINk_A_VERSION) p.row s
  | none => s

/-- An error in a slot of the pin band: the slot is invalidated. A line in error again is retired, and its region is RELEASED until the next apply (08 R230, Table 8.4). -/
def pinParity (core set line : Nat) (s : State) : State :=
  match pinSlotAt s core ((set - 2048) * 64 + line) with
  | none => s
  | some (k, i) =>
    let s := replayed (pinDrop k i (stalePin k i s))
    if erredBefore s core set line then
      retireData core set line (setPinState k 3 { s with pins := s.pins.filter fun x => x.1 / 2 ^ 32 != k })
    else noteErr core set line s

/-- An error in a tag line: every entry of the set is invalidated. A tag line in error again makes the set DEAD (08 R230, Table 8.4). -/
def tagParity (core set line : Nat) (s : State) : State :=
  if (vset s core set).dead then s else
  let s := replayed (each (s.near.filter fun e => hasPiece e core set) replayEntry s)
  if erredBefore s core set line then retireSet core set s else noteErr core set line s

/-- An error in a data line of the cache band, where an entry holds it. A line in error again is retired (08 R230, Table 8.4). -/
def dataParity (core set line : Nat) (s : State) : State :=
  match lineHolder s core set (line - 4) with
  | none => s
  | some x =>
    let s := replayed (replayEntry x.1 s)
    if erredBefore s core set line then retireData core set line s else noteErr core set line s

/-- A read of a line of a vault in service finds a parity error in one of its 32 groups (08 R228). What it read is discarded and replayed from its source, as Table 8.4 states for the band of the line; a line that nothing reads, since it holds nothing, shows none. A group of the contour band is one contour. The reader's own replay is its read that follows (DESIGN CHOICE, log 60). -/
def parityFound (core set line group : Nat) (s : State) : State :=
  if !enabled s core || (posOf s core).isolated then s
  else if set < 1024 then replayed { s with contours := mdel (core * contourBand + (set * 64 + line) * 32 + group) s.contours }
  else if set < 2048 then
    sendPurge (replayed { s with idir := s.idir.filter fun e => !(e.vault == core && e.set == ((set - 1024) * 64 + line) / 4) })
  else if set < firstCacheSet s then pinParity core set line s
  else if line < 4 then tagParity core set line s
  else dataParity core set line s

/-- An uncorrectable error of the victim buffer discards the entry read: the i-th, newest first (08 R217). -/
def victimUE (i : Nat) (s : State) : State := if i < s.victim.length then replayed { s with victim := s.victim.eraseIdx i } else s

/-- An uncorrectable error of the prefetch buffer discards the entry read: the i-th of the ring, whose lines stay its operation's (08 R217). -/
def prefetchUE (i : Nat) (s : State) : State :=
  match s.prefetched[i]? with
  | some p => if p.usable then replayed { s with prefetched := s.prefetched.modify i fun p => { p with usable := false } } else s
  | none => s

end Sys2Proof.Machine
end

