-- ==== Sys2Proof/Machine/Datapath.lean ====
section
/-! DEFINITION. The commands of the data path: tags, dispatch, far-memory reads, updates and meridians, releases, translation, invalidation, keys and pinned regions (04 R87, R92; 06 R173, R174; 07 R196; 08 R213, R222, R234; 09). -/

namespace Sys2Proof.Machine

/-! ### Tags, dispatch, far-memory reads -/

/-- Whether a pool has a tag for a requester. -/
def tagFree (p : Pool) (s : State) : Bool :=
  if isService p then decide (serveOut s < serviceTags) else decide (ownOut s < ownTags) && (p != .prefetch || decide (pfOut s < prefetchTags))

/-- A requester that waited for a tag asks again. -/
def askAgain (d : Dest) (s : State) : State :=
  match d with
  | .tile id key => match opOfTile s id with
    | some o => completeTile o.queue o.seq id (retryRow o.queue o.seq id key s)
    | none => s
  | .part id owner bag table => match (opOfTile s id).bind fun o => (o.tile id).bind fun t =>
        (findIdx (fun p => p.owner == owner && p.bag == bag && p.table == table && p.st == .waitTag) t.parts).map fun i => (o, i) with
    | some (o, i) => peerPart o.queue o.seq id i (updTile o.queue o.seq id (fun t => { t with parts := t.parts.modify i fun p => { p with st := .need } }) s)
    | none => s
  | .prefetch q seq table row => match findOp s q seq with
    | some o => if o.place == .issued then prefetchRow q seq (table, row) s else s
    | none => s
  | .serve id key => retryServe id key s
  | .opLine q seq va => (opReadLine q seq 1 va (updOp q seq (fun o => { o with reads := o.reads.filter fun l => l != va }) s)).2
  | .opWrite q seq wid => setWrite q seq wid (fun w => { w with out := false }) s
  | .window rid i => winSend rid i s
  | .pin _ _ => s
  | .nobody => s

/-- The first requester that waits for a pool, one that waits for the end of a trip or the limits of 08 R238 once they allow it, receives a tag; the others keep their places (04 R92). -/
def grantTag (service : Bool) (s : State) : State :=
  match s.tagWait.find? fun x => isService x.1 == service && !(s.spillWait.contains x.2 && (tripped s || spillShut s)) with
  | none => s
  | some x =>
    if !tagFree x.1 s then s else
    let rest := s.tagWait.erase x
    let s := askAgain x.2 { s with spillWait := s.spillWait.filter (fun d => d != x.2), tagWait := rest.filter fun y => isService y.1 != service }
    settle { s with tagWait := (rest.filter fun y => isService y.1 == service) ++ s.tagWait }

/-- TAG_GRANT (04 R92). -/
def execTagGrant (service : Bool) (s : State) : Host.Outcome State Fault Refusal := act s (grantTag service)

/-- The next tile of the running operation, unless a trip or its job holds it back (04 R87; 08 R237; 14 R379). -/
def dispatchNext (s : State) : State :=
  match running s with
  | some o => if tripped s || jobHeld s o.queue || o.endNow then s else settle (dispatchTile o.queue o.seq s)
  | none => s

/-- TILE_DISPATCH (04 R87). -/
def execTileDispatch (s : State) : Host.Outcome State Fault Refusal := act s dispatchNext

/-- The first line a fetch reads in far memory. -/
def firstFar (f : Fetch) : Nat := (((f.lines.filter fun x => !hostLine x).head?).map (·.1)).getD 0

/-- Mark a line uncorrectable: the stack reports the error on every read of it until it is written whole (08 R234). -/
def markUE (line : Nat) (s : State) : State := { s with ueLines := if s.ueLines.contains line then s.ueLines else s.ueLines ++ [line] }

/-- A read of far memory returns under its tag. One that is uncorrectable is repeated once; the second time the line is marked (08 R234; which line of the read is a DESIGN CHOICE, log 33). One whose tag is no longer outstanding is sunk. -/
def farReturn (tag : Nat) (ecc : Ecc) (s : State) : State :=
  match findFetch s tag with
  | none => staleArrival none tag 0 s
  | some f =>
    match f.src with
    | .peer _ => s
    | .window _ => s
    | .translation => s
    | _ =>
      if f.dest == .nobody then absorbTag tag s
      else match ecc with
        | .good => tryFill f s
        | .corrected => tryFill f (hbmCE (firstFar f) s)
        | .uncorrectable =>
          if f.repeated then tryFill f (markUE (firstFar f / 64) s)
          else { s with fetches := updWhere (fun x => x.tag == tag) (fun x => { x with repeated := true }) s.fetches }

/-- What a memory reports with a read takes its effect: the fill goes on, or the error is replayed. A read within the block that finds no error, or one that its code corrects, goes on of itself. -/
def memRead (r : MemRead) (ecc : Ecc) (s : State) : State :=
  match r with
  | .far tag => farReturn tag ecc s
  | .near core set line group => if ecc == .uncorrectable then parityFound core set line group s else s
  | .victim i => if ecc == .uncorrectable then victimUE i s else s
  | .prefetch i => if ecc == .uncorrectable then prefetchUE i s else s

/-- FAR_READ_COMPLETE (08 R213, R214, R217, R229, R230, R234). -/
def execFarReadComplete (r : MemRead) (ecc : Ecc) (s : State) : Host.Outcome State Fault Refusal := actSettle s (memRead r ecc)

/-! ### Meridians and updates -/

/-- A phase of a meridian, while its job is not held (14 R379). -/
def meridianStep (slot : Nat) (f : State → State) (s : State) : State := if jobHeld s slot then s else settle (f s)

/-- MERIDIAN_PHASE1_END (06 R173). -/
def execMeridianPhase1End (slot : Nat) (s : State) : Host.Outcome State Fault Refusal := act s (meridianStep slot (phase1End slot))

/-- MERIDIAN_BEGIN (06 R173; 07 R197). -/
def execMeridianBegin (slot : Nat) (s : State) : Host.Outcome State Fault Refusal := act s (meridianStep slot (meridianBegin slot))

/-- UPDATE_WRITE_ACK (07 R196). -/
def execUpdateWriteAck (ledgerSlot : Nat) (s : State) : Host.Outcome State Fault Refusal := actSettle s (unitAck ledgerSlot)

/-- A meridian completes, and its cartouche is delivered. -/
def completeMeridian (slot : Nat) (s : State) : State := completeAll (meridianComplete slot s)

/-- MERIDIAN_COMPLETE (06 R174; 02 R41). -/
def execMeridianComplete (slot : Nat) (s : State) : Host.Outcome State Fault Refusal := act s (meridianStep slot (completeMeridian slot))

/-- VERSION_RELEASE (02 R48). -/
def execVersionRelease (slot table version : Nat) (s : State) : Host.Outcome State Fault Refusal :=
  actSettle s fun s => if slotOn s slot then releaseVersion slot table version s else s

/-! ### Translation (09) -/

/-- A client translates an address: its buffers answer, or a walk of the range table (09 R245 to R249). -/
def probeWalk (client ctx va : Nat) (write win : Bool) (s : State) : State :=
  (translate false { client := client, ctx := if win then 64 + ctx % 16 else ctx % 64, va := va % vaEnd, write := write, source := 0, who := .probe } s).2

/-- TLB_WALK (09 R245, R255). -/
def execTlbWalk (client ctx va : Nat) (write win : Bool) (s : State) : Host.Outcome State Fault Refusal := act s (probeWalk client ctx va write win)

/-- FQ_RETRY (09 R257). -/
def execFqRetry (slot gen : Nat) (s : State) : Host.Outcome State Fault Refusal := actReady s (answerRetry slot gen)

/-- FQ_FATAL (09 R257). -/
def execFqFatal (slot gen : Nat) (s : State) : Host.Outcome State Fault Refusal := actReady s (answerFatal slot gen)

/-- FAULT_TIMEOUT (09 R258). -/
def execFaultTimeout (slot : Nat) (s : State) : Host.Outcome State Fault Refusal := actSettle s (faultTimeout slot)

/-- INV_CONTEXT (09 R260). -/
def execInvContext (ctx : Nat) (all : Bool) (seq : Nat) (s : State) : Host.Outcome State Fault Refusal := actReady s (invContext ctx all seq)

/-- INV_RANGE (09 R261). -/
def execInvRange (ctx : Nat) (win : Bool) (seq : Nat) (s : State) : Host.Outcome State Fault Refusal := actReady s (invRange ctx win seq)

/-- INV_COMPLETE (09 R262). -/
def execInvComplete (s : State) : Host.Outcome State Fault Refusal := actSettle s invComplete

/-- ROOT_WRITE (09 R247). -/
def execRootWrite (win : Bool) (i : Nat) (w : Word) (s : State) : Host.Outcome State Fault Refusal := act s fun s => if ready s then writeRoot win i w s else s

/-- A write of TLB_KEY_CTRL, which the block takes from the end of stage 1 on (15 R399). -/
def keyWrite (f : State → State) (s : State) : State := if mgmtOpen s then settle (f s) else s

/-- LOAD (09 R251, R252). -/
def execLoad (s : State) : Host.Outcome State Fault Refusal := act s (keyWrite loadKey)

/-- UNLOAD (09 R251). -/
def execUnload (s : State) : Host.Outcome State Fault Refusal := act s (keyWrite unloadKey)

/-- DISCARD_LEDGER (09 R252). -/
def execDiscardLedger (s : State) : Host.Outcome State Fault Refusal := act s (keyWrite discardLedger)

/-- HOT_DECAY (09 R266). -/
def execHotDecay (s : State) : Host.Outcome State Fault Refusal := act s hotDecay

/-- PIN_LOAD (08 R222). -/
def execPinLoad (region : Nat) (s : State) : Host.Outcome State Fault Refusal := act s (pinLoad region)

end Sys2Proof.Machine
end

