-- ==== Sys2Proof/Machine/Packets.lean ====
section
/-! DEFINITION. Packets for this block: the ordered streams and their acknowledgements, and what each kind of packet does at its destination (10 R277 to R285, Tables 10.7 and 10.10). -/

namespace Sys2Proof.Machine

/-! ### Ordered streams (10 R285) -/

def ordered (cls : Nat) : Bool := cls == CL.sync || cls == CL.ctrl

/-- Acknowledge the highest ESEQ delivered in order of a stream: class in [2:0], ESEQ in [63:32] (10 Table 10.7). -/
def sendStreamAck (src cls : Nat) (s : State) : State :=
  let o := ostream s src cls
  let s := setOStream src cls { o with owed := 0 } s
  sendPacket src CL.rsp K.ack 0 (leBytes 8 (fld 0 3 cls + fld 32 32 ((o.rx + (2 ^ 32 - 1)) % 2 ^ 32))) s

/-- Packets that waited for the limit of 16 KiB leave as far as it lets them (R285, item 3). -/
def pumpStream (peer cls : Nat) : Nat → State → State
  | 0, s => s
  | n + 1, s =>
    let o := ostream s peer cls
    match o.waiting with
    | [] => s
    | x :: r =>
      if streamRoom o x.2 then pumpStream peer cls n (routePacket none x.2 (setOStream peer cls { o with unacked := o.unacked ++ [x], waiting := r } s))
      else s

/-- A stream is acknowledged up to an ESEQ: the packets it names are freed. An ACK of packets never sent frees nothing. -/
def streamAcked (peer cls eseq : Nat) (s : State) : State :=
  let o := ostream s peer cls
  match o.unacked with
  | [] => s
  | x :: _ =>
    let n := (eseq + 1 + 2 ^ 32 - x.1 % 2 ^ 32) % 2 ^ 32
    if o.unacked.length < n then s
    else pumpStream peer cls o.waiting.length (setOStream peer cls { o with unacked := o.unacked.drop n } s)

/-- Handle ACK: of an ordered stream, or of a withdrawal or purge, which names a KIND (log 17). -/
def recvAck (p : Packet) (s : State) : State :=
  let w := leAt p.body 0 8
  if bits w 8 8 == 0 then streamAcked p.src (bits w 0 3) (bits w 32 32) s else awaitAcked p.src (bits w 32 32) s

/-! ### Kinds -/

/-- Handle RESTART by its phase (14 R380, Table 14.4). -/
def recvRestart (port : Nat) (p : Packet) (s : State) : State :=
  let ph := bits (leAt p.body 0 8) 0 2
  if ph == RS.query then recvQuery port p s else if ph == RS.reply then recvReply port p s else if ph == RS.set then recvSet port p s else s

/-- What a packet does, by its kind (10 Table 10.7). -/
def deliverPacket (port : Nat) (p : Packet) (s : State) : State :=
  let k := p.kind
  if k == K.rowReq then serveRequest true port p false s
  else if k == K.partReq then serveRequest true port p true s
  else if k == K.rowRsp then rowRsp port p s
  else if k == K.partRsp then partRsp port p s
  else if k == K.error then recvError port p s
  else if k == K.winRead then recvWindow p s
  else if k == K.winWrite then recvWindow p s
  else if k == K.winData then recvWinData port p s
  else if k == K.winAck then recvWinAck port p s
  else if k == K.gradRec then gradArrive true port p s
  else if k == K.mark1 then markArrive port p s
  else if k == K.mark2 then markArrive port p s
  else if k == K.refresh then recvRefresh port p s
  else if k == K.refreshMark then recvRefreshMark port p s
  else if k == K.withdraw then recvWithdraw port p s
  else if k == K.purge then recvPurge p s
  else if k == K.ack then recvAck p s
  else if k == K.release then recvRelease p s
  else if k == K.handoff then recvHandoff p s
  else if k == K.migData then recvMigData p s
  else if k == K.migAck then recvMigAck p s
  else if k == K.migReady then recvMigReady p s
  else if k == K.restart then recvRestart port p s
  else if k == K.regRead then (if mgmtOpen s then recvRegRead port p s else s)
  else if k == K.regWrite then (if mgmtOpen s then recvRegWrite port p s else s)
  else if k == K.regRsp then recvRegRsp p s
  else if k == K.event then recvEvent p s
  else s

/-! ### Arrival -/

/-- Deliver the packets that came early and are now next (R285, item 4). -/
def drainStream (src cls : Nat) : Nat → State → State
  | 0, s => s
  | n + 1, s =>
    let o := ostream s src cls
    match o.early.find? fun x => x.1 == o.rx with
    | some x =>
      let o := { o with rx := o.rx + 1, owed := o.owed + 1, early := o.early.filter fun y => y.1 != x.1 }
      drainStream src cls n (deliverPacket x.2.1 x.2.2 (setOStream src cls o s))
    | none => s

/-- A packet of an ordered class: delivered if it is next, held if it is early, discarded if it was delivered. ESEQ 0 starts a new stream (R285, items 4 and 5). -/
def orderedIn (port : Nat) (p : Packet) (s : State) : State :=
  let o := ostream s p.src p.cls
  let o := if p.eseq == 0 && o.rx % 2 ^ 32 != 0 then { o with rx := 0, early := [], owed := 0 } else o
  let d := (p.eseq + 2 ^ 32 - o.rx % 2 ^ 32) % 2 ^ 32
  if d == 0 then
    let s := deliverPacket port p (setOStream p.src p.cls { o with rx := o.rx + 1, owed := o.owed + 1 } s)
    let s := drainStream p.src p.cls (ostream s p.src p.cls).early.length s
    if 16 ≤ (ostream s p.src p.cls).owed then sendStreamAck p.src p.cls s else s
  else if d < 2 ^ 31 then
    bump1 R.CNT_LNK_REORDER (setOStream p.src p.cls { o with early := (o.early.filter fun y => y.1 != o.rx + d) ++ [(o.rx + d, port, p)] } s)
  else bump1 R.CNT_LNK_DISCARD (vlog VK.eseqDup (portSource port) 0 0 0 0 s)

/-- Whether a packet is for this block and of a kind. -/
def forHere (kind port : Nat) (p : Packet) (s : State) : Bool := decide (port < 6) && p.dest == self s && p.kind == kind

/-- A packet for this block comes out of its receive buffer: checked, put in order, delivered (R277 to R279, R285). -/
def packetIn (port : Nat) (p : Packet) (s : State) : State :=
  let s := leaveBuffer port p s
  if badPacket s p then rejectPacket port p s
  else if ordered p.cls then orderedIn port p s
  else deliverPacket port p s

/-- A packet for this block is a wake event; the HANDOFF and the acknowledgements that an entry into DEEP itself brings do not abandon it (13 R357, R359, R361; DEDUCED, log 32). -/
def wakeFor (kind : Nat) (s : State) : State :=
  if (s.pmode == 3 || s.pmode == 5) && (kind == K.handoff || kind == K.ack) then s else wake s

/-- A packet leaves its receive buffer, or stays there with its credit while its port's crossing holds what arrives (13 R347; 14 R375). -/
def crossPacket (kind port : Nat) (p : Packet) (s : State) : State :=
  if partReset s (portPart port) then { s with crossing := s.crossing ++ [.packet kind port p] } else settle (packetIn port p s)

/-- The arrival of a packet of a kind (13 R357). -/
def actPacket (kind port : Nat) (p : Packet) (s : State) : Host.Outcome State Fault Refusal :=
  act s fun s => if forHere kind port p s then crossPacket kind port p (wakeFor kind s) else s

/-- A RESTART packet of a phase. -/
def actRestart (phase port : Nat) (p : Packet) (s : State) : Host.Outcome State Fault Refusal :=
  act s fun s => if bits (leAt p.body 0 8) 0 2 == phase && forHere K.restart port p s then crossPacket K.restart port p (wake s) else s

/-! ### Commands -/

/-- ROW_REQ (04 R90; 07 R201). -/
def execRowReq (port : Nat) (p : Packet) (s : State) : Host.Outcome State Fault Refusal := actPacket K.rowReq port p s

/-- PART_REQ (04 R101). -/
def execPartReq (port : Nat) (p : Packet) (s : State) : Host.Outcome State Fault Refusal := actPacket K.partReq port p s

/-- ROW_RSP (04 R89; 14 R372). -/
def execRowRsp (port : Nat) (p : Packet) (s : State) : Host.Outcome State Fault Refusal := actPacket K.rowRsp port p s

/-- PART_RSP (04 R101 to R103). -/
def execPartRsp (port : Nat) (p : Packet) (s : State) : Host.Outcome State Fault Refusal := actPacket K.partRsp port p s

/-- ERROR (10 R280). -/
def execError (port : Nat) (p : Packet) (s : State) : Host.Outcome State Fault Refusal := actPacket K.error port p s

/-- WIN_READ at the receiver (09 R264, R265). -/
def execWinRead (port : Nat) (p : Packet) (s : State) : Host.Outcome State Fault Refusal := actPacket K.winRead port p s

/-- WIN_WRITE at the receiver (09 R264, R265). -/
def execWinWrite (port : Nat) (p : Packet) (s : State) : Host.Outcome State Fault Refusal := actPacket K.winWrite port p s

/-- WIN_DATA (09 R265). -/
def execWinData (port : Nat) (p : Packet) (s : State) : Host.Outcome State Fault Refusal := actPacket K.winData port p s

/-- WIN_ACK (09 R265). -/
def execWinAck (port : Nat) (p : Packet) (s : State) : Host.Outcome State Fault Refusal := actPacket K.winAck port p s

/-- GRAD_REC at the owner (06 R165). -/
def execGradRec (port : Nat) (p : Packet) (s : State) : Host.Outcome State Fault Refusal := actPacket K.gradRec port p s

/-- A packet for another block leaves its receive buffer and goes on. -/
def passOn (port : Nat) (p : Packet) (s : State) : State :=
  let s := leaveBuffer port p s
  if badPacket s p then rejectPacket port p s else pumpLinks (forwardPacket port p s)

/-- PACKET_FORWARD: a packet for another block goes on, or stays in its receive buffer while its port's crossing holds what arrives (10 R277, R283; 06 R169 to R171; 13 R347). -/
def execPacketForward (port : Nat) (p : Packet) (s : State) : Host.Outcome State Fault Refusal :=
  act s fun s =>
    if p.dest == self s || decide (6 ≤ port) then s
    else if partReset s (portPart port) then { s with crossing := s.crossing ++ [.passing port p] }
    else passOn port p s

/-- MARK1 (06 R173). -/
def execMark1 (port : Nat) (p : Packet) (s : State) : Host.Outcome State Fault Refusal := actPacket K.mark1 port p s

/-- MARK2 (06 R173). -/
def execMark2 (port : Nat) (p : Packet) (s : State) : Host.Outcome State Fault Refusal := actPacket K.mark2 port p s

/-- REFRESH (08 R225). -/
def execRefresh (port : Nat) (p : Packet) (s : State) : Host.Outcome State Fault Refusal := actPacket K.refresh port p s

/-- REFRESH_MARK (07 R200). -/
def execRefreshMark (port : Nat) (p : Packet) (s : State) : Host.Outcome State Fault Refusal := actPacket K.refreshMark port p s

/-- WITHDRAW (08 R226). -/
def execWithdraw (port : Nat) (p : Packet) (s : State) : Host.Outcome State Fault Refusal := actPacket K.withdraw port p s

/-- PURGE (08 R227). -/
def execPurge (port : Nat) (p : Packet) (s : State) : Host.Outcome State Fault Refusal := actPacket K.purge port p s

/-- ACK (10 R285; 08 R226, R227). -/
def execAck (port : Nat) (p : Packet) (s : State) : Host.Outcome State Fault Refusal := actPacket K.ack port p s

/-- ORDERED_ACK_TIMER (10 R285, item 2). -/
def execOrderedAckTimer (src cls : Nat) (s : State) : Host.Outcome State Fault Refusal :=
  actSettle s fun s => if ordered cls && decide (0 < (ostream s src cls).owed) then sendStreamAck src cls s else s

/-- RELEASE (02 R48). -/
def execRelease (port : Nat) (p : Packet) (s : State) : Host.Outcome State Fault Refusal := actPacket K.release port p s

/-- HANDOFF (10 R287). -/
def execHandoff (port : Nat) (p : Packet) (s : State) : Host.Outcome State Fault Refusal := actPacket K.handoff port p s

/-- MIG_DATA at the new owner (14 R384). -/
def execMigData (port : Nat) (p : Packet) (s : State) : Host.Outcome State Fault Refusal := actPacket K.migData port p s

/-- MIG_ACK at the old owner (14 R384). -/
def execMigAck (port : Nat) (p : Packet) (s : State) : Host.Outcome State Fault Refusal := actPacket K.migAck port p s

/-- MIG_READY (14 R385). -/
def execMigReady (port : Nat) (p : Packet) (s : State) : Host.Outcome State Fault Refusal := actPacket K.migReady port p s

/-- QUERY (14 R380, item 2). -/
def execQuery (port : Nat) (p : Packet) (s : State) : Host.Outcome State Fault Refusal := actRestart RS.query port p s

/-- REPLY (14 R380, item 3). -/
def execReply (port : Nat) (p : Packet) (s : State) : Host.Outcome State Fault Refusal := actRestart RS.reply port p s

/-- SET (14 R380, item 4). -/
def execSet (port : Nat) (p : Packet) (s : State) : Host.Outcome State Fault Refusal := actRestart RS.set port p s

/-- REG_READ at the target (10 R290). -/
def execRegRead (port : Nat) (p : Packet) (s : State) : Host.Outcome State Fault Refusal := actPacket K.regRead port p s

/-- REG_WRITE at the target (10 R290). -/
def execRegWrite (port : Nat) (p : Packet) (s : State) : Host.Outcome State Fault Refusal := actPacket K.regWrite port p s

/-- REG_RSP at the root (10 R290). -/
def execRegRsp (port : Nat) (p : Packet) (s : State) : Host.Outcome State Fault Refusal := actPacket K.regRsp port p s

/-- FWD_TIMEOUT (10 R290, item 4). -/
def execFwdTimeout (id : Nat) (s : State) : Host.Outcome State Fault Refusal := actSettle s (fwdExpire id)

/-- EVENT at the root (10 R291). -/
def execEvent (port : Nat) (p : Packet) (s : State) : Host.Outcome State Fault Refusal := actPacket K.event port p s

/-- EVENT_REPEAT (10 R291). -/
def execEventRepeat (s : State) : Host.Outcome State Fault Refusal := act s eventAgain

end Sys2Proof.Machine
end

