-- ==== Sys2Proof/Machine/System.lean ====
section
/-! DEFINITION. The commands of the system side: links, migration, host and compute ports, power, fences and resets, configuration, counters, debug, register accesses and instruments (10 R282 to R289; 11; 12; 13 R355; 14; 15; 17). -/

namespace Sys2Proof.Machine

/-- A write that the management space takes from the end of stage 1 on (15 R399). -/
def actOpen (s : State) (f : State → State) : Host.Outcome State Fault Refusal := act s fun s => if mgmtOpen s then settle (f s) else s

/-! ### Crossings (13 R347; 14 R375, Table 14.5) -/

/-- Whether a completion of a host read waits: its crossing holds it, or the port retrains, which loses none (11 R309). -/
def completionHeld (s : State) : Bool := partReset s hostPart || lstate s == LS.retrain

/-- Whether a crossing still holds an item. -/
def stillHeld (s : State) (x : Crossed) : Bool := match x with
  | .message _ _ _ => (txModule s).isNone
  | .host _ => partReset s hostPart
  | .completion _ _ _ => completionHeld s
  | .packet _ port _ => partReset s (portPart port)
  | .passing port _ => partReset s (portPart port)

/-- A completion of a host read, and what it completes. -/
def completionArrives (tag : Nat) (status : CplStatus) (data : Bytes) (s : State) : State := completeAll (settle (hostCompletion tag status data s))

/-- An item comes out of its crossing. -/
def takeCrossed (x : Crossed) (s : State) : State := match x with
  | .message w0 w1 body => settle (receiveMsg w0 w1 body s)
  | .host q => settle (hostRequest q s)
  | .completion tag status data => completionArrives tag status data s
  | .packet _ port p => settle (packetIn port p s)
  | .passing port p => passOn port p s

/-- Items that no crossing holds any more are taken, in their order. -/
def uncross (s : State) : State :=
  each s.crossing (fun x s => if stillHeld s x then { s with crossing := s.crossing ++ [x] } else takeCrossed x s) { s with crossing := [] }

/-! ### Peer links and the torus -/

/-- COMPASS_INSTALL (10 R282, R283). -/
def execCompassInstall (s : State) : Host.Outcome State Fault Refusal := actSettle s compassInstall

/-- HANDOFF_TIMEOUT (10 R288; 14 R379). -/
def execHandoffTimeout (k : Nat) (s : State) : Host.Outcome State Fault Refusal := actSettle s (handoffTimeout k)

/-- LOST_TIMEOUT (14 R379, R382, R386). -/
def execLostTimeout (b : Nat) (s : State) : Host.Outcome State Fault Refusal :=
  actSettle s fun s => if s.unreach.contains b && !s.lost.contains b then migPeerGone b (loseBlock b s) else s

/-- LNK_RETRAIN (10 R286, Table 10.16). -/
def execLnkRetrain (k : Nat) (s : State) : Host.Outcome State Fault Refusal := act s fun s => if ready s then retrainPort k s else s

/-- LNK_DISABLE (10 R289). -/
def execLnkDisable (k : Nat) (s : State) : Host.Outcome State Fault Refusal := act s fun s => if ready s then disablePort k s else s

/-- LNK_ENABLE (10 R289). -/
def execLnkEnable (k : Nat) (s : State) : Host.Outcome State Fault Refusal := act s fun s => if ready s then enablePort k s else s

/-- MIG_START (14 R383). -/
def execMigStart (s : State) : Host.Outcome State Fault Refusal := actReady s migStart

/-- MIG_CANCEL (14 R386). -/
def execMigCancel (s : State) : Host.Outcome State Fault Refusal := actReady s migCancel

/-! ### Host port -/

/-- A request of the host, taken while its port serves it, or held by its crossing. It is a wake event (11 R298; 13 R347, R357). -/
def hostArrives (q : HostReq) (s : State) : State :=
  if !(lstate s == LS.up || lstate s == LS.retrain || lstate s == LS.held) then s
  else
    let s := wake s
    if partReset s hostPart then { s with crossing := s.crossing ++ [.host q] } else settle (hostRequest q s)

/-- HOST_MGMT_REQUEST (11 R297, R298; 10 R290). -/
def execHostMgmtRequest (tc : Nat) (write : Bool) (addr width : Nat) (value : Word) (s : State) : Host.Outcome State Fault Refusal :=
  act s (hostArrives { tc := tc, write := write, addr := addr, len := width, data := if write then leBytes width value.toNat else [] })

/-- HOST_WINDOW_REQUEST (11 R299 to R302). -/
def execHostWindowRequest (tc : Nat) (write : Bool) (addr len : Nat) (data : Bytes) (s : State) : Host.Outcome State Fault Refusal :=
  act s (hostArrives { tc := tc, write := write, addr := addr, len := len, data := if write then (padTo len data).take len else [] })

/-- REMOTE_TIMEOUT (11 R301). -/
def execRemoteTimeout (tag : Nat) (s : State) : Host.Outcome State Fault Refusal := actSettle s (remoteTimeout tag)

/-- HST_WIN_CFG_WRITE (11 R302). -/
def execHstWinCfgWrite (w : Word) (s : State) : Host.Outcome State Fault Refusal := act s fun s => if ready s then writeWinCfg w s else s

/-- HOST_COMPLETION (11 R303, R307, R309; 13 R347). -/
def execHostCompletion (tag : Nat) (status : CplStatus) (data : Bytes) (s : State) : Host.Outcome State Fault Refusal :=
  actSettle s fun s => if completionHeld s then { s with crossing := s.crossing ++ [.completion tag status data] } else completionArrives tag status data s

/-- CPL_TIMEOUT (11 R303). -/
def execCplTimeout (tag : Nat) (s : State) : Host.Outcome State Fault Refusal := actSettle s (cplTimeout tag)

/-- HST_RETRAIN (11 R309, Table 11.10). -/
def execHstRetrain (s : State) : Host.Outcome State Fault Refusal := act s fun s => if ready s then hostRetrainReg s else s

/-- HOST_RETRAIN_DONE (11 R309, Table 11.4). -/
def execHostRetrainDone (s : State) : Host.Outcome State Fault Refusal := actSettle s fun s => uncross (hostRetrainDone s)

/-- RETRAIN_LIMIT (11 R310). -/
def execRetrainLimit (s : State) : Host.Outcome State Fault Refusal := actSettle s retrainLimit

/-- HOST_LOST (11 R295, R310; 12 R322). The reset pin acts on a block in reset too. -/
def execHostLost (cause : HostLossCause) (s : State) : Host.Outcome State Fault Refusal :=
  actInput s (fun s => settle (if cause == .untrained then hostUntrained s else hostLost cause s)) fun s => if cause == .resetPin then { s with hstRst := true } else s

/-- HOST_MODULE_TRAINED (12 R322; 11 R310). -/
def execHostModuleTrained (s : State) : Host.Outcome State Fault Refusal := actSettle s hostTrained

/-- RESUME (11 R310, step 7). -/
def execResume (s : State) : Host.Outcome State Fault Refusal := actReady s hostResume

/-- UNSUPPORTED_REQUEST (11 R313, Table 11.7). -/
def execUnsupportedRequest (req : BadRequest) (addr : Nat) (header : Word) (s : State) : Host.Outcome State Fault Refusal :=
  act s (hostArrives { tc := breachPath req, write := false, addr := addr, len := 0, data := [], bad := some (req, header) })

/-! ### Compute port -/

/-- CPT_MODULE_UP (12 R320, R321). -/
def execCptModuleUp (m : Nat) (s : State) : Host.Outcome State Fault Refusal := actSettle s fun s => uncross (modUp m s)

/-- CPT_PARTNER_LOST (12 R321). -/
def execCptPartnerLost (cause : CptLossCause) (s : State) : Host.Outcome State Fault Refusal :=
  actInput s (fun s => settle (cptPartnerLost cause s)) (cptPinLow cause)

/-- RETRAIN_MASK (12 Table 12.14). -/
def execRetrainMask (mask : Nat) (s : State) : Host.Outcome State Fault Refusal := act s fun s => if ready s then retrainMask mask s else s

/-! ### Power -/

/-- PWR_LATENCY_WRITE (13 R355). -/
def execPwrLatencyWrite (w : Word) (s : State) : Host.Outcome State Fault Refusal := act s fun s => if ready s then writeLatency w s else s

/-! ### Fences and resets (14 R366 to R375) -/

/-- A core is fenced for a cause; the readings of its vault's sensors no longer count (14 R369; 12 R333). -/
def fenceBy (core cause : Nat) (s : State) : State := warnCheck (fenceCause core cause s)

/-- CORE_FENCE: an SRAM_UE or RESIDUE cause, 1 or 2; cause 0 is a correctable error, which is counted and fences nothing (14 R366, R369). -/
def execCoreFence (core cause : Nat) (s : State) : Host.Outcome State Fault Refusal :=
  actSettle s fun s => if cause == 0 && decide (3 ≤ s.stage) then bump1 R.CNT_CORE_CE s else if (cause == 1 || cause == 2) && decide (3 ≤ s.stage) then fenceBy core cause s else s

/-- ENGINE_STALL: cause 3 (14 R366). -/
def execEngineStall (core : Nat) (s : State) : Host.Outcome State Fault Refusal :=
  actSettle s fun s => if 3 ≤ s.stage then fenceBy core 3 s else s

/-- FENCE_CORE_CMD: ACTION 1 of MG_FENCE_CTRL, cause 5 (14 R369, Table 14.9). -/
def execFenceCoreCmd (core : Nat) (s : State) : Host.Outcome State Fault Refusal := actReady s (fenceBy core 5)

/-- CLUSTER_RESET: ACTION 2 of MG_FENCE_CTRL, or an error of the cluster's fabric (14 R375). -/
def execClusterReset (cluster : Nat) (fabricError : Bool) (s : State) : Host.Outcome State Fault Refusal :=
  actSettle s fun s => if fabricError then resetScope false cluster 2 s else if ready s then resetScope false cluster 1 s else s

/-- PARTITION_RESET: ACTION 3 of MG_FENCE_CTRL (14 R375). -/
def execPartitionReset (partition : Nat) (s : State) : Host.Outcome State Fault Refusal := actReady s (resetScope true partition 1)

/-- SPARE_SELFTEST_DONE (14 R366, R369). -/
def execSpareSelftestDone (position : Nat) (pass : Bool) (s : State) : Host.Outcome State Fault Refusal := actSettle s fun s => warnCheck (spareTested position pass s)

/-- A cluster or partition reset ends: what its crossings held is taken, and what waited for them leaves (13 R347; 14 R375). -/
def scopeEnded (failed : List Nat) (s : State) : State := cptFlush (hostDrain (uncross (warnCheck (endScope failed s))))

/-- RESET_SCOPE_END (14 R375). -/
def execResetScopeEnd (failed : List Nat) (s : State) : Host.Outcome State Fault Refusal := actSettle s (scopeEnded failed)

/-! ### Bring-up, configuration, firmware (15) -/

/-- FULL_NEXT (15 R391). -/
def execFullNext (s : State) : Host.Outcome State Fault Refusal := act s fullNext

/-- CLEAR_FIELD (15 R403). -/
def execClearField (s : State) : Host.Outcome State Fault Refusal := act s fun s => if ready s then clearField s else s

/-- CHECK (15 R407). -/
def execCheck (s : State) : Host.Outcome State Fault Refusal := act s fun s => if mgmtOpen s then cfgCheck s else s

/-- APPLY (15 R408): a wake event (13 R357). -/
def execApply (s : State) : Host.Outcome State Fault Refusal := act s fun s => if mgmtOpen s then cfgApply (wake s) else s

/-- APPLY_COMMIT (15 R408). -/
def execApplyCommit (s : State) : Host.Outcome State Fault Refusal := actSettle s applyCommit

/-- DISCARD (15 R409). -/
def execDiscard (s : State) : Host.Outcome State Fault Refusal := actOpen s cfgDiscard

/-- UPDATE (15 R405). -/
def execUpdate (s : State) : Host.Outcome State Fault Refusal := act s fwUpdate

/-! ### Counters and debug (17 R441 to R447) -/

/-- SNAP (17 R441). -/
def execSnap (s : State) : Host.Outcome State Fault Refusal := act s fun s => if ready s then takeSnap s else s

/-- SNAP_COMPLETE (17 R441). -/
def execSnapComplete (s : State) : Host.Outcome State Fault Refusal := act s endSnap

/-- CNT_PMSEL_WRITE (17 R442). -/
def execCntPmselWrite (i : Nat) (w : Word) (s : State) : Host.Outcome State Fault Refusal := act s fun s => if ready s then writePmsel i w s else s

/-- CNT_FLAG_SUM_WRITE (17 R444). -/
def execCntFlagSumWrite (w : Word) (s : State) : Host.Outcome State Fault Refusal := act s fun s => if ready s then clearFlags w.toNat s else s

/-- DEBUG_EN (17 R445). -/
def execDebugEn (on : Bool) (s : State) : Host.Outcome State Fault Refusal := act s fun s => if ready s then debugEn on s else s

/-- CAPTURE (17 R446). -/
def execCapture (s : State) : Host.Outcome State Fault Refusal := act s fun s => if ready s then capture s else s

/-- CAPTURE_DONE (17 R446). -/
def execCaptureDone (s : State) : Host.Outcome State Fault Refusal := act s captureDone

/-- NM_READ (17 R447). -/
def execNmRead (s : State) : Host.Outcome State Fault Refusal := act s fun s => if ready s then nmRead s else s

/-! ### Register accesses (00 R9 to R11, R449; 17 R435, R436) -/

/-- Whether a write of a register acts, beyond its fields. -/
def regActs (off : Nat) (s : State) : Bool := match findRow off with
  | some r => (writeAction off r 0 0 s).isSome
  | none => false

/-- A register write of a source: its fields by their access codes, and what its action brings. -/
def regWrite (src : Source) (off width : Nat) (value : Word) (s : State) : State :=
  let t := accessWrite src off width value s
  if accessOk off width && regActs (off / 8 * 8) s then settle t else t

/-- An access of the host, or one forwarded to the block, is a wake event; the management controller's is none (13 R357). -/
def wakeSource (src : Source) (s : State) : State := if src == .controller then s else wake s

/-- REG_ACCESS_WRITE (00 R9, R10, R449; 13 R357; 15 R399; 17 R436). -/
def execRegAccessWrite (src : Source) (off width : Nat) (value : Word) (s : State) : Host.Outcome State Fault Refusal :=
  act s fun s => if mgmtOpen s then regWrite src off width value (wakeSource src s) else s

/-- A register read of a source, and the value it shows. -/
def regRead (src : Source) (off width : Nat) (s : State) : State :=
  let (v, s) := accessRead src off width s
  emit (.regValue v) s

/-- REGISTER_READ (00 R9; 03 R76; 13 R357; 17 R436). -/
def execRegisterRead (src : Source) (off width : Nat) (s : State) : Host.Outcome State Fault Refusal :=
  act s fun s => if mgmtOpen s then regRead src off width (wakeSource src s) else s

/-! ### The TAP, and the outputs in reset (12 R317, R335, R336) -/

/-- What IDCODE reads (12 R335). -/
def idcode : Word := 0x2E201A4B

/-- The next state of the TAP controller at a rising edge of TCK, by TMS; asserted, TRST_N leads to Test-Logic-Reset (12 R335; the states are IEEE 1149.1's, PRESUMED, log 94). -/
def tapNext (trst tms : Bool) (t : TapState) : TapState :=
  if trst then .testLogicReset else
  match t, tms with
  | .testLogicReset, m => if m then .testLogicReset else .runTestIdle
  | .runTestIdle, m => if m then .selectDr else .runTestIdle
  | .selectDr, m => if m then .selectIr else .captureDr
  | .captureDr, m => if m then .exit1Dr else .shiftDr
  | .shiftDr, m => if m then .exit1Dr else .shiftDr
  | .exit1Dr, m => if m then .updateDr else .pauseDr
  | .pauseDr, m => if m then .exit2Dr else .pauseDr
  | .exit2Dr, m => if m then .updateDr else .shiftDr
  | .updateDr, m => if m then .selectDr else .runTestIdle
  | .selectIr, m => if m then .testLogicReset else .captureIr
  | .captureIr, m => if m then .exit1Ir else .shiftIr
  | .shiftIr, m => if m then .exit1Ir else .shiftIr
  | .exit1Ir, m => if m then .updateIr else .pauseIr
  | .pauseIr, m => if m then .exit2Ir else .pauseIr
  | .exit2Ir, m => if m then .updateIr else .shiftIr
  | .updateIr, m => if m then .selectDr else .runTestIdle

/-- Whether the TAP is powered: not in DEEP (13 R364). -/
def tapPowered (s : State) : Bool := s.powered && s.pmode != 2

/-- Whether TDO is driven: in Shift-DR and Shift-IR only; otherwise it is high-impedance. -/
def tdoDriven (s : State) : Bool := tapPowered s && (s.tap == .shiftDr || s.tap == .shiftIr)

/-- An access through the TAP leads from Shift-DR through Exit1-DR and Update-DR to Run-Test/Idle (log 94). -/
def afterAccess (s : State) : State := { s with tap := tapNext false false (tapNext false true (tapNext false true .shiftDr)) }

/-- What boundary scan captures of the 1.2 V CMOS signals of R317, as levels: power-good and the resets, the wake input, the straps, the sideband outputs. An asserted active-low signal is low, and TEMP_PWM is high for a part of its period that this gives in cycles. -/
structure Boundary where
  pwrGood : Bool
  blkRstN : Bool
  hstRstN : Bool
  cptPrstN : Bool
  wakeN : Bool
  straps : Straps
  intN : Bool
  errorN : Bool
  thermWarnN : Bool
  thermTripN : Bool
  tempPwmHigh : Nat
deriving DecidableEq, Repr

def boundary (s : State) : Boundary :=
  { pwrGood := s.pwrGood, blkRstN := s.rstHigh.isSome, hstRstN := !s.hstRst, cptPrstN := !s.cptPrst, wakeN := !Config.wakeLevel s.aon, straps := s.straps,
    intN := !intPin s, errorN := !errPin s, thermWarnN := !warnPin s, thermTripN := !tripPin s, tempPwmHigh := tempPwm s }

/-- What a transmitter of the compute, host and peer ports does (12 Table 12.6). -/
inductive TxState where
  /-- Not driven: VIN is absent. -/
  | off
  /-- Electrical idle: PWR_GOOD is low, or the block is in block reset. -/
  | idle
  /-- As its port's training has it. -/
  | trained
deriving DecidableEq, Repr

def txState (s : State) : TxState := if !s.vin then .off else if s.up then .trained else .idle

/-! ### Instruments (15 R410, Table 15.5) -/

/-- Whether a port carries no traffic: OFF, DEAD, DISABLED or DOWN. -/
def portIdle (s : State) (p : PortName) : Bool := match p with
  | .compute m => modState s m == CM.down
  | .host => lstate s == LS.down
  | .hbm _ => false
  | .peer k => portState s k == PS.off || portState s k == PS.dead || portState s k == PS.disabled

def tapUnlock (s : State) : Bool := fbit s R.MG_TEST_CFG F.MG_TEST_CFG_TAP_UNLOCK

/-- The condition under which an instrument acts. -/
def instrumentActs (s : State) (inst : Instrument) (p : PortName) (position : Nat) : Bool := match inst with
  | .tempRead => true
  | .paceRead => true
  | .repairRead => true
  | .surveyRead => true
  | .eyeScan => s.up && ((tapUnlock s && !(List.range 16).any (slotOn s)) || portIdle s p)
  | .prbs => s.up && ((tapUnlock s && !(List.range 16).any (slotOn s)) || portIdle s p)
  | .loopback => s.up && ((tapUnlock s && !(List.range 16).any (slotOn s)) || portIdle s p)
  | .memBist => s.up && tapUnlock s && decide (position < 144) && !enabled s position
  | .scan => s.rstHigh.isNone && s.pwrGood

/-- Whether an instrument works on a port's lanes. -/
def onLanes (inst : Instrument) : Bool := inst == .eyeScan || inst == .prbs || inst == .loopback

/-- A port whose lanes an instrument has changed is in RETRAIN. -/
def leaveInRetrain (p : PortName) (s : State) : State := match p with
  | .compute m => if decide (m < 8) then setMod m CM.again s else s
  | .host => if lstate s == LS.up || lstate s == LS.held then hostRetrain s else setLstate LS.retrain s
  | .hbm _ => s
  | .peer k => if !portWired s k then s else if portState s k == PS.up then retrainPort k s else setPortState k PS.retrain s

/-- What an instrument reads: the sensors in order, the pace meters, the repair map, the surveys; the findings of the others are not the block's own (15 Table 15.5). -/
def instrumentData (s : State) (inst : Instrument) : List Word := match inst with
  | .tempRead => (sortBy (fun (x : Nat × Int) => x.1) s.temps).map fun x => BitVec.ofInt 64 x.2
  | .paceRead => [rget s R.PWR_PACE]
  | .repairRead => (List.range 152).map fun i => word (repairData (rset R.SRV_REPAIR_SEL (word i) s))
  | .surveyRead => (List.range 8).flatMap fun k => (List.range 8).map fun w => rget s (R.SRV_REPORTk_Ww (k + 1) w)
  | _ => []

/-- An access to an instrument: outside its condition it reads as zero and has no effect. -/
def instrument (inst : Instrument) (p : PortName) (position : Nat) (changesLanes : Bool) (s : State) : State :=
  let s := afterAccess s
  if instrumentActs s inst p position then
    let s := emit (.instrument inst p position (instrumentData s inst)) s
    if changesLanes && onLanes inst then leaveInRetrain p s else s
  else emit (.regValue 0) s

/-- An access to an instrument of a block that is not up: its lanes carry nothing, and an unpowered TAP answers nothing (13 R364). -/
def instrumentIdle (inst : Instrument) (p : PortName) (position : Nat) (s : State) : State :=
  if !tapPowered s then s else
  let s := afterAccess s
  if instrumentActs s inst p position then emit (.instrument inst p position (instrumentData s inst)) s else emit (.regValue 0) s

/-- INSTRUMENT_ACCESS (15 R410; 12 R335). -/
def execInstrumentAccess (inst : Instrument) (p : PortName) (position : Nat) (changesLanes : Bool) (s : State) : Host.Outcome State Fault Refusal :=
  actInput s (instrument inst p position changesLanes) (instrumentIdle inst p position)

end Sys2Proof.Machine
end

