-- ==== Sys2Proof/Machine/Dispatch.lean ====
section
/-! DEFINITION. The dispatch: one arm per command. -/

namespace Sys2Proof.Machine

def exec (i : Instr) (s : State) : Host.Outcome State Fault Refusal :=
  match i with
  | .nop => Sys2Proof.Machine.execNop s
  | .lkPool => Sys2Proof.Machine.execLkPool s
  | .gsScatter => Sys2Proof.Machine.execGsScatter s
  | .meridian => Sys2Proof.Machine.execMeridian s
  | .gzDefine => Sys2Proof.Machine.execGzDefine s
  | .gzSwitch => Sys2Proof.Machine.execGzSwitch s
  | .gzDrop => Sys2Proof.Machine.execGzDrop s
  | .gzRowmode => Sys2Proof.Machine.execGzRowmode s
  | .gzRowput => Sys2Proof.Machine.execGzRowput s
  | .memCopy => Sys2Proof.Machine.execMemCopy s
  | .rowExport => Sys2Proof.Machine.execRowExport s
  | .rowImport => Sys2Proof.Machine.execRowImport s
  | .cmdMessage w0 w1 body => Sys2Proof.Machine.execCmdMessage w0 w1 body s
  | .dataMessage w0 w1 body => Sys2Proof.Machine.execDataMessage w0 w1 body s
  | .creditMessage w0 w1 body => Sys2Proof.Machine.execCreditMessage w0 w1 body s
  | .opIssue => Sys2Proof.Machine.execOpIssue s
  | .opComplete => Sys2Proof.Machine.execOpComplete s
  | .resultBankWait => Sys2Proof.Machine.execResultBankWait s
  | .portTimeout queue => Sys2Proof.Machine.execPortTimeout queue s
  | .streamGap queue => Sys2Proof.Machine.execStreamGap queue s
  | .abort route queue seq => Sys2Proof.Machine.execAbort route queue seq s
  | .stop route queue => Sys2Proof.Machine.execStop route queue s
  | .restart r => Sys2Proof.Machine.execRestart r s
  | .tagGrant service => Sys2Proof.Machine.execTagGrant service s
  | .tileDispatch => Sys2Proof.Machine.execTileDispatch s
  | .rowReq port p => Sys2Proof.Machine.execRowReq port p s
  | .partReq port p => Sys2Proof.Machine.execPartReq port p s
  | .rowRsp port p => Sys2Proof.Machine.execRowRsp port p s
  | .partRsp port p => Sys2Proof.Machine.execPartRsp port p s
  | .farReadComplete r ecc => Sys2Proof.Machine.execFarReadComplete r ecc s
  | .error port p => Sys2Proof.Machine.execError port p s
  | .winRead port p => Sys2Proof.Machine.execWinRead port p s
  | .winWrite port p => Sys2Proof.Machine.execWinWrite port p s
  | .winData port p => Sys2Proof.Machine.execWinData port p s
  | .winAck port p => Sys2Proof.Machine.execWinAck port p s
  | .gradRec port p => Sys2Proof.Machine.execGradRec port p s
  | .packetForward port p => Sys2Proof.Machine.execPacketForward port p s
  | .addHoldExpire port => Sys2Proof.Machine.execAddHoldExpire port s
  | .mark1 port p => Sys2Proof.Machine.execMark1 port p s
  | .mark2 port p => Sys2Proof.Machine.execMark2 port p s
  | .meridianPhase1End slot => Sys2Proof.Machine.execMeridianPhase1End slot s
  | .meridianBegin slot => Sys2Proof.Machine.execMeridianBegin slot s
  | .updateWriteAck ledgerSlot => Sys2Proof.Machine.execUpdateWriteAck ledgerSlot s
  | .meridianComplete slot => Sys2Proof.Machine.execMeridianComplete slot s
  | .refresh port p => Sys2Proof.Machine.execRefresh port p s
  | .refreshMark port p => Sys2Proof.Machine.execRefreshMark port p s
  | .withdraw port p => Sys2Proof.Machine.execWithdraw port p s
  | .purge port p => Sys2Proof.Machine.execPurge port p s
  | .ack port p => Sys2Proof.Machine.execAck port p s
  | .orderedAckTimer src cls => Sys2Proof.Machine.execOrderedAckTimer src cls s
  | .release port p => Sys2Proof.Machine.execRelease port p s
  | .versionRelease slot table version => Sys2Proof.Machine.execVersionRelease slot table version s
  | .handoff port p => Sys2Proof.Machine.execHandoff port p s
  | .handoffTimeout port => Sys2Proof.Machine.execHandoffTimeout port s
  | .migStart => Sys2Proof.Machine.execMigStart s
  | .migCancel => Sys2Proof.Machine.execMigCancel s
  | .migData port p => Sys2Proof.Machine.execMigData port p s
  | .migAck port p => Sys2Proof.Machine.execMigAck port p s
  | .migReady port p => Sys2Proof.Machine.execMigReady port p s
  | .query port p => Sys2Proof.Machine.execQuery port p s
  | .reply port p => Sys2Proof.Machine.execReply port p s
  | .set port p => Sys2Proof.Machine.execSet port p s
  | .regRead port p => Sys2Proof.Machine.execRegRead port p s
  | .regWrite port p => Sys2Proof.Machine.execRegWrite port p s
  | .regRsp port p => Sys2Proof.Machine.execRegRsp port p s
  | .fwdTimeout reqId => Sys2Proof.Machine.execFwdTimeout reqId s
  | .event port p => Sys2Proof.Machine.execEvent port p s
  | .eventRepeat => Sys2Proof.Machine.execEventRepeat s
  | .flitReceive port hdr payload crc codeword => Sys2Proof.Machine.execFlitReceive port hdr payload crc codeword s
  | .linkAckTimer port => Sys2Proof.Machine.execLinkAckTimer port s
  | .linkStateRecord port block rport state width version => Sys2Proof.Machine.execLinkStateRecord port block rport state width version s
  | .compassInstall => Sys2Proof.Machine.execCompassInstall s
  | .compassGenExpire gen => Sys2Proof.Machine.execCompassGenExpire gen s
  | .lostTimeout block => Sys2Proof.Machine.execLostTimeout block s
  | .portTrainingStep port ev => Sys2Proof.Machine.execPortTrainingStep port ev s
  | .portRetrainTrigger port cause => Sys2Proof.Machine.execPortRetrainTrigger port cause s
  | .fastRetrainEnd port txGood rxGood => Sys2Proof.Machine.execFastRetrainEnd port txGood rxGood s
  | .bgRetrain port => Sys2Proof.Machine.execBgRetrain port s
  | .lnkRetrain port => Sys2Proof.Machine.execLnkRetrain port s
  | .lnkDisable port => Sys2Proof.Machine.execLnkDisable port s
  | .lnkEnable port => Sys2Proof.Machine.execLnkEnable port s
  | .tlbWalk client ctx va write win => Sys2Proof.Machine.execTlbWalk client ctx va write win s
  | .fqRetry slot gen => Sys2Proof.Machine.execFqRetry slot gen s
  | .fqFatal slot gen => Sys2Proof.Machine.execFqFatal slot gen s
  | .faultTimeout slot => Sys2Proof.Machine.execFaultTimeout slot s
  | .invContext ctx all seq => Sys2Proof.Machine.execInvContext ctx all seq s
  | .invRange ctx win seq => Sys2Proof.Machine.execInvRange ctx win seq s
  | .invComplete => Sys2Proof.Machine.execInvComplete s
  | .rootWrite win index value => Sys2Proof.Machine.execRootWrite win index value s
  | .load => Sys2Proof.Machine.execLoad s
  | .unload => Sys2Proof.Machine.execUnload s
  | .discardLedger => Sys2Proof.Machine.execDiscardLedger s
  | .hotDecay => Sys2Proof.Machine.execHotDecay s
  | .contourDecay => Sys2Proof.Machine.execContourDecay s
  | .pinLoad region => Sys2Proof.Machine.execPinLoad region s
  | .hbmPortFailed k crcRetries => Sys2Proof.Machine.execHbmPortFailed k crcRetries s
  | .hostMgmtRequest tc write addr width value => Sys2Proof.Machine.execHostMgmtRequest tc write addr width value s
  | .hostWindowRequest tc write addr len data => Sys2Proof.Machine.execHostWindowRequest tc write addr len data s
  | .remoteTimeout tag => Sys2Proof.Machine.execRemoteTimeout tag s
  | .hstWinCfgWrite value => Sys2Proof.Machine.execHstWinCfgWrite value s
  | .hostCompletion tag status data => Sys2Proof.Machine.execHostCompletion tag status data s
  | .cplTimeout tag => Sys2Proof.Machine.execCplTimeout tag s
  | .hostPortRetrain => Sys2Proof.Machine.execHostPortRetrain s
  | .hstRetrain => Sys2Proof.Machine.execHstRetrain s
  | .hostRetrainDone => Sys2Proof.Machine.execHostRetrainDone s
  | .retrainLimit => Sys2Proof.Machine.execRetrainLimit s
  | .hostLost cause => Sys2Proof.Machine.execHostLost cause s
  | .hstRstRelease => Sys2Proof.Machine.execHstRstRelease s
  | .hostModuleTrained => Sys2Proof.Machine.execHostModuleTrained s
  | .resume => Sys2Proof.Machine.execResume s
  | .cptModuleDetect m => Sys2Proof.Machine.execCptModuleDetect m s
  | .cptModuleUp m => Sys2Proof.Machine.execCptModuleUp m s
  | .cptModuleExclude m => Sys2Proof.Machine.execCptModuleExclude m s
  | .cptModuleDown m => Sys2Proof.Machine.execCptModuleDown m s
  | .cptPartnerLost cause => Sys2Proof.Machine.execCptPartnerLost cause s
  | .cptPrstRelease => Sys2Proof.Machine.execCptPrstRelease s
  | .retrainMask mask => Sys2Proof.Machine.execRetrainMask mask s
  | .pwrGoodFall => Sys2Proof.Machine.execPwrGoodFall s
  | .pwrGoodRise => Sys2Proof.Machine.execPwrGoodRise s
  | .blkRstAssert => Sys2Proof.Machine.execBlkRstAssert s
  | .blkRstRelease straps => Sys2Proof.Machine.execBlkRstRelease straps s
  | .clockLoss clock => Sys2Proof.Machine.execClockLoss clock s
  | .clockRecover clock => Sys2Proof.Machine.execClockRecover clock s
  | .thermalLoop baseDie => Sys2Proof.Machine.execThermalLoop baseDie s
  | .powerLoop watts => Sys2Proof.Machine.execPowerLoop watts s
  | .fastLimit amps => Sys2Proof.Machine.execFastLimit amps s
  | .paceMeter counts => Sys2Proof.Machine.execPaceMeter counts s
  | .railFault supply => Sys2Proof.Machine.execRailFault supply s
  | .thermalTrip => Sys2Proof.Machine.execThermalTrip s
  | .thermalTripExit => Sys2Proof.Machine.execThermalTripExit s
  | .pwrLatencyWrite value => Sys2Proof.Machine.execPwrLatencyWrite value s
  | .napEntry => Sys2Proof.Machine.execNapEntry s
  | .napWake ev => Sys2Proof.Machine.execNapWake ev s
  | .deepEntry => Sys2Proof.Machine.execDeepEntry s
  | .deepHandoffTimeout port => Sys2Proof.Machine.execDeepHandoffTimeout port s
  | .deepWake comparator => Sys2Proof.Machine.execDeepWake comparator s
  | .coreFence core cause => Sys2Proof.Machine.execCoreFence core cause s
  | .engineStall core => Sys2Proof.Machine.execEngineStall core s
  | .fenceCoreCmd core => Sys2Proof.Machine.execFenceCoreCmd core s
  | .clusterReset cluster fabricError => Sys2Proof.Machine.execClusterReset cluster fabricError s
  | .partitionReset partition => Sys2Proof.Machine.execPartitionReset partition s
  | .spareSelftestDone position pass => Sys2Proof.Machine.execSpareSelftestDone position pass s
  | .resetScopeEnd failed => Sys2Proof.Machine.execResetScopeEnd failed s
  | .stageEnd r => Sys2Proof.Machine.execStageEnd r s
  | .fullNext => Sys2Proof.Machine.execFullNext s
  | .clearField => Sys2Proof.Machine.execClearField s
  | .check => Sys2Proof.Machine.execCheck s
  | .apply => Sys2Proof.Machine.execApply s
  | .applyCommit => Sys2Proof.Machine.execApplyCommit s
  | .discard => Sys2Proof.Machine.execDiscard s
  | .update => Sys2Proof.Machine.execUpdate s
  | .fwUpdateDone => Sys2Proof.Machine.execFwUpdateDone s
  | .snap => Sys2Proof.Machine.execSnap s
  | .snapComplete => Sys2Proof.Machine.execSnapComplete s
  | .cntPmselWrite counter value => Sys2Proof.Machine.execCntPmselWrite counter value s
  | .cntFlagSumWrite value => Sys2Proof.Machine.execCntFlagSumWrite value s
  | .debugEn on => Sys2Proof.Machine.execDebugEn on s
  | .capture => Sys2Proof.Machine.execCapture s
  | .captureDone => Sys2Proof.Machine.execCaptureDone s
  | .nmRead => Sys2Proof.Machine.execNmRead s
  | .regAccessWrite src offset width value => Sys2Proof.Machine.execRegAccessWrite src offset width value s
  | .badMessage w0 w1 body => Sys2Proof.Machine.execBadMessage w0 w1 body s
  | .unsupportedRequest req addr header => Sys2Proof.Machine.execUnsupportedRequest req addr header s
  | .registerRead src offset width => Sys2Proof.Machine.execRegisterRead src offset width s
  | .vinRise => Sys2Proof.Machine.execVinRise s
  | .vinRemoval => Sys2Proof.Machine.execVinRemoval s
  | .temperatureReading sensor celsius => Sys2Proof.Machine.execTemperatureReading sensor celsius s
  | .instrumentAccess inst port position changesLanes => Sys2Proof.Machine.execInstrumentAccess inst port position changesLanes s

end Sys2Proof.Machine
end

