-- ==== Sys2Proof/WellFormed.lean ====
section
/-! DEFINITION. Commands whose operands lie in the ranges the manual gives them. The machine takes any command; this says which ones the surroundings can send. -/

namespace Sys2Proof

/-- A packet whose header fields fit (10 Table 10.5). -/
def Packet.fits (p : Packet) : Bool :=
  decide (p.dest < 64) && decide (p.src < 64) && decide (p.cls < 8) && decide (p.lenM1 < 128) && decide (p.kind < 256) && decide (p.jobId < 256)
    && decide (p.gen < 256) && decide (p.bodyBytes < 16384) && decide (p.eseq < 2 ^ 32)

/-- A packet that comes on a port. -/
def onPort (port : Nat) (p : Packet) : Bool := decide (port < 6) && p.fits

/-- What a peer sends of itself (10 R272). -/
def PartnerId.fits (i : PartnerId) : Bool :=
  decide (i.block < 64) && decide (i.xc < 4) && decide (i.yc < 4) && decide (i.zc < 4) && decide (i.xd ≤ 4) && decide (i.yd ≤ 4) && decide (i.zd ≤ 4)
    && decide (i.port < 6) && decide (i.family < 2 ^ 16) && decide (i.major < 2 ^ 8) && decide (i.txGood < 512) && decide (i.rxGood < 512)

/-- A training event names one of the eight steps, or lanes of nine (10 Table 10.2). -/
def TrainEvent.fits (e : TrainEvent) : Bool := match e with
  | .stepDone n => decide (1 ≤ n) && decide (n ≤ 8)
  | .stepFailed n => decide (1 ≤ n) && decide (n ≤ 8)
  | .goodLanes tx rx => decide (tx < 512) && decide (rx < 512)
  | .identity id => id.fits

/-- Straps of two bits each (12 Table 12.5). -/
def Straps.fits (t : Straps) : Bool :=
  decide (t.xc < 4) && decide (t.yc < 4) && decide (t.zc < 4) && decide (t.xd < 4) && decide (t.yd < 4) && decide (t.zd < 4)

/-- A port's groups: 64 of 32 data lanes with two spares (08 Table 8.5, R233). -/
def HbmFind.fits (f : HbmFind) : Bool := decide (f.faulty.length ≤ 64) && f.faulty.all fun x => decide (x.1 ≤ 32) && decide (x.2 ≤ 2)

/-- A stage's findings: eight stacks, 144 positions, sets of 60 data lines numbered 131072 a vault (15 Table 15.4; 08 R210, R230). -/
def StageResult.fits (r : StageResult) : Bool :=
  decide (r.supplyOk < 2 ^ 14) && decide (r.hbm.length ≤ 8) && r.hbm.all HbmFind.fits && decide (r.stackIds.length ≤ 8)
    && r.selfTestFailed.all (fun i => decide (i < 144)) && decide (r.farMiscompare < 256)
    && r.nearRetired.all (fun x => decide (x.1 < 144 * 131072) && decide (x.2 < 60)) && r.nearDead.all (fun x => decide (x.1 < 144) && decide (x.2 < 131072))

def PortName.fits (p : PortName) : Bool := match p with
  | .compute m => decide (m < 8)
  | .host => true
  | .hbm k => decide (k < 8)
  | .peer k => decide (k < 6)

/-- A source with its traffic class (11 R304). -/
def Source.fits (s : Source) : Bool := match s with
  | .host tc => decide (tc < 4)
  | .forwarded => true
  | .controller => true

/-- A CTRL message for a queue: its TYPE, its QUEUE, and the bits of its control word (03 Tables 3.2, 3.16). -/
def CtrlRoute.fits (r : CtrlRoute) (q : Nat) (word : Nat → Bool) : Bool := match r with
  | .register => true
  | .message w0 _ b => w0.toNat % 16 == 3 && w0.toNat / 16 % 16 == q && decide (b.length ≤ 1016) && word (b.getD 0 0).toNat

/-- A place of the management space (00 R9). -/
def regPlace (offset : Nat) : Bool := decide (offset < 2 ^ 26)

/-- Whether the operands of a command lie in their ranges. -/
def Instr.wf (i : Instr) : Bool := match i with
  | .nop => true
  | .lkPool => true
  | .gsScatter => true
  | .meridian => true
  | .gzDefine => true
  | .gzSwitch => true
  | .gzDrop => true
  | .gzRowmode => true
  | .gzRowput => true
  | .memCopy => true
  | .rowExport => true
  | .rowImport => true
  | .cmdMessage _ _ b => decide (b.length ≤ 1016)
  | .dataMessage _ _ b => decide (b.length ≤ 1016)
  | .creditMessage _ _ b => decide (b.length ≤ 1016)
  | .opIssue => true
  | .opComplete => true
  | .resultBankWait => true
  | .portTimeout q => decide (q < 16)
  | .streamGap q => decide (q < 16)
  | .abort r q seq => decide (q < 16) && decide (seq < 2 ^ 48) && r.fits q fun w => w.testBit 2 && w / 2 ^ 16 == seq
  | .stop r q => decide (q < 16) && r.fits q fun w => w.testBit 0 && !w.testBit 2
  | .restart r => decide (r.queue < 16) && r.route.fits r.queue fun w => !w.testBit 0 && !w.testBit 2
  | .tagGrant _ => true
  | .tileDispatch => true
  | .rowReq k p => onPort k p
  | .partReq k p => onPort k p
  | .rowRsp k p => onPort k p
  | .partRsp k p => onPort k p
  | .farReadComplete (.far t) _ => decide (t < 2 ^ 18)
  | .farReadComplete (.near c x l g) _ => decide (c < 144) && decide (x < 131072) && decide (l < 64) && decide (g < 32)
  | .farReadComplete (.victim i) _ => decide (i < 262144)
  | .farReadComplete (.prefetch i) _ => decide (i < 524288)
  | .error k p => onPort k p
  | .winRead k p => onPort k p
  | .winWrite k p => onPort k p
  | .winData k p => onPort k p
  | .winAck k p => onPort k p
  | .gradRec k p => onPort k p
  | .packetForward k p => onPort k p
  | .addHoldExpire k => decide (k < 6)
  | .mark1 k p => onPort k p
  | .mark2 k p => onPort k p
  | .meridianPhase1End j => decide (j < 16)
  | .meridianBegin j => decide (j < 16)
  | .updateWriteAck l => decide (l < 131072)
  | .meridianComplete j => decide (j < 16)
  | .refresh k p => onPort k p
  | .refreshMark k p => onPort k p
  | .withdraw k p => onPort k p
  | .purge k p => onPort k p
  | .ack k p => onPort k p
  | .orderedAckTimer b c => decide (b < 64) && (c == 3 || c == 4)
  | .release k p => onPort k p
  | .versionRelease j t v => decide (j < 16) && decide (t < 4096) && decide (v < 65536)
  | .handoff k p => onPort k p
  | .handoffTimeout k => decide (k < 6)
  | .migStart => true
  | .migCancel => true
  | .migData k p => onPort k p
  | .migAck k p => onPort k p
  | .migReady k p => onPort k p
  | .query k p => onPort k p
  | .reply k p => onPort k p
  | .set k p => onPort k p
  | .regRead k p => onPort k p
  | .regWrite k p => onPort k p
  | .regRsp k p => onPort k p
  | .fwdTimeout id => decide (id < 65536)
  | .event k p => onPort k p
  | .eventRepeat => true
  | .flitReceive k _ b c _ => decide (k < 6) && decide (b.length = 116) && decide (c < 2 ^ 32)
  | .linkAckTimer k => decide (k < 6)
  | .linkStateRecord k b r st w _ => decide (k < 6) && decide (b < 64) && decide (r < 6) && decide (st < 7) && decide (w ≤ 8)
  | .compassInstall => true
  | .compassGenExpire g => decide (g < 256)
  | .lostTimeout b => decide (b < 64)
  | .portTrainingStep k e => decide (k < 6) && e.fits
  | .portRetrainTrigger k _ => decide (k < 6)
  | .fastRetrainEnd k t r => decide (k < 6) && decide (t < 512) && decide (r < 512)
  | .bgRetrain k => decide (k < 6)
  | .lnkRetrain k => decide (k < 6)
  | .lnkDisable k => decide (k < 6)
  | .lnkEnable k => decide (k < 6)
  | .tlbWalk c x va _ w => decide (c < 299) && decide (x < if w then 16 else 64) && decide (va < 2 ^ 57)
  | .fqRetry i g => decide (i < 4096) && decide (g < 65536)
  | .fqFatal i g => decide (i < 4096) && decide (g < 65536)
  | .faultTimeout i => decide (i < 4096)
  | .invContext c _ q => decide (c < 64) && decide (q < 2 ^ 48)
  | .invRange c _ q => decide (c < 64) && decide (q < 2 ^ 48)
  | .invComplete => true
  | .rootWrite w i _ => decide (i < if w then 16 else 64)
  | .load => true
  | .unload => true
  | .discardLedger => true
  | .hotDecay => true
  | .contourDecay => true
  | .pinLoad k => decide (k < 16)
  | .hbmPortFailed k _ => decide (k < 8)
  | .hostMgmtRequest tc _ a w _ => decide (tc < 4) && decide (a < 2 ^ 64) && decide (1 ≤ w) && decide (w ≤ 4096)
  | .hostWindowRequest tc w a n d => decide (tc < 4) && decide (a < 2 ^ 64) && decide (1 ≤ n) && decide (n ≤ 4096) && (!w || d.length == n)
  | .remoteTimeout t => decide (t < 2 ^ 18)
  | .hstWinCfgWrite _ => true
  | .hostCompletion t _ _ => decide (t < 16384)
  | .cplTimeout t => decide (t < 16384)
  | .hostPortRetrain => true
  | .hstRetrain => true
  | .hostRetrainDone => true
  | .retrainLimit => true
  | .hostLost _ => true
  | .hstRstRelease => true
  | .hostModuleTrained => true
  | .resume => true
  | .cptModuleDetect m => decide (m < 8)
  | .cptModuleUp m => decide (m < 8)
  | .cptModuleExclude m => decide (m < 8)
  | .cptModuleDown m => decide (m < 8)
  | .cptPartnerLost _ => true
  | .cptPrstRelease => true
  | .retrainMask m => decide (m < 256)
  | .pwrGoodFall => true
  | .pwrGoodRise => true
  | .blkRstAssert => true
  | .blkRstRelease t => t.fits
  | .clockLoss c => decide (c < 17)
  | .clockRecover c => decide (c < 17)
  | .thermalLoop l => decide (l.length = 4)
  | .powerLoop _ => true
  | .fastLimit _ => true
  | .paceMeter l => decide (l.length = 4)
  | .railFault k => decide (k < 14)
  | .thermalTrip => true
  | .thermalTripExit => true
  | .pwrLatencyWrite _ => true
  | .napEntry => true
  | .napWake _ => true
  | .deepEntry => true
  | .deepHandoffTimeout k => decide (k < 6)
  | .deepWake c => decide (c < 8)
  | .coreFence c k => decide (c < 144) && decide (k ≤ 2)
  | .engineStall c => decide (c < 144)
  | .fenceCoreCmd c => decide (c < 256)
  | .clusterReset c _ => decide (c < 16)
  | .partitionReset p => decide (p < 4)
  | .spareSelftestDone i _ => decide (i < 144)
  | .resetScopeEnd l => l.all fun i => decide (i < 144)
  | .stageEnd r => r.fits
  | .fullNext => true
  | .clearField => true
  | .check => true
  | .apply => true
  | .applyCommit => true
  | .discard => true
  | .update => true
  | .fwUpdateDone => true
  | .snap => true
  | .snapComplete => true
  | .cntPmselWrite i _ => decide (i < 8)
  | .cntFlagSumWrite _ => true
  | .debugEn _ => true
  | .capture => true
  | .captureDone => true
  | .nmRead => true
  | .regAccessWrite s o w _ => s.fits && regPlace o && decide (1 ≤ w) && decide (w ≤ 4096)
  | .badMessage _ _ b => decide (b.length ≤ 1016)
  | .unsupportedRequest (.badTlp (some tc)) a _ => decide (tc < 4) && decide (a < 2 ^ 64)
  | .unsupportedRequest (.unsupported (some tc)) a _ => decide (tc < 4) && decide (a < 2 ^ 64)
  | .unsupportedRequest _ a _ => decide (a < 2 ^ 64)
  | .registerRead s o w => s.fits && regPlace o && decide (1 ≤ w) && decide (w ≤ 4096)
  | .vinRise => true
  | .vinRemoval => true
  | .temperatureReading i _ => decide (i < 589)
  | .instrumentAccess _ p i _ => p.fits && decide (i < 144)

end Sys2Proof
end

