-- ==== Sys2Proof/Safety.lean ====
section
/-! DEFINITION. What counts as a safe run: a step that answers a next state, a queue of well-formed commands, supplies and reset in order, and memory in its one canonical form; and the words in which the statements speak of a command's effect. -/

namespace Sys2Proof.Machine

/-- Keys strictly rise from a bound on. -/
def risingFrom {α : Type} (lo : Nat) : List (Nat × α) → Bool
  | [] => true
  | x :: r => decide (lo ≤ x.1) && risingFrom (x.1 + 1) r

/-- Addresses strictly rise: every byte that has been written is listed once. What an unlisted address reads as is free, so that no cell is known to equal it (log 3). -/
def Memory.wf (m : List Host.Cell) : Bool := risingFrom 0 m

/-- Staging of a column between two terms: at most fifteen terms since the last promotion, each of 16 bits (05 R129). -/
def ColAcc.InStep (a : ColAcc) : Prop := a.steps ≤ 15 ∧ a.stage.toInt.natAbs ≤ a.steps * 2 ^ 15

/-- A read within the block that finds no error, or finds one where the block holds nothing (08 R217, R228). -/
def ReadsNothingWrong (s : State) (r : MemRead) (ecc : Ecc) : Prop := match r with
  | .far _ => False
  | .near core _ _ _ => ecc ≠ .uncorrectable ∨ enabled s core = false ∨ (posOf s core).isolated = true
  | .victim i => ecc ≠ .uncorrectable ∨ s.victim.length ≤ i
  | .prefetch i => ecc ≠ .uncorrectable ∨ ∀ p, s.prefetched[i]? = some p → p.usable = false

/-! ### A command's answer -/

/-- A command answers a next state with a property. -/
def Answers (i : Instr) (s : State) (P : State → Prop) : Prop := ∃ t, exec i s = .next t ∧ P t

/-- Whether an outcome is a next state. -/
def Completes (o : Host.Outcome State Fault Refusal) : Prop := ∃ t, o = .next t

/-- What a command that brings a block that is up from s to t leaves: t, with the queue and the inputs of s, and an EVENT for the root where the management interrupt has risen (10 R291). -/
def outcome (s t : State) : State := holdInputs s (raiseEvent s t)

/-- The same, once everything that can go on has gone on. -/
def after (s t : State) : State := outcome s (settle t)

/-- The commands that also reach a block that is not up: its pins, supplies, clocks, sensors, instruments, and the comparators that end DEEP. -/
def reachesReset (i : Instr) : Bool := match i with
  | .hostLost _ => true
  | .hstRstRelease => true
  | .cptPartnerLost _ => true
  | .cptPrstRelease => true
  | .pwrGoodFall => true
  | .pwrGoodRise => true
  | .blkRstAssert => true
  | .blkRstRelease _ => true
  | .clockLoss _ => true
  | .clockRecover _ => true
  | .railFault _ => true
  | .deepWake _ => true
  | .vinRise => true
  | .vinRemoval => true
  | .temperatureReading _ _ => true
  | .thermalTrip => true
  | .thermalTripExit => true
  | .instrumentAccess _ _ _ _ => true
  | _ => false

/-- The commands that may change the supplies, block reset or the straps. -/
def changesSupplies (i : Instr) : Bool := match i with
  | .pwrGoodFall => true
  | .pwrGoodRise => true
  | .blkRstAssert => true
  | .blkRstRelease _ => true
  | .railFault _ => true
  | .vinRise => true
  | .vinRemoval => true
  | _ => false

/-! ### Standing conditions -/

/-- Nothing is in progress that could go on by itself: no operation, no wait for a key, no host access, no meridian, no migration, no version, no packet that waits or is being sent, no entry into DEEP. -/
structure Quiet (s : State) : Prop where
  ops : s.ops = []
  keyPend : s.keyPend = []
  hreads : s.hreads = []
  hostHeld : s.hostHeld = []
  mers : ∀ j, (job s j).mer = none
  migHeld : s.migHeld = []
  mig : s.mig = none
  gaz : s.gaz = []
  sendQ : s.sendQ = []
  holds : s.holds = []
  ports : ∀ k, ∀ e ∈ (port s k).replay, e.open_ = false
  kept : s.kept = []
  deep : s.pmode ≠ 3

/-- The block is up and ready, and neither in NAP nor entering DEEP (15 R399). -/
def Working (s : State) : Bool := s.up && ready s && s.pmode == 0

/-- A numbered message for a running queue, next in its stream, with no other one waiting for its place (03 R57, R58). -/
structure MessageNext (s : State) (w0 w1 : Word) (q : Nat) : Prop where
  up : s.up = true
  mode : s.pmode = 0
  port : pstate s = 1
  carries : (txModule s).isNone = false
  number : wbits w0 4 4 = q
  running : (queue s q).state = 1
  place : wbits w1 32 32 = (queue s q).rxNext % 2 ^ 32
  early : (queue s q).early = []

/-- What the arrival of a message counts (17 Table 17.4). -/
def received (w0 : Word) (s : State) : State := pmc PMC.cptRx none (txModule s) none (wbits w0 8 7) s

/-- The running operation of an opcode whose work is due, its job not held. -/
structure WorkDue (s : State) (code : Nat) (o : Op) : Prop where
  up : s.up = true
  runs : running s = some o
  code : o.opcode = code
  due : o.effectDue = true
  live : o.endNow = false
  free : jobHeld s o.queue = false

/-- A packet of a kind has come out of a receive buffer of a block that is neither in NAP nor entering DEEP, for this block and in due form (10 R277 to R279). -/
structure PacketHere (kind port : Nat) (p : Packet) (s : State) : Prop where
  up : s.up = true
  mode : s.pmode = 0
  here : forHere kind port p s = true
  flows : partReset s (portPart port) = false
  form : badPacket (leaveBuffer port p s) p = false

/-- Such a packet of an unordered class. -/
structure FreePacket (kind port : Nat) (p : Packet) (s : State) : Prop extends PacketHere kind port p s where
  cls : ordered p.cls = false

/-- Such a packet of an ordered class, next in its stream (10 R285). -/
structure NextPacket (kind port : Nat) (p : Packet) (s : State) : Prop extends PacketHere kind port p s where
  cls : ordered p.cls = true
  next : p.eseq = (ostream (leaveBuffer port p s) p.src p.cls).rx % 2 ^ 32

/-- The stream of a packet that is delivered in its order counts it (10 R285). -/
def counted (port : Nat) (p : Packet) (s : State) : State :=
  let t := leaveBuffer port p s
  let o := ostream t p.src p.cls
  setOStream p.src p.cls { o with rx := o.rx + 1, owed := o.owed + 1 } t

/-- What follows on its stream: early packets that are now next are delivered, and the sixteenth one owed is acknowledged. -/
def streamOn (p : Packet) (s : State) : State :=
  let s := drainStream p.src p.cls (ostream s p.src p.cls).early.length s
  if 16 ≤ (ostream s p.src p.cls).owed then sendStreamAck p.src p.cls s else s

/-- The host port in service, a block that is awake, no request of the host that waits, and the host port's partition not in reset. -/
def HostServes (s : State) : Prop := s.up = true ∧ s.pmode = 0 ∧ lstate s = LS.up ∧ s.hostHeld = [] ∧ partReset s hostPart = false

/-- Every command that waits is well formed. -/
def PendingFits (s : State) : Prop := ∀ c ∈ s.pending, c.wf = true

/-- The block is powered only from a good supply, and is in block reset while it is not powered (12 R326, R329). -/
def Supplied (s : State) : Prop := (s.powered = true → s.vin = true ∧ s.pwrGood = true) ∧ (s.powered = false → s.blkRst = true)

/-- The block's place: coordinates below 4, sizes from 1 to 4 (12 Table 12.5). -/
def Placed (s : State) : Prop :=
  s.straps.xc < 4 ∧ s.straps.yc < 4 ∧ s.straps.zc < 4 ∧ 1 ≤ s.straps.xd ∧ s.straps.xd ≤ 4 ∧ 1 ≤ s.straps.yd ∧ s.straps.yd ≤ 4
    ∧ 1 ≤ s.straps.zd ∧ s.straps.zd ≤ 4

/-- The state after reset, with what outlives block reset and DEEP taken from s: its surroundings, the always-on island, the error log and the nonvolatile store, far memory with what the block keeps there, its pins and its sensors (14 R376, R377, Table 14.5; 13 R362). -/
def bare (s : State) : State :=
  { State.reset with
    pending := s.pending, fresh := s.fresh, out := s.out, regs := s.regs, aon := s.aon, vin := s.vin, pwrGood := s.pwrGood, blkRst := s.blkRst
    hstRst := s.hstRst, cptPrst := s.cptPrst, rstHigh := s.rstHigh, released := s.released, hbmReleased := s.hbmReleased, selfRefresh := s.selfRefresh
    straps := s.straps, clocksBad := s.clocksBad, powered := s.powered, pmode := s.pmode, temps := s.temps, page := s.page, journal := s.journal
    factory := s.factory, fieldRepair := s.fieldRepair, repairList := s.repairList, fwSlots := s.fwSlots, fwRun := s.fwRun, fwPref := s.fwPref
    elog := s.elog, gaz := s.gaz, far := s.far, farGen := s.farGen, lineKey := s.lineKey, ueLines := s.ueLines, ledger := s.ledger
    privKey := s.privKey, jobs := s.jobs, stores := s.stores, tap := s.tap }

/-- A block without work, keys, near memory, translations, port state or registers other than the island's, the pins' and TRIP: everything but what outlives it stands as after reset (14 R377, Table 14.5; 13 Table 13.7). -/
structure Cleared (s : State) : Prop where
  regs : ∀ x ∈ s.regs, x.1 ∈ islandRegs ∨ x.1 = R.NM_TEMP
  rest : s = bare s

/-- What holds of every state a run reaches: well-formed commands wait, the supplies are in order, the straps are in range, and block reset has nothing in progress. -/
structure Sound (s : State) : Prop where
  pending : PendingFits s
  supplied : Supplied s
  placed : Placed s
  reset : s.blkRst = true → Cleared s ∧ s.pmode = 0

/-- What outlives block reset: far memory with what the block keeps there, the nonvolatile store, the always-on time, and what its supplies and surroundings hold (14 Table 14.5). -/
def Outlives (s t : State) : Prop :=
  t.far = s.far ∧ t.farGen = s.farGen ∧ t.lineKey = s.lineKey ∧ t.ueLines = s.ueLines ∧ t.ledger = s.ledger ∧ t.gaz = s.gaz ∧ t.stores = s.stores
    ∧ t.journal = s.journal ∧ t.page = s.page ∧ t.factory = s.factory ∧ t.fieldRepair = s.fieldRepair ∧ t.repairList = s.repairList
    ∧ t.privKey = s.privKey ∧ t.aon = s.aon

end Sys2Proof.Machine
end

