-- ==== Sys2Proof/Certificates/Slice0/Obligations.lean ====
section
/-! DEFINITION. The statements for the provers. -/

open Sys2Proof Sys2Proof.Machine

/-! ### The whole machine -/

/-- A step takes the command at the front of the queue and runs exec on it, with the queue's rest. -/
def Obligations.StepRunsFrontCommand : Prop :=
  ∀ (c : Instr) (rest : List Instr) (s : State), s.pending = c :: rest →
    step s = exec c { s with pending := rest } ∧ Sys2Proof.core.step s = exec c { s with pending := rest }

/-- On an empty queue one tick of always-on time passes: 40 ns on a powered block, nothing on one without power. A release of block reset that came in the first millisecond takes effect at its end. What a tick does beyond time on a block that is up is the model's choice (logs 5, 92). -/
def Obligations.EmptyQueueLetsTimePass : Prop :=
  ∀ s : State, s.pending = [] →
    (s.up = false → s.released = none → step s = .next (if s.powered then { s with aon := s.aon + 40 } else s))
    ∧ (s.up = true → step s = .next (holdInputs s (modeStep (migPump (pumpLinks (idleFlits (tickCounters (cptAck (hostAck (rampVolts { s with aon := s.aon + 40 }))))))))))
    ∧ (∀ st, s.powered = true → s.blkRst = true → s.released = some st →
      (s.aon + 40 < 1000000 → step s = .next { s with aon := s.aon + 40 })
      ∧ (1000000 ≤ s.aon + 40 → ∃ t, step s = .next t ∧ t.blkRst = false ∧ t.straps = sampleStraps st))

/-- No command stops the block or is refused, and none touches the queue. That a command whose conditions are not met answers a next state too, in which it has no effect, is the model's choice (log 1). -/
def Obligations.EveryCommandAnswersAndKeepsQueue : Prop :=
  ∀ (c : Instr) (s : State), Answers c s fun t => t.pending = s.pending

/-- The supplies, block reset and the straps change by their own commands and by supply faults alone (12 R329, R331; 13 R349). -/
def Obligations.OnlySupplyCommandsChangeSupplies : Prop :=
  ∀ (c : Instr) (s t : State), changesSupplies c = false → exec c s = .next t →
    t.vin = s.vin ∧ t.pwrGood = s.pwrGood ∧ t.powered = s.powered ∧ t.blkRst = s.blkRst ∧ t.straps = s.straps

/-- A block without power, in block reset or in DEEP takes no command but those of its pins, supplies, clocks, sensors, instruments and comparators (the model's reading, logs 1 and 93). -/
def Obligations.BlockThatIsDownIgnoresCommands : Prop :=
  ∀ (c : Instr) (s : State), reachesReset c = false → s.up = false → exec c s = .next s

/-- The state after reset is sound (what reset holds where the manual gives no value is the model's choice, log 4). -/
def Obligations.ResetStateSound : Prop := Sound State.reset ∧ Memory.wf State.reset.far = true

/-- Every step keeps a state sound: well-formed commands wait, power comes from a good supply only, a block without power is in reset, the straps stay in range, and in block reset no work, key, translation, link state or register outside the island and TRIP is left (14 R376, R377; logs 25, 48 and 93 say what the model leaves). -/
def Obligations.EveryStepKeepsSound : Prop := ∀ s t : State, Sound s → step s = .next t → Sound t

/-- A block other than its root sends the root an EVENT packet, on the ordered CTRL stream, when its management interrupt rises, and again at the repeat while the interrupt stays raised; this is all a command adds to its effect. The root sets the sender's bit of LNK_EVENT_BLOCKS, an interrupt source of its own (10 R291). -/
def Obligations.EventsReachTheRoot : Prop :=
  (∀ s t : State, s.up = true → t.up = true →
      (reports t = true → interrupt s = false → interrupt t = true →
        let old := ostream t (rootBlock t) CL.ctrl
        let new := ostream (raiseEvent s t) (rootBlock t) CL.ctrl
        raiseEvent s t = queueEvent t ∧ outcome s t = holdInputs s (queueEvent t)
        ∧ (raiseEvent s t).ostreams = mput (rootBlock t * 8 + CL.ctrl) new t.ostreams ∧ new.tx = old.tx + 1
        ∧ (∃ p : Packet, p.kind = K.event ∧ p.src = self t ∧ p.dest = rootBlock t ∧ p.cls = CL.ctrl ∧ p.body = [] ∧ p.eseq = old.tx % 2 ^ 32
          ∧ new = if old.waiting.isEmpty && streamRoom old p then { old with tx := old.tx + 1, unacked := old.unacked ++ [(old.tx, p)] }
                  else { old with tx := old.tx + 1, waiting := old.waiting ++ [(old.tx, p)] })
        ∧ (raiseEvent s t).regs = t.regs ∧ (raiseEvent s t).far = t.far ∧ (raiseEvent s t).ops = t.ops)
      ∧ (reports t = false ∨ interrupt s = true ∨ interrupt t = false → outcome s t = holdInputs s t))
  ∧ (∀ s : State, reports s = true ↔ fbit s R.LNK_CFG F.LNK_CFG_FWD_EVENTS = true ∧ rootBlock s ≠ self s)
  ∧ (∀ s : State, s.up = true → reports s = true → interrupt s = true → exec .eventRepeat s = .next (outcome s (sendPacket (rootBlock s) CL.ctrl K.event 0 [] s)))
  ∧ (∀ s : State, s.up = true → (reports s = false ∨ interrupt s = false) → exec .eventRepeat s = .next (outcome s s))
  ∧ (∀ (s : State) (p : Packet), rootBlock s = self s → p.src < 64 →
      wbit (rget (recvEvent p s) R.LNK_EVENT_BLOCKS) p.src = true
      ∧ (wbit (rget s R.MG_INT_MASK) 6 = true → interrupt (recvEvent p s) = true)
      ∧ ∀ o, o ≠ R.LNK_EVENT_BLOCKS → rget (recvEvent p s) o = rget s o)

/-! ### Supplies, pins and block reset -/

/-- Block reset, whether by its pin or by a supply other than a partition's or VAON, leaves nothing of the block's work, its keys and its registers, and all of what outlives it (14 R376, R377, R387; 13 R349; that unacknowledged units were never released, and that a supply fault and the fall of PWR_GOOD bring the same reset, is the model's reading, logs 25 and 48). -/
def Obligations.BlockResetLeavesOnlyWhatOutlivesIt : Prop :=
  ∀ s : State,
    (s.powered = true → s.blkRst = false → Answers .blkRstAssert s fun t =>
      t.blkRst = true ∧ t.powered = true ∧ t.pmode = 0 ∧ Cleared t ∧ Outlives s t
        ∧ (rget t R.MG_ELOG_COUNT).toNat = ((rget s R.MG_ELOG_COUNT).toNat + 1) % 2 ^ 64)
    ∧ (∀ k, 8 ≤ k → k < 13 → s.up = true → Answers (.railFault k) s fun t =>
      t.blkRst = true ∧ t.powered = true ∧ t.pmode = 0 ∧ Cleared t ∧ Outlives s t)
    ∧ (s.up = true → Answers (.railFault 13) s fun t => t.blkRst = true ∧ t.powered = false ∧ t.pmode = 0 ∧ Cleared t ∧ Outlives s t)
    ∧ (s.powered = true → s.blkRst = false → Answers .pwrGoodFall s fun t =>
      t.blkRst = true ∧ t.powered = false ∧ t.pwrGood = false ∧ t.pmode = 0 ∧ Cleared t ∧ Outlives s t)

/-- The supplies and the release of block reset. A release takes effect no earlier than 1 ms after power-good rises; one found high at the rise is as though made then; one made or undone without power is remembered as the level of the pin (12 R323, R326, R329, R330, R336; 13 R362; 07 R202; 14 R387; 15 R396). -/
def Obligations.SuppliesAndResetRelease : Prop :=
  ∀ s : State,
    (s.pwrGood = false → s.vin = true → exec .pwrGoodRise s =
      .next { s with pwrGood := true, powered := true, blkRst := true, released := s.rstHigh, aon := 0, energy := 0, elog := [], regs := [], temps := [] })
    ∧ (∀ st, s.powered = true → s.blkRst = true → s.aon < 1000000 → exec (.blkRstRelease st) s = .next { s with rstHigh := some st, released := some st })
    ∧ (∀ st, s.powered = false → exec (.blkRstRelease st) s = .next { s with rstHigh := some st })
    ∧ ((s.powered = false ∨ s.blkRst = true) → exec .blkRstAssert s = .next { s with rstHigh := none, released := none })
    ∧ (∀ st, s.powered = true → s.blkRst = true → 1000000 ≤ s.aon → Answers (.blkRstRelease st) s fun t =>
      t.blkRst = false ∧ t.stage = 1 ∧ t.startMode = 0
        ∧ t.straps = { xc := st.xc % 4, yc := st.yc % 4, zc := st.zc % 4, xd := st.xd % 4 + 1, yd := st.yd % 4 + 1, zd := st.zd % 4 + 1, host := st.host }
        ∧ t.far = s.far ∧ t.ledger = s.ledger ∧ t.journal = s.journal ∧ t.page = s.page ∧ ∀ o, o ≠ R.SRV_REPORTk_Ww 1 0 → rget t o = rget s o)
    ∧ (s.vin = false → exec .vinRise s = .next { s with vin := true, hbmReleased := 0, selfRefresh := 0 })
    ∧ (s.vin = true → Answers .vinRemoval s fun t =>
      t.vin = false ∧ t.pwrGood = false ∧ t.powered = false ∧ t.far = [] ∧ t.farGen = s.farGen + 1 ∧ t.ledger = [] ∧ t.journal = [] ∧ t.page = []
        ∧ t.gaz = [] ∧ t.hbmReleased = 0 ∧ t.factory = s.factory ∧ t.fieldRepair = s.fieldRepair ∧ t.repairList = s.repairList)

/-- Reference clocks, temperatures and the failure of an HBM port; a fault of a partition's supply, the pace meters and the thermal trip. In reset the sensors go on, and with them TRIP (08 R236, R237; 12 R323, R328, R333, R336; 13 R342, R349; the states of the modules at the recovery of their clock, the trip by the vaults' sensors alone and TRIP in reset are the model's reading, logs 24, 49 and 93). -/
def Obligations.ClocksSensorsTripsAndSupplies : Prop :=
  (∀ s : State, s.up = true →
      (∀ c, c < 17 → clockBad s c = false →
        exec (.clockLoss c) s = .next (outcome s (clockEffect c (elog 0x0A EU.clock c c 0 0
          (bump1 R.CNT_CLK_LOSS { s with clocksBad := maskSet s.clocksBad (clockBit c) })))))
      ∧ (∀ c, c < 17 → c ≠ 1 → clockBad s c = true →
        exec (.clockRecover c) s = .next (outcome s { s with clocksBad := maskClear s.clocksBad (clockBit c) }))
      ∧ (clockBad s 1 = true → exec (.clockRecover 1) s = .next (outcome s { s with
          clocksBad := maskClear s.clocksBad 15
          cptMods := s.cptMods.map fun m => if m == CM.training || m == CM.again then CM.down else m }))
      ∧ (∀ n c, exec (.temperatureReading n c) s = .next (outcome s (warnCheck { s with temps := mput n c s.temps })))
      ∧ (∀ k crc, k < 8 → hbmFailed s k = false → Answers (.hbmPortFailed k crc) s fun t =>
          hbmFailed t k = true ∧ fbit t (R.HBM_Pk_STATUS k) F.HBM_Pk_STATUS_TRAINED = false ∧ wbit (rget t R.MG_ERR_STATUS) 1 = true ∧ t.far = s.far))
  ∧ (∀ (s : State) (n : Nat) (c : Int), s.up = false → islandLive s = true → s.pmode ≠ 2 → Answers (.temperatureReading n c) s fun t =>
      t.temps = mput n c s.temps ∧ (anyTrip t = true → tripped t = true) ∧ (tripOver t = true → tripped t = false)
        ∧ (anyTrip t = false → tripOver t = false → tripped t = tripped s) ∧ t.far = s.far ∧ t.aon = s.aon)
  ∧ (∀ s : State, s.up = true →
      (tripped s = false → anyTrip s = true → Answers .thermalTrip s fun t =>
        tripped t = true ∧ wbit (rget t R.NM_STATUS) 3 = true ∧ wbit (rget t R.MG_ERR_STATUS) 0 = true ∧ t.ops = s.ops ∧ t.far = s.far)
      ∧ (tripped s = true → tripOver s = true → exec .thermalTripExit s = .next (outcome s (fset R.NM_TEMP F.NM_TEMP_TRIP 0 s)))
      ∧ (∀ counts, s.pmode ≠ 1 → Answers (.paceMeter counts) s fun t =>
        (∀ p, p < 4 → wbits (rget t R.PWR_PACE) (16 * p) 16 = min (counts.getD p 0 / 10) 65535) ∧ t.ops = s.ops ∧ t.far = s.far)
      ∧ (∀ k, k < 8 → exec (.railFault k) s = .next (outcome s (resetScope true (k % 4) 2
          (errBit 2 (setBitFor R.PWR_STATUS 5 6 (k % 4) (elog 0x09 EU.supply k k 0 0 (bump1 R.CNT_PWR_RAIL_FAULT s))))))))

/-! ### Power loops and power states -/

/-- The thermal loop of every partition: its target falls by 10 mV, to 550 mV at the least, while a DRAM reading is at 95 °C or a base-die reading at 105 °C, rises by 10 mV, to VSET at the most, when they are at most 92 °C and 102 °C, and stays otherwise; each lowering sets THERMAL, a target at 550 mV sets FLOOR, and a period with a target below its VSET is counted (13 R351; that the period is counted by the targets after its update is the model's reading, log 49). -/
def Obligations.ThermalLoopMovesEveryTarget : Prop :=
  ∀ (s : State) (base : List Int), s.up = true → s.therm.length = 4 → Answers (.thermalLoop base) s fun t =>
    let hot := fun (p : Nat) => 95 ≤ dramMax s p ∨ 105 ≤ base.getD p 0
    (∀ p, p < 4 → t.therm.getD p 0 =
        (if 95 ≤ dramMax s p ∨ 105 ≤ base.getD p 0 then max 550 (s.therm.getD p 0 - 10)
         else if dramMax s p ≤ 92 ∧ base.getD p 0 ≤ 102 then min (vsetMv s p) (s.therm.getD p 0 + 10)
         else s.therm.getD p 0))
    ∧ (∀ p, p < 4 → hot p → t.therm.getD p 0 < s.therm.getD p 0 → wbit (rget t R.PWR_STATUS) 0 = true)
    ∧ (∀ p, p < 4 → hot p → t.therm.getD p 0 = 550 → wbit (rget t R.PWR_STATUS) 3 = true)
    ∧ rget t R.CNT_PWR_THERM_US =
        (if ∃ p < 4, t.therm.getD p 0 < vsetMv s p then word (min (2 ^ 64 - 1) ((rget s R.CNT_PWR_THERM_US).toNat + 1)) else rget s R.CNT_PWR_THERM_US)
    ∧ t.far = s.far ∧ t.ops = s.ops ∧ t.pwrCeil = s.pwrCeil

/-- The power loop moves the block's ceiling by 10 mV and the fast limiter drops it at once; the limiter's regulators then move at 50 mV per µs (13 R352; that IIN is a free value is the model's reading, log 27). -/
def Obligations.PowerLoopAndLimiterMoveTheCeiling : Prop :=
  ∀ s : State, s.up = true →
    (∀ watts, Answers (.powerLoop watts) s fun t =>
      t.pwrCeil = (if fget s R.PWR_LIMIT F.PWR_LIMIT_LIMIT < watts then max 550 (s.pwrCeil - 10)
                   else if 100 * watts ≤ 95 * fget s R.PWR_LIMIT F.PWR_LIMIT_LIMIT then min 900 (s.pwrCeil + 10) else s.pwrCeil)
      ∧ (fget s R.PWR_LIMIT F.PWR_LIMIT_LIMIT < watts → t.pwrCeil < s.pwrCeil → wbit (rget t R.PWR_STATUS) 1 = true)
      ∧ t.therm = s.therm ∧ t.far = s.far ∧ t.ops = s.ops)
    ∧ (∀ amps, 380 < amps → exec (.fastLimit amps) s = .next (outcome s (setBit R.PWR_STATUS 2 (bump1 R.CNT_PWR_FAST_LIMIT { s with
        pwrCeil := max 550 (maxPart (fun p => s.volts.getD p 0 / 10) - 50)
        fast := true }))))
    ∧ (∀ amps, amps ≤ 380 → exec (.fastLimit amps) s = .next (outcome s s))
    ∧ (s.fast = true → 2 ≤ s.stage → s.pmode ≠ 1 → ∀ p, p < 4 → s.scopes.contains { partition := true, index := p } = false → (rampVolts s).volts.getD p 0 = rampTo 20 (s.volts.getD p 0) (10 * vtarget s p))

/-- The entry into NAP and its last step, 20 µs later, the wake from it and the abandonment of an entry, the write of the tolerance, contour halvings, VSRAM and the modules in L1. A wake leaves the voltages where they are: they rise at the rate of their regulators (13 R348, R350, R355 to R357, R361; 08 R212; the times of the steps and the wake by a write of the tolerance are the model's reading, logs 50 and 53). -/
def Obligations.NapIsEnteredInStepsAndLeftByWakes : Prop :=
  ∀ s : State, s.up = true →
    (mayNap s = true → exec .napEntry s = .next (outcome s { s with pmode := 4, modeAt := s.aon + 20000, selfRefresh := 511 }))
    ∧ (mayNap s = false → exec .napEntry s = .next (outcome s s))
    ∧ (s.pmode = 4 → s.modeAt ≤ s.aon → modeStep s = bump1 R.CNT_PWR_NAP (rset R.PWR_PACE 0 { s with pmode := 1, volts := List.replicate 4 5000 }))
    ∧ (s.pmode = 4 → s.aon < s.modeAt → modeStep s = s)
    ∧ (∀ ev, s.pmode = 1 → Answers (.napWake ev) s fun t =>
      t.pmode = 0 ∧ t.selfRefresh = 0 ∧ t.volts = s.volts ∧ t.contourDue = 0 ∧ t.regs = s.regs ∧ t.far = s.far ∧ t.ops = s.ops)
    ∧ (∀ ev, s.pmode = 4 → exec (.napWake ev) s = .next (outcome s (setBit R.PWR_STATUS 4 (bump1 R.CNT_PWR_ABANDON (leaveNap s)))))
    ∧ (∀ ev, s.pmode = 0 → exec (.napWake ev) s = .next (outcome s s))
    ∧ (∀ p, vsram s p = if s.pmode = 1 then 5500 else if s.volts.getD p 0 = 0 ∧ partReset s p = true then 0 else max (s.volts.getD p 0 + 500) 7000)
    ∧ ((s.pmode = 1 ∨ s.pmode = 4) → hostInL1 s = (lstate s == LS.up) ∧ ∀ m, cptInL1 s m = (modState s m == CM.up))
    ∧ (∀ w, ready s = true → s.pmode = 0 → exec (.pwrLatencyWrite w) s = .next (outcome s (rset R.PWR_LATENCY (word (w.toNat % 2 ^ 32)) s)))
    ∧ (∀ w, ready s = true → (s.pmode = 1 ∨ s.pmode = 4) → w.toNat % 2 ^ 32 < 50 → Answers (.pwrLatencyWrite w) s fun t =>
      t.pmode = 0 ∧ rget t R.PWR_LATENCY = word (w.toNat % 2 ^ 32))
    ∧ (s.pmode ≠ 1 → exec .contourDecay s = .next (outcome s (decayContours s)))
    ∧ (s.pmode = 1 → exec .contourDecay s = .next (outcome s { s with contourDue := s.contourDue + 1 }))

/-- The steps of DEEP: at the entry the journal page takes the check value of selector 0 and the ports in service are disabled; once their HANDOFFs have come the modules are disabled; 1 ms later the stacks are in self-refresh, and 1.5 ms later everything but the island, far memory and what outlives block reset is lost. An entry is abandoned at the time limit of a HANDOFF, and DEEP ends by a comparator that is enabled (13 R358 to R362; the steps taken together and the packets of the entry itself are the model's reading, logs 32 and 50). -/
def Obligations.DeepLosesAllButIslandAndFarMemory : Prop :=
  ∀ s : State,
    (s.up = true → mayDeep s = true → s.pmode = 0 →
      let ports := (List.range 6).filter fun k => portState s k == PS.up || portState s k == PS.retrain
      exec .deepEntry s = .next (outcome s (deepProgress (each ports disablePort { (if keyLoaded s 0 then recordKcv (keyCheck (keyOf s 0)) s else s) with
        pmode := 3
        deepOff := ports
        deepWait := ports }))))
    ∧ (s.pmode = 3 → s.deepWait ≠ [] → deepProgress s = s)
    ∧ (s.pmode = 3 → s.deepWait = [] →
      let t := deepProgress s
      t.pmode = 5 ∧ t.modeAt = s.aon + 1500000 ∧ lstate t = LS.down ∧ pstate t = 0 ∧ (∀ m, modState t m = CM.down) ∧ t.far = s.far ∧ t.ops = s.ops ∧ t.page = s.page)
    ∧ (s.pmode = 5 → s.aon + 500000 < s.modeAt → modeStep s = s)
    ∧ (s.pmode = 5 → s.aon < s.modeAt → s.modeAt ≤ s.aon + 500000 → modeStep s = { s with selfRefresh := s.selfRefresh ||| 255 })
    ∧ (s.pmode = 5 → s.modeAt ≤ s.aon →
      let t := modeStep s
      t.pmode = 2 ∧ Cleared t ∧ Outlives s t ∧ t.elog = s.elog ∧ t.blkRst = s.blkRst
        ∧ rget t R.PWR_DEEP_COUNT = word (min (2 ^ 64 - 1) ((rget s R.PWR_DEEP_COUNT).toNat + 1)) ∧ rget t R.PWR_WAKE_EN = rget s R.PWR_WAKE_EN)
    ∧ (∀ k, s.up = true → s.pmode = 3 → s.deepWait.contains k = true →
      exec (.deepHandoffTimeout k) s = .next (outcome s (each s.deepOff enablePort (setBit R.PWR_STATUS 4 (bump1 R.CNT_PWR_ABANDON { s with
        pmode := 0
        selfRefresh := 0
        deepOff := []
        deepWait := [] })))))
    ∧ (∀ c, c < 8 → s.pmode = 2 → s.blkRst = false → s.powered = true → comparatorMay s c = true → Answers (.deepWake c) s fun t =>
      wbit (rget t R.PWR_WAKE_STATUS) c = true ∧ t.far = s.far ∧ t.ledger = s.ledger
        ∧ (wbit (rget s R.PWR_WAKE_EN) c = true → t.pmode = 0 ∧ t.stage = 1 ∧ rget t R.PWR_STATE = word (c * 256 + 2048))
        ∧ (wbit (rget s R.PWR_WAKE_EN) c = false → t.pmode = 2 ∧ t.stage = s.stage))


/-! ### Messages of the compute port -/

/-- A CMD message in its place stages its command, which ends with VIOLATION where its data came ahead of it in breach; breaches of its length, SEQ or credit are logged and stop the queue (03 R58, R61, R77; what early DATA in breach leaves for the command is the model's reading, log 41). -/
def Obligations.CmdMessageStagesCommandOrStopsQueue : Prop :=
  ∀ (s : State) (w0 w1 : Word) (body : List Word) (q : Nat), MessageNext s w0 w1 q → wbits w0 0 4 = MT.cmd →
    1 ≤ wbits w0 8 7 → wbits w0 8 7 ≤ 64 →
    let n := 1 + wbits (body.getD 0 0) 8 3
    let seq := wbits w0 16 48
    let counted := updQueue q (fun x => { x with rxNext := x.rxNext + 1 }) (received w0 s)
    let before := mgetD seq (0, 0) (queue s q).doomed
    (wbits w0 8 7 = n → seq = (queue s q).nextSeq → (queue s q).cmdUsed + n ≤ (queue s q).cmdGrant →
      exec (.cmdMessage w0 w1 body) s = .next (after s (updQueue q (fun x => { x with
        staged := x.staged ++ [{ seq := seq, words := padWords (8 * n) (body.take (8 * n)), aborted := false, violated := before.1 != 0, vlogs := before.1, firstVlog := before.2 }]
        doomed := mdel seq x.doomed
        nextSeq := x.nextSeq + 1
        cmdUsed := x.cmdUsed + n }) counted)))
    ∧ (wbits w0 8 7 ≠ n → exec (.cmdMessage w0 w1 body) s = .next (after s (msgBreach q seq VK.cmdLength counted)))
    ∧ (wbits w0 8 7 = n → seq ≠ (queue s q).nextSeq → exec (.cmdMessage w0 w1 body) s = .next (after s (msgBreach q seq VK.seqMismatch counted)))
    ∧ (wbits w0 8 7 = n → seq = (queue s q).nextSeq → (queue s q).cmdGrant < (queue s q).cmdUsed + n →
      exec (.cmdMessage w0 w1 body) s = .next (after s (msgBreach q seq VK.queueOverrun counted)))

/-- A breach logs an entry with the message's SEQ and leaves the queue STOPPED, with nothing waiting for its place; a message of a wrong TYPE or LEN is logged, a missing one stops its queue at PORT_TIMEOUT, and an operation starved of data ends (03 R58, R67, R77, R78). -/
def Obligations.BreachesStopTheirQueueAlone : Prop :=
  (∀ (s : State) (q seq kind : Nat), q < s.queues.length →
      let t := msgBreach q seq kind s
      (queue t q).state = 2 ∧ (queue t q).early = [] ∧ (queue t q).staged = (queue s q).staged ∧ (queue t q).nextSeq = (queue s q).nextSeq
        ∧ rget t R.MG_VLOG_COUNT = word ((rget s R.MG_VLOG_COUNT).toNat + 1)
        ∧ wbit (rget t R.CMD_CPT_STATUS) 2 = true
        ∧ (∀ j, j ≠ q → queue t j = queue s j) ∧ t.ops = s.ops ∧ t.far = s.far)
  ∧ (∀ s : State, s.up = true →
      (∀ w0 w1 body, s.pmode = 0 → pstate s = 1 → (txModule s).isNone = false → wbits w0 0 4 ∉ [MT.cmd, MT.data, MT.ctrl, MT.credit] →
        exec (.badMessage w0 w1 body) s = .next (after s (vlog VK.badMessage 0 (wbits w0 4 4) (wbits w0 16 48) 0 0 (received w0 s))))
      ∧ (∀ w0 w1 body q, MessageNext s w0 w1 q → wbits w0 0 4 ∈ [MT.cmd, MT.data, MT.ctrl] → (wbits w0 8 7 = 0 ∨ 64 < wbits w0 8 7) →
        exec (.badMessage w0 w1 body) s = .next (after s (msgBreach q (wbits w0 16 48) VK.badMessage (received w0 s))))
      ∧ (∀ q, (queue s q).state = 1 → (queue s q).early ≠ [] → portTimeout s q ≠ 0 →
        exec (.streamGap q) s = .next (outcome s (msgBreach q 0 VK.streamGap s)))
      ∧ (∀ q o, running s = some o → o.queue = q → portTimeout s q ≠ 0 → o.endNow = false → (waitsData o = true ∨ o.results ≠ []) →
        o.lastIn + 1000 * portTimeout s q < s.aon →
        exec (.portTimeout q) s = .next (after s (cancelOp q o.seq (opViolation q o.seq VK.portTimeout 0 0 0 s))))
      ∧ (∀ q o, running s = some o → o.queue = q → s.aon ≤ o.lastIn + 1000 * portTimeout s q →
        exec (.portTimeout q) s = .next (after s s)))

/-- DATA for a command that is staged or yet to come goes into staging; a CREDIT message raises the result credit (03 R59; a grant below the units consumed is the model's reading, log 68). -/
def Obligations.DataIsStagedAndCreditGranted : Prop :=
  ∀ (s : State) (w0 w1 : Word) (body : List Word) (q : Nat),
    (MessageNext s w0 w1 q → wbits w0 0 4 = MT.data → 1 ≤ wbits w0 8 7 → wbits w0 8 7 ≤ 64 →
      (queue s q).dataUsed + wbits w0 8 7 ≤ (queue s q).dataGrant →
      findOp s q (wbits w0 16 48) = none → ((queue s q).nextSeq ≤ wbits w0 16 48 ∨ (queue s q).staged.any (fun c => c.seq == wbits w0 16 48) = true) →
      (mfind (wbits w0 16 48) (queue s q).data).bind (·.last) = none →
      exec (.dataMessage w0 w1 body) s = .next (after s (updQueue q (fun x => { x with
        rxNext := x.rxNext + 1
        dataUsed := x.dataUsed + wbits w0 8 7
        data := mput (wbits w0 16 48) {
          units := (dataUnits (wbits w0 8 7) (wbits w1 0 32) body).foldl (fun m y => mput y.1 y.2 m) (mgetD (wbits w0 16 48) { units := [], last := none } x.data).units
          last := if wbit w0 15 then some (wbits w1 0 32 + wbits w0 8 7) else none
          n := (mgetD (wbits w0 16 48) { units := [], last := none } x.data).n + wbits w0 8 7 } x.data }) (received w0 s))))
    ∧ (s.up = true → s.pmode = 0 → pstate s = 1 → (txModule s).isNone = false → wbits w0 4 4 = q → (queue s q).state ≠ 0 → wbits w0 0 4 = MT.credit →
      1 ≤ wbits w0 8 7 → wbits w0 8 7 ≤ 64 → running s = none →
      (wbits (body.getD 2 0) 0 32 + 2 ^ 32 - (queue s q).resUsed % 2 ^ 32) % 2 ^ 32 ≤ 2 ^ 31 →
      exec (.creditMessage w0 w1 body) s = .next (after s (updQueue q (fun x => { x with
        resGrant := max x.resGrant (x.resUsed + (wbits (body.getD 2 0) 0 32 + 2 ^ 32 - (queue s q).resUsed % 2 ^ 32) % 2 ^ 32) }) (received w0 s))))

/-! ### Issue, control and completion of operations -/

/-- An abort marks a staged command, which then ends with ABORTED at issue; it ends with ABORTED an operation that is issued, or running in an abortable group; it is recorded and has no effect on one running in another group, and changes nothing where the operation named is COMPLETE or unknown. STOP stops the queue without a log entry. RESTART ends every staged command with ABORTED, in SEQ order, delivers what cartouches are due, and runs the queue with streams from 0, all command and data credit, and the data of its issued operation alone. A disabled queue takes none of them, and without a core a queue is not restarted. A CTRL message in its place acts as its control word says: ABORT, then STOP (03 R74, R78; 14 R368; that SEQ 0 names the running operation before the issued one, and what an abort without effect leaves, is the model's choice, log 67). -/
def Obligations.AbortStopAndRestartActOnTheirQueue : Prop :=
  (∀ (s : State) (q seq : Nat), s.up = true → ready s = true → (queue s q).state ≠ 0 →
      ((queue s q).staged.any (fun c => c.seq == seq) = true →
        exec (.abort .register q seq) s = .next (after s (updQueue q (fun x => { x with
          staged := updWhere (fun c => c.seq == seq) (fun c => { c with aborted := true }) x.staged }) s)))
      ∧ ((queue s q).staged.any (fun c => c.seq == seq) = false →
        (∀ o, abortTarget s q seq = some o →
          (o.place = .issued →
            exec (.abort .register q seq) s = .next (after s (deliverAll (endAtIssue o.queue o.seq (cancelOp o.queue o.seq (opCond o.queue o.seq SC.aborted s))))))
          ∧ (o.place = .running → abortable o = true →
            exec (.abort .register q seq) s = .next (after s (deliverAll (cancelOp o.queue o.seq (opEnd o.queue o.seq SC.aborted s)))))
          ∧ (o.place = .running → abortable o = false →
            exec (.abort .register q seq) s = .next (after s (updOp o.queue o.seq (fun x => { x with abortNoted := true }) s)))
          ∧ (o.place ≠ .issued → o.place ≠ .running → exec (.abort .register q seq) s = .next (after s s)))
        ∧ (abortTarget s q seq = none → exec (.abort .register q seq) s = .next (after s s)))
      ∧ exec (.stop .register q) s = .next (after s (updQueue q (fun x => { x with state := 2, early := [] }) s))
      ∧ (coreCount s ≠ 0 → exec (.restart ⟨.register, q⟩) s = .next (after s (freshStreams q (deliverAll (abortStaged q s)))))
      ∧ (coreCount s = 0 → exec (.restart ⟨.register, q⟩) s = .next (after s s)))
  ∧ (∀ (s : State) (q seq : Nat), s.up = true → (ready s = false ∨ (queue s q).state = 0) →
      exec (.abort .register q seq) s = .next (outcome s s) ∧ exec (.stop .register q) s = .next (outcome s s)
        ∧ exec (.restart ⟨.register, q⟩) s = .next (outcome s s))
  ∧ (∀ (s : State) (w0 w1 : Word) (body : List Word) (q seq : Nat), MessageNext s w0 w1 q → wbits w0 0 4 = MT.ctrl → wbits w0 8 7 = 1 →
      let counted := updQueue q (fun x => { x with rxNext := x.rxNext + 1 }) (received w0 s)
      let aborted := if wbit (body.getD 0 0) 2 then abortSeq q (wbits (body.getD 0 0) 16 48) counted else counted
      let t := after s (if wbit (body.getD 0 0) 0 then stopCmd q aborted else aborted)
      exec (.abort (.message w0 w1 body) q seq) s = .next t ∧ exec (.stop (.message w0 w1 body) q) s = .next t
        ∧ exec (.restart ⟨.message w0 w1 body, q⟩) s = .next t)
  ∧ (∀ (s : State) (q : Nat), q < s.queues.length →
      (queue (abortStaged q s) q).staged = []
        ∧ ((abortStaged q s).ops.drop s.ops.length).map (·.seq) = (queue s q).staged.map (·.seq)
        ∧ (∀ o ∈ (abortStaged q s).ops.drop s.ops.length, o.queue = q ∧ o.phase = .deliver ∧ maskBit o.cond SC.aborted = true)
        ∧ (abortStaged q s).ops.take s.ops.length = s.ops)
  ∧ (∀ (s : State) (q : Nat), q < s.queues.length → (queue s q).renotice = false →
      let t := freshStreams q s
      (queue t q).state = 1 ∧ (queue t q).rxNext = 0 ∧ (queue t q).txNext = 0 ∧ (queue t q).early = []
        ∧ (∀ x ∈ (queue t q).data, x ∈ (queue s q).data ∧ ∃ o, issued s = some o ∧ o.queue = q ∧ o.seq = x.1)
        ∧ (∀ o, issued s = some o → o.queue = q → ∀ x ∈ (queue s q).data, x.1 = o.seq → x ∈ (queue t q).data)
        ∧ (queue t q).cmdGrant = (queue s q).cmdUsed + 512 ∧ (queue t q).dataGrant = (queue s q).dataUsed + 8192
        ∧ (queue t q).resGrant = (queue s q).resGrant ∧ (queue t q).nextSeq = (queue s q).nextSeq
        ∧ (∀ j, j ≠ q → queue t j = queue s j) ∧ t.ops = s.ops ∧ (∀ o, (∀ i, o ≠ R.CNT_PMCi i) → rget t o = rget s o) ∧ t.far = s.far)

/-- OP_ISSUE takes the next staged command into the ISSUED place and returns its credit. A command that an abort or a breach of its data has already decided ends there, with every condition that applied; any other is checked, and ends at the first check that fails, in the order of R63: opcode, operands, STEP order, tables, capacity; one that passes them counts as issued. With the ISSUED place taken, or nothing to issue, none is. OP_COMPLETE takes the steps of completion that can be taken, and RESULT_BANK_WAIT has an operation that waits for its bank read the header again (03 R62, R63, R66, R73, R450; the layout of TABLE_STATE, and which bit of a field a failed check names, are the model's choice, logs 6 and 28). -/
def Obligations.IssueChecksInOrderAndCompletionDelivers : Prop :=
  (∀ s : State, s.up = true →
      (issued s ≠ none ∨ nextIssue s = none → exec .opIssue s = .next (after s s))
      ∧ (∀ q c, issued s = none → nextIssue s = some (q, c) →
        let r := returnCmd q (c.words.length / 8) (updQueue q (fun x => { x with staged := x.staged.drop 1 }) { s with rr := q })
        let t := { r with ops := r.ops ++ [newOp q c] }
        exec .opIssue s = .next (after s (deliverAll (prefetchOp (startNext (endIssued (deliverAll
          (if c.aborted || c.violated then endAtIssue q c.seq (updOp q c.seq (fun o => { o with cond := c.cond }) t) else checkOp (newOp q c) t))))))))
      ∧ exec .opComplete s = .next (after s (completeAll s))
      ∧ (∀ o, running s = some o → o.waitRb = true → o.phase = .bank → o.endNow = false →
        exec .resultBankWait s = .next (after s (rereadBank o.queue o.seq s)))
      ∧ ((∀ o, running s = some o → o.waitRb = false ∨ o.phase ≠ .bank ∨ o.endNow = true) → exec .resultBankWait s = .next (outcome s s)))
  ∧ (∀ c : Staged, maskBit c.cond SC.aborted = c.aborted ∧ maskBit c.cond SC.violation = c.violated)
  ∧ (∀ (s : State) (o : Op),
      (o.opcode ∉ opcodes → checkOp o s = endAtIssue o.queue o.seq (opViolation o.queue o.seq VK.badOpcode 0 o.opcode 0 s))
      ∧ (o.opcode ∈ opcodes →
        (∀ w b, o.badOperand (stepOk s o) = some (w, b) →
          checkOp o s = endAtIssue o.queue o.seq (opViolation o.queue o.seq VK.badOperand 0 (fld 0 6 w + fld 6 6 b) 0 s))
        ∧ (o.badOperand (stepOk s o) = none →
          ((queue s o.queue).anyIssued = true → o.step < (queue s o.queue).lastStep →
            checkOp o s = endAtIssue o.queue o.seq (opViolation o.queue o.seq VK.stepOrder 0 0 0 s))
          ∧ (((queue s o.queue).anyIssued = true → (queue s o.queue).lastStep ≤ o.step) →
            (∀ t b r, bindOp s o = (some t, b, r) → checkOp o s = endAtIssue o.queue o.seq (tableState o.queue o.seq t.1 t.2 s))
            ∧ (∀ r, bindOp s o = (none, true, r) → checkOp o s = endAtIssue o.queue o.seq (opEnd o.queue o.seq SC.tableRetired s))
            ∧ (∀ r, bindOp s o = (none, false, r) →
              let x := { o with bound := r }
              (putFits s x = false → checkOp o s = endAtIssue o.queue o.seq (badOperand o.queue o.seq (badOperandWord 2 30) 0 s))
              ∧ (putFits s x = true → (scatterFull s x || gazFull s x) = true → checkOp o s = endAtIssue o.queue o.seq (opEnd o.queue o.seq SC.capacity s))
              ∧ (putFits s x = true → (scatterFull s x || gazFull s x) = false →
                checkOp o s = countIssued x (updOp o.queue o.seq (fun y => { y with bound := r }) s)))))))

/-- The running NOP has no work; lookups, scatters, copies, row puts, exports and imports begin theirs (16 R412; 04 R84; 06 R150; 16 R425, R428, R430, R432). -/
def Obligations.RunningOperationsBeginTheirWork : Prop :=
  ∀ (s : State) (o : Op),
    (WorkDue s OP.nop o → exec .nop s = .next (after s (updOp o.queue o.seq (fun x => { x with phase := .drain }) (effectDone o.queue o.seq s))))
    ∧ (WorkDue s OP.lkPool o → exec .lkPool s = .next (after s (lkAdvance o.queue o.seq (effectDone o.queue o.seq s))))
    ∧ (WorkDue s OP.gsScatter o → exec .gsScatter s = .next (after s (gsAdvance o.queue o.seq (effectDone o.queue o.seq s))))
    ∧ (WorkDue s OP.gzRowput o → exec .gzRowput s = .next (after s (rowputAdvance o.queue o.seq (effectDone o.queue o.seq s))))
    ∧ (WorkDue s OP.memCopy o → exec .memCopy s = .next (after s (copyAdvance o.queue o.seq (effectDone o.queue o.seq s))))
    ∧ (WorkDue s OP.rowExport o → exec .rowExport s = .next (after s (exportAdvance o.queue o.seq (effectDone o.queue o.seq s))))
    ∧ (WorkDue s OP.rowImport o → exec .rowImport s = .next (after s (importAdvance o.queue o.seq (effectDone o.queue o.seq s))))
    ∧ (WorkDue s OP.meridian o → exec .meridian s = .next (after s (startMeridian o.queue o.seq (effectDone o.queue o.seq s))))

/-- The commands of the gazetteer take effect at issue: a checked descriptor is stored LOADED, a switch drains the version that was CURRENT and makes the named one CURRENT from its step on, a drop deletes a LOADED version, ROWMODE sets its bit. A version in a wrong state, or none at all, ends a command with a TABLE_STATE entry and its status; a bad descriptor and a fourth version have ends of their own (02 R28, R29, R43, R45, R47, R49; 16 R420 to R423; the layout of TABLE_STATE, and which ends count as issued, are the model's choice, logs 6 and 40). -/
def Obligations.GazetteerCommandsChangeOrRefuseVersions : Prop :=
  (∀ (s : State) (o : Op), s.up = true →
      let t := effectDone o.queue o.seq s
      let ds := liveDescs t o.queue o.tableId
      (dueGaz s OP.gzDefine = some o → descFail { words := o.descWords } (nblocks t) ((liveDescs t o.queue ({ words := o.descWords } : Desc).tableId).map Desc.version) = none →
        (liveDescs t o.queue ({ words := o.descWords } : Desc).tableId).length < 3 →
        exec .gzDefine s = .next (after s (putDesc o.queue (storeDesc o.descWords) t)))
      ∧ (∀ d, dueGaz s OP.gzSwitch = some o → ds.find? (fun d => d.version == o.version && d.state == 1) = some d →
        max o.step (queue t o.queue).maxStep < o.effStep → ds.any (fun d => d.state == 3) = false →
        exec .gzSwitch s = .next (after s (putDesc o.queue ((d.setState 2).setW 21 0 48 o.effStep)
          (match ds.find? (fun d => d.state == 2) with
            | some old => drainVersion o.queue old (o.effStep - 1) t
            | none => t))))
      ∧ (∀ d, dueGaz s OP.gzDrop = some o → ds.find? (fun d => d.version == o.version) = some d → d.rowmode = false → d.state = 1 →
        exec .gzDrop s = .next (after s (delDesc o.queue o.tableId o.version (purgeVersion o.queue o.tableId o.version t))))
      ∧ (∀ d, dueGaz s OP.gzDrop = some o → ds.find? (fun d => d.version == o.version) = some d → d.rowmode = false → d.state = 2 →
        ds.any (fun d => d.state == 3) = false → boundLater t o.queue o.tableId o.version o.step = false →
        exec .gzDrop s = .next (after s (drainVersion o.queue d o.step t)))
      ∧ (∀ d, dueGaz s OP.gzRowmode = some o → o.flag28 = false → findDesc t o.queue o.tableId o.version = some d → d.state ≠ 3 →
        exec .gzRowmode s = .next (after s (putDesc o.queue (d.setRowmode false) t)))
      ∧ (∀ d, dueGaz s OP.gzRowmode = some o → o.flag28 = true → findDesc t o.queue o.tableId o.version = some d → d.state ≠ 3 →
        (d.state = 2 → writerInFlight t o.queue o.tableId o.version = false) →
        exec .gzRowmode s = .next (after s (withdrawRange 0 o.queue o.tableId o.version ((d.sheetOf (self t)).getD 0) 0 (sheetRows d ((d.sheetOf (self t)).getD 0))
          (fun _ => true) (putDesc o.queue (d.setRowmode true) t)))))
  ∧ (∀ (s : State) (o : Op), s.up = true →
      let t := effectDone o.queue o.seq s
      let ds := liveDescs t o.queue o.tableId
      let refused := tableState o.queue o.seq o.tableId o.version t
      (∀ x, dueGaz s OP.gzDefine = some o → descFail { words := o.descWords } (nblocks t) ((liveDescs t o.queue ({ words := o.descWords } : Desc).tableId).map Desc.version) = some x →
        exec .gzDefine s = .next (after s (descriptorFault o.queue o.seq x t)))
      ∧ (dueGaz s OP.gzDefine = some o → descFail { words := o.descWords } (nblocks t) ((liveDescs t o.queue ({ words := o.descWords } : Desc).tableId).map Desc.version) = none →
        3 ≤ (liveDescs t o.queue ({ words := o.descWords } : Desc).tableId).length →
        exec .gzDefine s = .next (after s (opEnd o.queue o.seq SC.capacity t)))
      ∧ (dueGaz s OP.gzSwitch = some o → ds.find? (fun d => d.version == o.version && d.state == 1) = none → exec .gzSwitch s = .next (after s refused))
      ∧ (dueGaz s OP.gzDrop = some o → ds.find? (fun d => d.version == o.version) = none → exec .gzDrop s = .next (after s refused))
      ∧ (∀ d, dueGaz s OP.gzDrop = some o → ds.find? (fun d => d.version == o.version) = some d → (d.rowmode = true ∨ d.state = 3) → exec .gzDrop s = .next (after s refused))
      ∧ (dueGaz s OP.gzRowmode = some o → findDesc t o.queue o.tableId o.version = none → exec .gzRowmode s = .next (after s refused))
      ∧ (∀ d, dueGaz s OP.gzRowmode = some o → findDesc t o.queue o.tableId o.version = some d → d.state = 3 → exec .gzRowmode s = .next (after s refused)))

/-- GZ_SWITCH of a version that is not READY, or to a step that is not greater than its own STEP and every step already issued, ends with VIOLATION and a TABLE_STATE entry; of a table that has a DRAINING version it ends with CAPACITY; the gazetteer keeps every version as it was (02 R46; 16 R421; which of several reasons is given is the model's order, log 6). -/
def Obligations.RefusedSwitchChangesNoVersion : Prop :=
  ∀ (s : State) (o : Op), s.up = true → dueGaz s OP.gzSwitch = some o →
    let t := effectDone o.queue o.seq s
    let ds := liveDescs t o.queue o.tableId
    let entry := tableState o.queue o.seq o.tableId o.version t
    let full := opEnd o.queue o.seq SC.capacity t
    (ds.find? (fun d => d.version == o.version && d.state == 1) = none → exec .gzSwitch s = .next (after s entry))
    ∧ (∀ d, ds.find? (fun d => d.version == o.version && d.state == 1) = some d → o.effStep ≤ max o.step (queue t o.queue).maxStep →
      exec .gzSwitch s = .next (after s entry))
    ∧ (∀ d, ds.find? (fun d => d.version == o.version && d.state == 1) = some d → max o.step (queue t o.queue).maxStep < o.effStep →
      ds.any (fun d => d.state == 3) = true → exec .gzSwitch s = .next (after s full))
    ∧ entry.gaz = s.gaz ∧ full.gaz = s.gaz
    ∧ (∀ x, findOp t o.queue o.seq = some x → findOp full o.queue o.seq = some { x with cond := maskSet x.cond SC.capacity, endNow := true })
    ∧ entry = opViolation o.queue o.seq VK.tableState 3 (fld 0 12 o.tableId + fld 12 16 o.version) 0 t


/-! ### Packets -/

/-- A packet of an unordered class acts at its destination by its kind, as soon as it leaves its receive buffer (04 R89, R90, R101 to R103; 06 R165, R173; 09 R264, R265; 10 R277, R280, R285; 14 R384; the body of an acknowledgement and the echo of an epoch, and a record whose directory cannot be read, are the model's choice, logs 7, 11 and 17). -/
def Obligations.UnorderedPacketsActAtDestination : Prop :=
  ∀ (port : Nat) (p : Packet) (s : State),
    let t := leaveBuffer port p s
    (FreePacket K.rowReq port p s → exec (.rowReq port p) s = .next (after s (serveRequest true port p false t)))
    ∧ (FreePacket K.partReq port p s → exec (.partReq port p) s = .next (after s (serveRequest true port p true t)))
    ∧ (FreePacket K.rowRsp port p s → exec (.rowRsp port p) s = .next (after s (rowRsp port p t)))
    ∧ (FreePacket K.partRsp port p s → exec (.partRsp port p) s = .next (after s (partRsp port p t)))
    ∧ (FreePacket K.error port p s → exec (.error port p) s = .next (after s (recvError port p t)))
    ∧ (FreePacket K.winRead port p s → exec (.winRead port p) s = .next (after s (recvWindow p t)))
    ∧ (FreePacket K.winWrite port p s → exec (.winWrite port p) s = .next (after s (recvWindow p t)))
    ∧ (FreePacket K.winData port p s → exec (.winData port p) s = .next (after s (recvWinData port p t)))
    ∧ (FreePacket K.winAck port p s → exec (.winAck port p) s = .next (after s (recvWinAck port p t)))
    ∧ (FreePacket K.ack port p s → exec (.ack port p) s = .next (after s (recvAck p t)))
    ∧ (FreePacket K.gradRec port p s → exec (.gradRec port p) s = .next (after s (gradArrive true port p t)))
    ∧ (FreePacket K.mark1 port p s → exec (.mark1 port p) s = .next (after s (markArrive port p t)))
    ∧ (FreePacket K.mark2 port p s → exec (.mark2 port p) s = .next (after s (markArrive port p t)))
    ∧ (FreePacket K.migData port p s → exec (.migData port p) s = .next (after s (recvMigData p t)))
    ∧ (FreePacket K.migAck port p s → exec (.migAck port p) s = .next (after s (recvMigAck p t)))

/-- A packet of an ordered class that is next in its stream is counted, then acts by its kind (02 R48; 07 R200; 08 R225 to R227; 10 R285, R287, R290, R291; 14 R380, R385; the bodies of acknowledgements and of the round of a restart, what adopting a sheet epoch discards, and a HANDOFF that comes early are the model's choice, logs 13, 17, 21 and 22). -/
def Obligations.OrderedPacketsActInTheirOrder : Prop :=
  ∀ (port : Nat) (p : Packet) (s : State),
    let t := counted port p s
    let ends := fun (u : State) => Host.Outcome.next (after s (streamOn p u))
    (NextPacket K.refresh port p s → exec (.refresh port p) s = ends (recvRefresh port p t))
    ∧ (NextPacket K.refreshMark port p s → exec (.refreshMark port p) s = ends (recvRefreshMark port p t))
    ∧ (NextPacket K.withdraw port p s → exec (.withdraw port p) s = ends (recvWithdraw port p t))
    ∧ (NextPacket K.purge port p s → exec (.purge port p) s = ends (recvPurge p t))
    ∧ (NextPacket K.release port p s → exec (.release port p) s = ends (recvRelease p t))
    ∧ (NextPacket K.handoff port p s → exec (.handoff port p) s = ends (recvHandoff p t))
    ∧ (NextPacket K.migReady port p s → exec (.migReady port p) s = ends (recvMigReady p t))
    ∧ (NextPacket K.restart port p s → bits (leAt p.body 0 8) 0 2 = RS.query → exec (.query port p) s = ends (recvQuery port p t))
    ∧ (NextPacket K.restart port p s → bits (leAt p.body 0 8) 0 2 = RS.reply → exec (.reply port p) s = ends (recvReply port p t))
    ∧ (NextPacket K.restart port p s → bits (leAt p.body 0 8) 0 2 = RS.set → exec (.set port p) s = ends (recvSet port p t))
    ∧ (NextPacket K.regRead port p s → 2 ≤ t.stage → exec (.regRead port p) s = ends (recvRegRead port p t))
    ∧ (NextPacket K.regWrite port p s → 2 ≤ t.stage → exec (.regWrite port p) s = ends (recvRegWrite port p t))
    ∧ (NextPacket K.regRsp port p s → exec (.regRsp port p) s = ends (recvRegRsp p t))
    ∧ (NextPacket K.event port p s → exec (.event port p) s = ends (recvEvent p t))

/-- A stream delivers each packet once and in order: one that was delivered before is logged and discarded, an early one is held and counted, and neither is delivered; ESEQ 0 begins a new stream (10 R285, items 4 and 5; that the same packet held before is replaced is the model's reading, log 56). -/
def Obligations.OrderedStreamHoldsEarlyAndDropsOld : Prop :=
  ∀ (port : Nat) (p : Packet) (s : State), p.eseq < 2 ^ 32 →
    let o := ostream s p.src p.cls
    let d := (p.eseq + 2 ^ 32 - o.rx % 2 ^ 32) % 2 ^ 32
    ((p.eseq ≠ 0 ∨ o.rx % 2 ^ 32 = 0) →
      (2 ^ 31 ≤ d →
        orderedIn port p s = bump1 R.CNT_LNK_DISCARD (vlog VK.eseqDup (portSource port) 0 0 0 0 s))
      ∧ (d ≠ 0 → d < 2 ^ 31 →
        ostream (orderedIn port p s) p.src p.cls = { o with early := (o.early.filter fun y => y.1 != o.rx + d) ++ [(o.rx + d, port, p)] }
        ∧ rget (orderedIn port p s) R.CNT_LNK_REORDER = word (min (2 ^ 64 - 1) ((rget s R.CNT_LNK_REORDER).toNat + 1))
        ∧ (∀ off, off ≠ R.CNT_LNK_REORDER → rget (orderedIn port p s) off = rget s off)
        ∧ (orderedIn port p s).far = s.far ∧ (orderedIn port p s).ops = s.ops ∧ (orderedIn port p s).jobs = s.jobs)
      ∧ (o.rx % 2 ^ 32 = p.eseq → orderedIn port p s = streamOn p (deliverPacket port p (setOStream p.src p.cls { o with rx := o.rx + 1, owed := o.owed + 1 } s))))
    ∧ (p.eseq = 0 → o.rx % 2 ^ 32 ≠ 0 →
      orderedIn port p s = streamOn p (deliverPacket port p (setOStream p.src p.cls { o with rx := 1, early := [], owed := 1 } s)))

/-- A packet for another block goes on by its route, after its checks; one that arrives at a port whose partition is in reset stays in its buffer, whether it is for this block or another; a record that waits in an adder goes on when its hold expires; ordered packets are acknowledged by their timer; a forwarded access ends at its time limit, and EVENT is repeated (06 R169, R170; 10 R277, R283, R285, R290, R291; 13 R347; 14 R375; the crossings, the counts of bytes of a bad window packet and the event of a time-out are the model's reading, logs 20, 61 and 78). -/
def Obligations.ForwardingAndTimersOfPackets : Prop :=
  ∀ s : State, s.up = true →
    (∀ port p, port < 6 → p.dest ≠ self s → partReset s (portPart port) = false → badPacket (leaveBuffer port p s) p = false →
      exec (.packetForward port p) s = .next (outcome s (pumpLinks (forwardPacket port p (leaveBuffer port p s)))))
    ∧ (∀ port p, port < 6 → p.dest ≠ self s → partReset s (portPart port) = false → badPacket (leaveBuffer port p s) p = true →
      exec (.packetForward port p) s = .next (outcome s (rejectPacket port p (leaveBuffer port p s))))
    ∧ (∀ port p, port < 6 → partReset s (portPart port) = true →
      (p.dest ≠ self s → exec (.packetForward port p) s = .next (outcome s { s with crossing := s.crossing ++ [.passing port p] }))
      ∧ (s.pmode = 0 → forHere K.rowReq port p s = true → exec (.rowReq port p) s = .next (outcome s { s with crossing := s.crossing ++ [.packet K.rowReq port p] })))
    ∧ (∀ port h, s.holds.find? (fun h => h.port == port) = some h →
      exec (.addHoldExpire port) s = .next (outcome s (routePacket (some port) h.p { s with holds := s.holds.erase h })))
    ∧ (∀ src cls, ordered cls = true → 0 < (ostream s src cls).owed →
      exec (.orderedAckTimer src cls) s = .next (after s (sendStreamAck src cls s)))
    ∧ (∀ id, exec (.fwdTimeout id) s = .next (after s (fwdExpire id s)))
    ∧ (exec .eventRepeat s = .next (outcome s (eventAgain s)))

/-! ### Gradients and meridians -/

/-- The total of a row takes a record's value element by element in one exact sum, held within 128 bits, and its COUNT; every other total stays (06 R165). -/
def Obligations.GradientRecordAddsToRowTotal : Prop :=
  ∀ (slot : Nat) (d : Desc) (row step count : Nat) (vals : List Int) (s : State), slot < s.jobs.length → vals.length = d.width →
    (∀ x ∈ (job s slot).totals, x.is d.tableId d.version row step = true → x.vals.length = d.width) →
    let old := (job s slot).totals.find? fun x => x.is d.tableId d.version row step
    let t := addTotal slot d row step count vals s
    (∃ x, (job t slot).totals.find? (fun x => x.is d.tableId d.version row step) = some x
      ∧ x.count = (old.map (·.count)).getD 0 + count
      ∧ x.vals = List.zipWith (fun a b => max (-(2 ^ 127 : Int)) (min (2 ^ 127 - 1) (a + b))) ((old.map (·.vals)).getD (List.replicate d.width 0)) vals)
    ∧ (∀ x, x.is d.tableId d.version row step = false → (x ∈ (job t slot).totals ↔ x ∈ (job s slot).totals))
    ∧ t.far = s.far ∧ t.ops = s.ops ∧ ∀ j, j ≠ slot → job t j = job s j

/-- The order in which two records of a row arrive makes no difference to its total while no sum leaves 128 bits (06 R165, R168). -/
def Obligations.RecordOrderDoesNotChangeTotals : Prop :=
  ∀ (slot : Nat) (d : Desc) (row step c1 c2 : Nat) (v1 v2 : List Int) (s : State), slot < s.jobs.length →
    v1.length = d.width → v2.length = d.width →
    (∀ t ∈ (job s slot).totals, t.is d.tableId d.version row step = false) →
    (∀ x ∈ v1, -(2 ^ 125 : Int) ≤ x ∧ x ≤ 2 ^ 125) → (∀ x ∈ v2, -(2 ^ 125 : Int) ≤ x ∧ x ≤ 2 ^ 125) →
    addTotal slot d row step c1 v1 (addTotal slot d row step c2 v2 s) = addTotal slot d row step c2 v2 (addTotal slot d row step c1 v1 s)

/-- Phase 1 ends when a marker of every block of the job and every COUNT it declares has come: MSTATE becomes 2 and MARK2 goes out; phase 2 likewise, and the dispatch of rows begins with MSTATE 3. With every row retired and every refresh marker held, the admission pass runs, which may wait on a fault; then the totals are cleared, the MERIDIAN ends, and what waited for it goes on (06 R173, R174; 07 R197, R199, R200; which versions the pass takes, and what it does where it cannot read, are the model's choice, logs 7 and 86). -/
def Obligations.MeridianPhasesEndOnMarkersAndCounts : Prop :=
  ∀ (s : State) (slot : Nat) (m : Mer), s.up = true → jobHeld s slot = false → (job s slot).mer = some m →
    (m.phase = 1 → phaseDone s (job s slot).mark1 (job s slot).recv m.step = true →
      exec (.meridianPhase1End slot) s = .next (after s (sendMark2 slot m.step (setMstate slot 2 (updJob slot (fun j => { j with
        mark1 := marksLeft ((phaseMarks s (job s slot).mark1 m.step).getD []) m.step j.mark1
        recv := takeCounts (sumNat (((phaseMarks s (job s slot).mark1 m.step).getD []).map (·.count))) j.recv
        mer := some { m with phase := 2 } }) s)))))
    ∧ (m.phase = 1 → phaseDone s (job s slot).mark1 (job s slot).recv m.step = false → exec (.meridianPhase1End slot) s = .next (after s s))
    ∧ (m.phase = 2 → (m.redo = true → phaseDone s (job s slot).mark1 (job s slot).recv m.step = true) → exporting s slot m.step = false →
      phaseDone s (job s slot).mark2 (job s slot).fwdRecv m.step = true →
      ∃ t, exec (.meridianBegin slot) s = .next (after s (merStart slot m t)) ∧ (job t slot).totals = (job s slot).totals ∧ t.far = s.far ∧ t.ops = s.ops
        ∧ (journalOf t slot).isOpen = true ∧ (journalOf t slot).step = m.step % 2 ^ 48)
    ∧ (m.phase = 3 → m.marksSent = true → merRows s slot m = false → (m.resume = true ∨ refreshedAll s slot m.step = true) → s.mig = none →
      let t := (admissionPass slot m.step s).2
      let m' := ((job t slot).mer).getD m
      ((admissionPass slot m.step s).1 = .wait → exec (.meridianComplete slot) s = .next (after s (completeAll t)))
      ∧ ((admissionPass slot m.step s).1 = .done → exec (.meridianComplete slot) s = .next (after s (completeAll (releaseRecs slot (releaseRows slot
          (endMerOp slot m.step (m'.cond ||| closeConds (job t slot) m.step) (nextMer slot (releaseServes
            (if m'.resume then refreshMarks slot m.step (closeMeridian slot m' t) else closeMeridian slot m' t))))))))))

/-- An update's units are written one after another as each is acknowledged: the ledger entry, then the state record, then the weights and the derived copy, then the retirement (07 R195, R196; what becomes of the copies where the legend cannot be read is the model's choice, log 14). -/
def Obligations.UpdateUnitsAreWrittenInOrder : Prop :=
  ∀ (s : State) (id : Nat) (f : Flight), s.up = true → mfind id s.flights = some f →
    (f.stage = 0 → exec (.updateWriteAck id) s = .next (after s { bump1 R.CNT_UPD_LOGGED { s with ledger := mput id f.entry s.ledger } with
        flights := mput id { f with stage := if f.desc.sstride = 0 then 2 else 1 } s.flights }))
    ∧ (f.stage = 1 → exec (.updateWriteAck id) s = .next (after s { writeRecord f s with flights := mput id { f with stage := 2 } (writeRecord f s).flights }))
    ∧ (f.stage = 2 → exec (.updateWriteAck id) s = .next (after s { newCopy f (writeWeights f s) with
        flights := mput id { f with stage := 3 } (newCopy f (writeWeights f s)).flights }))
    ∧ (f.stage = 3 → exec (.updateWriteAck id) s = .next (after s (retireRow f s)))

/-- A version that is released here is purged and its notices sent; nothing happens where its last step is still open or an operation uses it (02 R48; that VERSION_RELEASE retires a version at once where nothing uses it is the model's reading, log 39). -/
def Obligations.ReleaseWaitsForLastStepAndReaders : Prop :=
  ∀ (s : State) (slot table version : Nat) (d : Desc), s.up = true → slotOn s slot = true → findDesc s slot table version = some d →
    (mayRelease s slot d = false → exec (.versionRelease slot table version) s = .next (after s s))
    ∧ (mayRelease s slot d = true → exec (.versionRelease slot table version) s = .next (after s
      (tryRetire slot table version (each (jobOthers (putDesc slot { d with released := true }
          (withdrawInsets (fun e => e.slot == slot && e.table == table && e.version == version) (purgeVersion slot table version s))))
        (fun b s => sendPacket b CL.sync K.release (slotJobId s slot) (leBytes 8 (fld 0 12 table + fld 12 16 version)) s)
        (putDesc slot { d with released := true }
          (withdrawInsets (fun e => e.slot == slot && e.table == table && e.version == version) (purgeVersion slot table version s)))))))

/-! ### Tags, fills, translation -/

/-- A free tag goes to the first requester that waits for its pool, which asks again and keeps its place if it must wait once more; 229,376 tags are the block's own, of which prefetch holds at most 57,344, and 32,768 serve its peers; a tile is dispatched for the running operation. A far-memory read that returns good serves its requester; a corrected one is counted first; an uncorrectable one is read once more, and the second time its line is marked. A parity error of near memory discards what its band holds there (a contour, the insets of a directory set with a purge of every holder, a pinned slot, the entries of a set, an entry), and an error of the victim or the prefetch buffer the entry read; the reader then fetches it as though it were absent, and the error is counted and shown. A data line or pin line that shows one again is retired, with its region RELEASED, and a set whose tag line does is DEAD. A read that finds no error, or that finds one where nothing is held, changes nothing (04 R87, R92; 08 R213, R214, R217, R228 to R230, R234; which line of a read of several, and how a reader's replay comes about, is the model's choice, logs 33 and 60; which operation a late response is charged to, log 11; which reads take tags, and the slot that a tile takes, logs 36 and 80). -/
def Obligations.TagsAreGrantedAndFarReadsReturn : Prop :=
  (∀ s : State, s.up = true →
      (∀ service x, s.tagWait.find? (fun x => isService x.1 == service && !(s.spillWait.contains x.2 && (tripped s || spillShut s))) = some x → tagFree x.1 s = true →
        let rest := s.tagWait.erase x
        let t := askAgain x.2 { s with spillWait := s.spillWait.filter (fun d => d != x.2), tagWait := rest.filter fun y => isService y.1 != service }
        exec (.tagGrant service) s = .next (after s { t with tagWait := (rest.filter fun y => isService y.1 == service) ++ t.tagWait }))
      ∧ (∀ service, (∀ x, s.tagWait.find? (fun x => isService x.1 == service && !(s.spillWait.contains x.2 && (tripped s || spillShut s))) = some x → tagFree x.1 s = false) →
        exec (.tagGrant service) s = .next (outcome s s))
      ∧ (∀ o, running s = some o → tripped s = false → jobHeld s o.queue = false → o.endNow = false →
        exec .tileDispatch s = .next (after s (dispatchTile o.queue o.seq s)))
      ∧ (tagFree .own s = true ↔ (s.fetches.filter fun f => f.pool != .service).length < 229376)
      ∧ (tagFree .prefetch s = true ↔ (s.fetches.filter fun f => f.pool != .service).length < 229376 ∧ (s.fetches.filter fun f => f.pool == .prefetch).length < 57344)
      ∧ (tagFree .service s = true ↔ (s.fetches.filter fun f => f.pool == .service).length < 32768))
  ∧ (∀ (s : State) (tag : Nat), s.up = true →
      (∀ f, findFetch s tag = some f → (f.src = .far ∨ f.src = .host) → f.dest ≠ .nobody →
        exec (.farReadComplete (.far tag) .good) s = .next (after s (tryFill f s))
        ∧ exec (.farReadComplete (.far tag) .corrected) s = .next (after s (tryFill f (setBitFor R.HBM_STATUS 0 4 (stackOf (firstFar f)) (bump1 R.CNT_HBM_CE s))))
        ∧ (f.repeated = false → exec (.farReadComplete (.far tag) .uncorrectable) s = .next (after s { s with
            fetches := updWhere (fun x => x.tag == tag) (fun x => { x with repeated := true }) s.fetches }))
        ∧ (f.repeated = true → s.ueLines.contains (firstFar f / 64) = false →
            exec (.farReadComplete (.far tag) .uncorrectable) s = .next (after s (tryFill f { s with ueLines := s.ueLines ++ [firstFar f / 64] }))))
      ∧ (findFetch s tag = none → ∀ ecc, exec (.farReadComplete (.far tag) ecc) s = .next (after s (staleArrival none tag 0 s))))
  ∧ (∀ (s : State) (core set line group : Nat), s.up = true → enabled s core = true → (posOf s core).isolated = false →
      let found := exec (.farReadComplete (.near core set line group) .uncorrectable) s
      (set < 1024 → found = .next (after s (replayed { s with
          contours := mdel (core * 2 ^ 21 + (set * 64 + line) * 32 + group) s.contours })))
      ∧ (1024 ≤ set → set < 2048 → found = .next (after s (sendPurge (replayed { s with
          idir := s.idir.filter fun e => !(e.vault == core && e.set == ((set - 1024) * 64 + line) / 4) }))))
      ∧ (2048 ≤ set → set < firstCacheSet s →
        (pinSlotAt s core ((set - 2048) * 64 + line) = none → found = .next (after s s))
        ∧ (∀ x, pinSlotAt s core ((set - 2048) * 64 + line) = some x →
          let gone := replayed (pinDrop x.1 x.2 (stalePin x.1 x.2 s))
          (erredBefore gone core set line = false → found = .next (after s (noteErr core set line gone)))
          ∧ (erredBefore gone core set line = true →
            found = .next (after s (retireData core set line (setPinState x.1 3 { gone with pins := gone.pins.filter fun y => y.1 / 2 ^ 32 != x.1 }))))))
      ∧ (firstCacheSet s ≤ set → line < 4 →
        let gone := replayed (each (s.near.filter fun e => hasPiece e core set) replayEntry s)
        ((vset s core set).dead = true → found = .next (after s s))
        ∧ ((vset s core set).dead = false → erredBefore gone core set line = false →
          found = .next (after s (noteErr core set line gone)))
        ∧ ((vset s core set).dead = false → erredBefore gone core set line = true → found = .next (after s (retireSet core set gone))))
      ∧ (firstCacheSet s ≤ set → 4 ≤ line → lineHolder s core set (line - 4) = none → found = .next (after s s))
      ∧ (∀ x, firstCacheSet s ≤ set → 4 ≤ line → lineHolder s core set (line - 4) = some x → erredBefore s core set line = false →
        found = .next (after s (noteErr core set line (replayed (replayEntry x.1 s)))))
      ∧ (∀ x, firstCacheSet s ≤ set → 4 ≤ line → lineHolder s core set (line - 4) = some x → erredBefore s core set line = true →
        found = .next (after s (retireData core set line (replayed (replayEntry x.1 s))))))
  ∧ (∀ (s : State) (i : Nat), s.up = true → i < s.victim.length →
      exec (.farReadComplete (.victim i) .uncorrectable) s = .next (after s (replayed { s with victim := s.victim.eraseIdx i })))
  ∧ (∀ (s : State) (i : Nat) (p : PfEntry), s.up = true → s.prefetched[i]? = some p → p.usable = true →
      exec (.farReadComplete (.prefetch i) .uncorrectable) s = .next (after s (replayed { s with prefetched := s.prefetched.modify i fun p => { p with usable := false } })))
  ∧ (∀ (s : State) (r : MemRead) (ecc : Ecc), s.up = true → ReadsNothingWrong s r ecc → exec (.farReadComplete r ecc) s = .next (after s s))
  ∧ (∀ s : State, fbit (replayed s) R.NM_STATUS F.NM_STATUS_PARITY = true ∧ rget (replayed s) R.CNT_NM_PARITY = word (sat 64 ((rget s R.CNT_NM_PARITY).toNat + 1))
      ∧ rget (replayed s) R.CNT_NM_REPLAY = word (sat 64 ((rget s R.CNT_NM_REPLAY).toNat + 1)))

/-- A translation answers from the client's buffer where an entry there covers the address, and changes only that buffer's order of use. With no entry in either level it walks: what the walk finds is kept in both levels where it is an entry, and in the second where it is a hole. A hole, kept or found, raises one fault with the next generation of the lowest free slot; an access that raises no queued fault keeps no hole (09 R247, R248, R253 to R256; the last is the model's reading, log 83). -/
def Obligations.TranslationHitsOrRaisesFault : Prop :=
  ∀ (s : State) (client ctx va : Nat) (write : Bool), s.up = true → ctx < 64 → va < vaEnd → s.parked = [] →
    (∀ e, (l1Of s client).find? (fun e => e.has ctx va) = some e → checkEnt s write e = none → e.acct = false →
      exec (.tlbWalk client ctx va write false) s = .next (outcome s { s with l1 := mput client (e :: (l1Of s client).filter fun x => x != e) s.l1 }))
    ∧ (client ≠ CLI.winRecv → (l1Of s client).find? (fun e => e.has ctx va) = none → lstate s ≠ LS.lost → s.fq = [] →
      ∀ e, s.l2.find? (fun e => e.has ctx va) = some e → e.typ = 0 → e.fatal = false → e.ctx = ctx →
      Answers (.tlbWalk client ctx va write false) s fun t =>
        (∃ f, t.fq = [(0, f)] ∧ f.kind = 1 ∧ f.ctx = ctx ∧ f.write = write ∧ f.addr = va ∧ f.lo = e.lo ∧ f.hi = e.hi ∧ f.merged = 0
          ∧ f.gen = (mgetD 0 0 s.fqGen + 1) % 2 ^ 16)
        ∧ t.l1 = s.l1 ∧ t.far = s.far ∧ t.ops = s.ops ∧ t.keys = s.keys)
    ∧ (client ≠ CLI.winRecv → (l1Of s client).find? (fun e => e.has ctx va) = none → s.l2.find? (fun e => e.has ctx va) = none →
      let missed := bump1 R.CNT_TLB_WALK (bump1 R.CNT_TLB_L2_MISS (bump1 R.CNT_TLB_L1_MISS s))
      (∀ lo hi, walk missed ctx va = .hole lo hi →
        let hole : TEnt := { ctx := ctx, lo := lo, hi := hi, typ := 0, rd := false, wr := false, acct := false, key := 0, target := 0, fatal := false }
        (s.fq = [] → lstate s ≠ LS.lost → Answers (.tlbWalk client ctx va write false) s fun t =>
          t.l2 = bufFill 16384 hole s.l2 ∧ t.l1 = s.l1
          ∧ ∃ f, t.fq = [(0, f)] ∧ f.kind = 1 ∧ f.ctx = ctx ∧ f.addr = va ∧ f.lo = lo ∧ f.hi = hi ∧ f.gen = (mgetD 0 0 s.fqGen + 1) % 2 ^ 16)
        ∧ ∀ r : TReq, r.client = client → r.ctx = ctx → r.va = va → translate true r s = (.fatal, missed))
      ∧ (∀ e, walk missed ctx va = .entry e → e.typ ≠ 0 → e.acct = false → checkEnt s write e = none →
        exec (.tlbWalk client ctx va write false) s =
          .next (outcome s { missed with l2 := bufFill 16384 e s.l2, l1 := mput client (bufFill 64 e (l1Of s client)) s.l1 })))

/-- An answer to a pending fault counts only with its generation: RETRY walks again and serves what waited, or leaves the fault pending anew; FATAL fails what waited; a stale answer is counted and nothing else; FAULT_TIMEOUT answers FATAL where it is not 0 (09 R257, R258). -/
def Obligations.FaultAnswersNameTheirGeneration : Prop :=
  ∀ (s : State) (i gen : Nat), s.up = true →
    (ready s = true → pendingFault s i gen = none →
      exec (.fqRetry i gen) s = .next (after s (bump1 R.CNT_FQ_STALE_RESP s)) ∧ exec (.fqFatal i gen) s = .next (after s (bump1 R.CNT_FQ_STALE_RESP s)))
    ∧ (∀ f e, ready s = true → pendingFault s i gen = some f → rewalk (countRewalk f s) f = .inl e →
      exec (.fqRetry i gen) s = .next (after s (serveFault i R.CNT_FQ_RETRY f e (countRewalk f s))))
    ∧ (∀ f k lo hi, ready s = true → pendingFault s i gen = some f → rewalk (countRewalk f s) f = .inr (k, lo, hi) →
      exec (.fqRetry i gen) s = .next (after s (bump1 R.CNT_FQ_REFAULT { countRewalk f s with
        fq := mput i { f with kind := k, lo := lo, hi := hi } (countRewalk f s).fq })))
    ∧ (∀ f, ready s = true → pendingFault s i gen = some f → exec (.fqFatal i gen) s = .next (after s (fatalFault i f s)))
    ∧ (∀ f, mfind i s.fq = some f → fget s R.TLB_CFG F.TLB_CFG_FAULT_TIMEOUT ≠ 0 →
      exec (.faultTimeout i) s = .next (after s (fatalFault i f (bump1 R.CNT_FQ_TIMEOUT s))))
    ∧ (∀ f, mfind i s.fq = some f → fget s R.TLB_CFG F.TLB_CFG_FAULT_TIMEOUT = 0 → exec (.faultTimeout i) s = .next (after s s))

/-- An invalidation that cannot start answers at once, with result 2 while another runs and with result 1 for a context in a torus of more than 16 blocks; one that starts drops what it names from every buffer, withdraws the insets of its masters, and completes when nothing it waits for is left (09 R260 to R262). -/
def Obligations.InvalidationsStartAndComplete : Prop :=
  ∀ (s : State) (ctx seq : Nat), s.up = true →
    (∀ all win, ready s = true → s.inval.isSome = true →
      exec (.invContext ctx all seq) s = .next (after s (invSeq seq 2 1 s)) ∧ exec (.invRange ctx win seq) s = .next (after s (invSeq seq 2 1 s)))
    ∧ (∀ all, ready s = true → s.inval = none → 16 < nblocks s → exec (.invContext ctx all seq) s = .next (after s (invSeq seq 1 0 s)))
    ∧ (∀ all, ready s = true → s.inval = none → nblocks s ≤ 16 →
      exec (.invContext ctx all seq) s = .next (after s (fset R.TLB_INV_DONE F.TLB_INV_DONE_BUSY 1
        (dropWhere (fun e => decide (e.ctx < 64) && (all || e.ctx == ctx)) (each (slotsOf s all ctx) (withdrawMasters fun _ _ => true) { s with
          inval := some { range := false, all := all, ctx := ctx, lo := 0, hi := vaEnd, seq := seq } })))))
    ∧ (ready s = true → s.inval = none → exec (.invRange ctx true seq) s =
        .next (after s (let lo := fget s R.TLB_INV_START F.TLB_INV_START_START * 4096
          let hi := lo + 4096 * (fget s R.TLB_INV_LEN F.TLB_INV_LEN_PAGES_M1 + 1)
          fset R.TLB_INV_DONE F.TLB_INV_DONE_BUSY 1 (dropSpan (64 + ctx % 16) lo hi { s with
            inval := some { range := true, all := false, ctx := 64 + ctx % 16, lo := lo, hi := hi, seq := seq } }))))
    ∧ (∀ v, s.inval = some v → s.awaits.any (fun a => a.what == 1) = false → ctxBusy s v = false → s.fq = [] →
      exec .invComplete s = .next (after s (bump1 R.CNT_TLB_INV (invSeq v.seq 0 0 { s with inval := none }))))

/-- A root is written with its base and its enable, a key register pair is loaded or refused, an unload and a discard of the ledger act while they may. HOT_DECAY halves every count of the hot-page unit; PIN_LOAD fills the slots of a region that waits, in order, with the legend read once (08 R222; 09 R247, R251, R252, R266; the loading of pins, the engine that derives their copies, and what the private regions show under another key are the model's choice, logs 18, 90 and 91). -/
def Obligations.RootsKeysHotCountsAndPins : Prop :=
  (∀ s : State, s.up = true →
      (∀ i w, ready s = true → i < 64 → exec (.rootWrite false i w) s = .next (outcome s (rset (R.TLB_CTXk_ROOT i) (word (fld 0 1 (wbits w 0 1) + fld 6 51 (wbits w 6 51))) s)))
      ∧ (∀ i w, ready s = true → i < 16 → exec (.rootWrite true i w) s = .next (outcome s (rset (R.TLB_WINw_CFG i) (word (fld 0 1 (wbits w 0 1) + fld 6 51 (wbits w 6 51))) s)))
      ∧ (2 ≤ s.stage → key1 (keyInput s) = key2 (keyInput s) →
        exec .load s = .next (after s (setBit R.TLB_STATUS 4 { s with keyData := List.replicate 8 0 })))
      ∧ (2 ≤ s.stage → key1 (keyInput s) ≠ key2 (keyInput s) → s.keyPend = [] → keyBusy s (keySel s) = false →
        exec .load s = .next (after s (keyEffect (keySel s) (some (keyInput s)) { s with keyData := List.replicate 8 0 })))
      ∧ (2 ≤ s.stage → keyLoaded s (keySel s) = true → s.keyPend = [] → keyBusy s (keySel s) = false → exec .unload s = .next (after s (keyEffect (keySel s) none s)))
      ∧ (2 ≤ s.stage → keyLoaded s (keySel s) = false → s.keyPend = [] → exec .unload s = .next (after s s))
      ∧ (2 ≤ s.stage → s.keyWait = true → s.startMode = 2 →
        let l := s.ledger.filter fun x => x.2.state == 1 && !x.2.bucket
        exec .discardLedger s = .next (after s (endKeyWait { rset (R.SRV_REPORTk_Ww 8 2) (word l.length)
          (each l (fun x s => jobBit R.CMD_UPD_STATUS 3 x.2.slot (bump1 R.CNT_UPD_LOST s)) s) with ledger := [], journal := [], stores := [], ledgerGone := true }))))
  ∧ (∀ s : State, s.up = true →
      (Answers .hotDecay s fun t => t.hot = (s.hot.map fun x => (x.1, x.2 / 2)).filter (fun x => x.2 != 0) ∧ t.regs = s.regs ∧ t.far = s.far ∧ t.ops = s.ops)
      ∧ (∀ k d sheet, pinState s k = 1 → tripped s = false →
        findDesc s (pinA s k F.NM_PINk_A_SLOT) (pinA s k F.NM_PINk_A_TABLE_ID) (pinA s k F.NM_PINk_A_VERSION) = some d → d.sheetOf (self s) = some sheet →
        let slot := pinA s k F.NM_PINk_A_SLOT
        (d.usesLegend = false →
          exec (.pinLoad k) s = .next (outcome s (each (List.range (pinA s k F.NM_PINk_A_COUNT)) (pinLoadSlot k slot sheet d []) s)))
        ∧ (∀ legend t, quietLegend slot d s = (some legend, t) →
          exec (.pinLoad k) s = .next (outcome s (each (List.range (pinA t k F.NM_PINk_A_COUNT)) (pinLoadSlot k slot sheet d legend) t)))
        ∧ (∀ t, quietLegend slot d s = (none, t) → exec (.pinLoad k) s = .next (outcome s t))))

/-- A piece of far memory that lies in one line reads back as it was written, under its key; every other byte of its line reads under that key as before, every byte of another line reads as before under any key, and the memory keeps its canonical form (08 R209, R211; 09 R249, R250; what a byte that nothing has written reads as is free, log 3). -/
def Obligations.FarWriteReadsBack : Prop :=
  ∀ (s : State) (key pa : Nat) (d : Bytes), Memory.wf s.far = true → hbmFailed s (stackOf pa) = false →
    0 < d.length → pa % 64 + d.length ≤ 64 → (d.length = 64 ∨ s.ueLines.contains (pa / 64) = false) →
    let t := farWriteLine key (pa, d) s
    (∀ i, i < d.length → farByte t (pa + i) = d.getD i 0)
    ∧ (∀ a, a / 64 = pa / 64 → (a < pa ∨ pa + d.length ≤ a) → farReadByte t key a = farReadByte s key a)
    ∧ (∀ a, a / 64 ≠ pa / 64 → farByte t a = farByte s a ∧ ∀ k, farReadByte t k a = farReadByte s k a)
    ∧ farRead t key pa d.length = d
    ∧ (∀ l, l ≠ pa / 64 → mfind l t.lineKey = mfind l s.lineKey)
    ∧ Memory.wf t.far = true ∧ t.ops = s.ops ∧ t.keys = s.keys

/-! ### The host port -/

/-- A request to a management space: the block's own is read or written; another block's is forwarded by the root; a space beyond the torus, and another block's space at a block that is not the root, are refused. A breach of the host side is logged, answered Unsupported Request on its path where it must be answered, and a credit overrun makes the module retrain; one that comes while the port retrains waits for its end (10 R290; 11 R297, R298, R304, R309, R313, Table 11.7; the header of a request that the command does not carry is free, log 2). -/
def Obligations.HostRequestsAreServedOrRefused : Prop :=
  (∀ (s : State) (tc off width : Nat) (v : Word), HostServes s → self s < 64 → off + width ≤ 2 ^ 26 → 1 ≤ width →
      let q := fun (b : Nat) (write : Bool) => ({ tc := tc, write := write, addr := b * 2 ^ 26 + off, len := width, data := if write then leBytes width v.toNat else [] } : HostReq)
      let req := fun (b : Nat) (write : Bool) => exec (.hostMgmtRequest tc write (b * 2 ^ 26 + off) width v) s
      (hostBlocked s (q (self s) false) = false →
        req (self s) false = .next (after s (hostCplOk tc (self s * 2 ^ 26 + off) (leBytes width (accessRead (.host tc) off width s).1.toNat) (accessRead (.host tc) off width s).2)))
      ∧ (width ≤ 512 → hostBlocked s (q (self s) true) = false →
        req (self s) true = .next (after s (accessWrite (.host tc) off width (word (leNat (leBytes width v.toNat))) (hostRx width s))))
      ∧ (∀ b write, b < 64 → b < nblocks s → b ≠ self s → rootBlock s = self s → accessOk off width = true → hostBlocked s (q b write) = false → width ≤ 512 →
        req b write = .next (after s (forwardAccess b (q b write) off width (hostRx (q b write).data.length s))))
      ∧ (∀ b, b < 64 → nblocks s ≤ b → self s < nblocks s → hostBlocked s (q b false) = false →
        req b false = .next (after s (refuseHost VH.outOfSpace (q b false) s)))
      ∧ (∀ b, b < 64 → b < nblocks s → b ≠ self s → rootBlock s ≠ self s → hostBlocked s (q b false) = false →
        req b false = .next (after s (refuseHost VH.notRoot (q b false) s))))
  ∧ (∀ (s : State) (addr : Nat) (hdr : Word), HostServes s →
      (∀ tc, exec (.unsupportedRequest (.badTlp (some tc)) addr hdr) s = .next (after s (hostCplFail .unsupported tc (hostVlog VH.badTlp addr hdr s))))
      ∧ (exec (.unsupportedRequest (.badTlp none) addr hdr) s = .next (after s (hostVlog VH.badTlp addr hdr s)))
      ∧ (∀ tc, exec (.unsupportedRequest (.unsupported (some tc)) addr hdr) s = .next (after s (hostCplFail .unsupported tc (hostVlog VH.unsupported addr hdr s))))
      ∧ (exec (.unsupportedRequest (.unsupported none) addr hdr) s = .next (after s (hostVlog VH.unsupported addr hdr s)))
      ∧ (exec (.unsupportedRequest .poisoned addr hdr) s = .next (after s (hostVlog VH.poisoned addr hdr s)))
      ∧ (exec (.unsupportedRequest .unexpectedCpl addr hdr) s = .next (after s (hostVlog VH.unexpectedCpl addr hdr s)))
      ∧ (exec (.unsupportedRequest .creditOverrun addr hdr) s = .next (after s (hostRetrain (hostVlog VH.creditOverrun addr hdr s)))))
  ∧ (∀ (s : State) (req : BadRequest) (addr : Nat) (hdr : Word), s.up = true → s.pmode = 0 → lstate s = LS.retrain → s.hostHeld = [] → partReset s hostPart = false →
      exec (.unsupportedRequest req addr hdr) s = .next (after s { s with
        hostHeld := [{ tc := breachPath req, write := false, addr := addr, len := 0, data := [], bad := some (req, hdr) }] }))

/-- A request to the window is translated line by line and served, or refused, logged and counted while the window is disabled; one that fails at a line is counted, recorded if no earlier failure is, and a read ends with an abort; a write of more than the maximum payload is malformed; a piece that is not answered in time fails its request; the window is written with its unit's buffer emptied (11 R295, R299 to R302; the header of a request that the command does not carry is free, and the whole lines that a remote piece asks for are the model's choice, logs 2 and 20). -/
def Obligations.HostWindowServesOrFails : Prop :=
  ∀ s : State, HostServes s →
    (∀ tc off len, off + len ≤ 2 ^ 32 → 1 ≤ len →
      hostBlocked s { tc := tc, write := false, addr := 2 ^ 32 + off, len := len, data := [] } = false →
      exec (.hostWindowRequest tc false (2 ^ 32 + off) len []) s = .next (after s (winStart tc false off len [] s)))
    ∧ (∀ tc off len d, off + len ≤ 2 ^ 32 → 1 ≤ len → len ≤ 512 → d.length = len →
      hostBlocked s { tc := tc, write := true, addr := 2 ^ 32 + off, len := len, data := d } = false →
      exec (.hostWindowRequest tc true (2 ^ 32 + off) len d) s = .next (after s (winStart tc true off len d (hostRx len s))))
    ∧ (∀ tc off len d, off + len ≤ 2 ^ 32 → 512 < len → d.length = len →
      hostBlocked s { tc := tc, write := true, addr := 2 ^ 32 + off, len := len, data := d } = false →
      exec (.hostWindowRequest tc true (2 ^ 32 + off) len d) s = .next (after s (hostVlogOpen VH.badTlp (2 ^ 32 + off) (hostRx len s))))
    ∧ (fbit s R.HST_WIN_CFG F.HST_WIN_CFG_ENABLE = false → ∀ tc off len d,
      winStart tc false off len [] s = hostCplFail .unsupported tc (hostVlogOpen VH.winDisabled (2 ^ 32 + off) (bump1 R.CNT_HST_WIN_RD s))
      ∧ winStart tc true off len d s = hostVlogOpen VH.winDisabled (2 ^ 32 + off) (bump1 R.CNT_HST_WIN_WR s))
    ∧ (fbit s R.HST_WIN_CFG F.HST_WIN_CFG_ENABLE = true → ∀ tc write off len d x line kind u,
      winLines (fget s R.HST_WIN_CFG F.HST_WIN_CFG_BASE * 4096) write (spanLines off len) (lineOf off) []
        (bump1 (if write then R.CNT_HST_WIN_WR else R.CNT_HST_WIN_RD) s) = ((x, some (line, kind)), u) →
      winStart tc write off len d s = winFail tc write off line kind u)
    ∧ (∀ tc off line kind, let t := winFail tc false off line kind s
      rget t R.CNT_HST_WIN_FAULT = word (min (2 ^ 64 - 1) ((rget s R.CNT_HST_WIN_FAULT).toNat + 1)) ∧
      t.out.getLast? = some (.hostCpl tc .abort []) ∧ t.far = s.far ∧ t.ops = s.ops
        ∧ (fbit s R.HST_WIN_FAULT F.HST_WIN_FAULT_VALID = false → rget t R.HST_WIN_FAULT = word (fld 0 32 line + fld 32 4 kind + fld 37 1 1))
        ∧ (fbit s R.HST_WIN_FAULT F.HST_WIN_FAULT_VALID = true → rget t R.HST_WIN_FAULT = rget s R.HST_WIN_FAULT))
    ∧ (∀ tag f rid i, findFetch s tag = some f → f.dest = .window rid i → exec (.remoteTimeout tag) s = .next (after s (winPieceFail rid i WF.timeout s)))
    ∧ (∀ w, ready s = true → exec (.hstWinCfgWrite w) s = .next (outcome s { rset R.HST_WIN_CFG (word (fld 0 1 (wbits w 0 1) + fld 2 6 (wbits w 2 6) + fld 12 45 (wbits w 12 45))) s with
        l1 := mdel CLI.hostWin s.l1
        winReqs := s.winReqs.map fun w => { w with old := true } }))

/-- A completion of a read of host memory gives its bytes to the read's user, or fails the read; one that answers nothing is logged under a free address and header, as the command carries neither; one that comes while the port retrains, or while its partition is in reset, waits; a read without a completion in time fails (11 R303, R309, Table 11.7; 13 R347; 14 R375; the waits are the model's reading, log 61; the free address and header, log 2). -/
def Obligations.HostReadsEndByCompletionOrTimeout : Prop :=
  (∀ (s : State) (tag : Nat) (st : CplStatus) (data : Bytes), s.up = true → (lstate s = LS.retrain ∨ partReset s hostPart = true) →
    exec (.hostCompletion tag st data) s = .next (after s { s with crossing := s.crossing ++ [.completion tag st data] }))
  ∧ ∀ (s : State) (tag : Nat), s.up = true → lstate s = LS.up → partReset s hostPart = false →
    (findRead s tag = none → ∀ st data, exec (.hostCompletion tag st data) s =
        .next (after s (completeAll (settle (hostVlogOpen VH.unexpectedCpl (freeNat s).1 (freeNat s).2)))))
    ∧ (∀ r data, findRead s tag = some r → (data.length = r.len ∨ r.flush = true) →
      exec (.hostCompletion tag .success data) s = .next (after s (completeAll (settle (hostReadPump (readGot r data s))))))
    ∧ (∀ r st data, findRead s tag = some r → st ≠ .success → exec (.hostCompletion tag st data) s = .next (after s (completeAll (settle (hostReadPump (failRead r s))))))
    ∧ (∀ r data, findRead s tag = some r → data.length ≠ r.len → r.flush = false →
      exec (.hostCompletion tag .success data) s = .next (after s (completeAll (settle (hostReadPump (failRead r s))))))
    ∧ (∀ r, findRead s tag = some r → exec (.cplTimeout tag) s = .next (after s (hostReadPump (failRead r s))))
    ∧ (findRead s tag = none → exec (.cplTimeout tag) s = .next (after s s))

/-- The host module retrains with its writes held, from HELD too where the cause is the port's own; when it is up again it replays them, sends what queued behind them, in its order, and takes what its crossings held; it is as it was before, UP or HELD; it is lost past its limit, and by a reset or a disable; it trains again when the pin is released, comes up at once the first time and HELD after a loss, or leaves the port DOWN where its training fails, and RESUME takes it out of HELD (11 R295, R309, R310, Table 11.10; 12 R322; that a failed training is no loss of the host, and where a retrain from HELD ends, are the model's choice, logs 52 and 79). -/
def Obligations.HostPortRetrainsIsLostAndResumes : Prop :=
  ∀ s : State, s.up = true →
    (lstate s = LS.up → exec .hostPortRetrain s = .next (outcome s (setBit R.HST_STATUS 1 (bump1 R.CNT_HST_RETRAIN (setLstate LS.retrain { s with hstHeld := false })))))
    ∧ (lstate s = LS.held → exec .hostPortRetrain s = .next (outcome s (setBit R.HST_STATUS 1 (bump1 R.CNT_HST_RETRAIN (setLstate LS.retrain { s with hstHeld := true })))))
    ∧ (lstate s = LS.up → ready s = true → exec .hstRetrain s = .next (outcome s (setBit R.HST_STATUS 1 (bump1 R.CNT_HST_RETRAIN (setLstate LS.retrain { s with hstHeld := false })))))
    ∧ (lstate s ≠ LS.up → exec .hstRetrain s = .next (outcome s s))
    ∧ (lstate s = LS.retrain → exec .hostRetrainDone s = .next (after s (uncross (hostDrain (each (s.hwrites.filter (·.sent))
        (fun w s => emit (.hostWrite w.path w.addr w.data) (bump1 R.CNT_HST_WR_REPLAY s)) (setLstate (if s.hstHeld then LS.held else LS.up) { s with hstHeld := false }))))))
    ∧ (∀ w, lstate s = LS.retrain → s.hstHeld = false → s.hwrites = [w] → w.sent = true → s.hreads = [] → s.hostCpls = [] → s.crossing = [] → partReset s hostPart = false →
      exec .hostRetrainDone s = .next (after s (emit (.hostWrite w.path w.addr w.data) (bump1 R.CNT_HST_WR_REPLAY (setLstate LS.up s)))))
    ∧ (lstate s = LS.retrain → exec .retrainLimit s = .next (after s (loseHost s)))
    ∧ (∀ c, (lstate s = LS.up ∨ lstate s = LS.retrain ∨ lstate s = LS.held) → c ≠ .resetPin → c ≠ .untrained → exec (.hostLost c) s = .next (after s (loseHost s)))
    ∧ ((lstate s = LS.up ∨ lstate s = LS.retrain ∨ lstate s = LS.held) → s.straps.host = true →
      exec (.hostLost .resetPin) s = .next (after s (loseHost { s with hstRst := true })))
    ∧ (s.straps.host = true → 2 ≤ s.stage → wbit (word s.clocksBad) 16 = false → (lstate s = LS.down ∨ lstate s = LS.lost) →
      exec .hstRstRelease s = .next (outcome s (setLstate LS.training { s with hstRst := false })))
    ∧ (hostMayTrain s = true → lstate s = LS.training →
      exec .hostModuleTrained s = .next (after s (setLstate (if rget s R.CNT_HST_LOST == 0 then LS.up else LS.held) s))
      ∧ exec (.hostLost .untrained) s = .next (after s (setLstate LS.down s)))
    ∧ (lstate s = LS.training → s.straps.host = true →
      (rget s R.CNT_HST_LOST = 0 → exec (.hostLost .resetPin) s = .next (after s (setLstate LS.down { s with hstRst := true })))
      ∧ (rget s R.CNT_HST_LOST ≠ 0 → exec (.hostLost .resetPin) s = .next (after s (loseHost { s with hstRst := true }))))
    ∧ (ready s = true → lstate s = LS.held → exec .resume s = .next (after s (setLstate LS.up s)))

/-! ### The compute port -/

/-- A module is detected, comes up and the port with it, leaves service to retrain, is excluded if it does not come up in time, and is freed by the mask; the partner is lost by its reset pin or when no module has been up, which returns the excluded modules to DOWN, and is back with the pin where a module is UP. What waited for a module leaves when one is up, and what its crossings held is taken; the messages a dropped module had not had acknowledged are sent again (12 R320, R321; 13 R347; how many they are is the model's choice, log 92). -/
def Obligations.ComputeModulesAndPartner : Prop :=
  ∀ (s : State) (m : Nat), s.up = true → m < 8 → s.cptMods.length = 8 →
    (modState s m = CM.down → s.cptPrst = false → 2 ≤ s.stage → wbit (word s.clocksBad) 15 = false → exec (.cptModuleDetect m) s = .next (outcome s (setMod m CM.training s)))
    ∧ ((modState s m = CM.training ∨ modState s m = CM.again) → s.cptPrst = false → exec (.cptModuleUp m) s = .next (after s (uncross (cptFlush (setPstate 1 (setMod m CM.up s)))))
      ∧ (s.crossing = [] → s.cptHeld = [] → uncross (cptFlush (setPstate 1 (setMod m CM.up s))) = setPstate 1 (setMod m CM.up s)))
    ∧ (modState s m = CM.training → exec (.cptModuleExclude m) s = .next (outcome s (setMod m CM.excluded s)))
    ∧ (modState s m = CM.again → exec (.cptModuleExclude m) s = .next (outcome s (resendModule m (setBit R.CMD_CPT_LINK 23 (bump1 R.CNT_CPT_MOD_DROP (setMod m CM.excluded s))))))
    ∧ (modState s m = CM.up → exec (.cptModuleDown m) s = .next (outcome s (setMod m CM.again s)))
    ∧ (pstate s ≠ 2 → exec (.cptPartnerLost .resetPin) s = .next (after s (cptLost { s with cptPrst := true })))
    ∧ (pstate s = 2 → exec (.cptPartnerLost .resetPin) s = .next (after s { s with cptPrst := true }))
    ∧ ((cptLost s).cptMods = s.cptMods.map fun x => if x == CM.excluded then CM.down else x)
    ∧ (pstate s = 1 → modsUp s = 0 → exec (.cptPartnerLost .noModule) s = .next (after s (cptLost s)))
    ∧ (modsUp s ≠ 0 → exec .cptPrstRelease s = .next (outcome s (setPstate 1 { s with cptPrst := false })))
    ∧ (modsUp s = 0 → exec .cptPrstRelease s = .next (outcome s { s with cptPrst := false }))
    ∧ (ready s = true → modState s m = CM.excluded → Answers (.retrainMask (2 ^ m)) s fun t =>
      modState t m = CM.down ∧ (∀ k, k ≠ m → modState t k = modState s k) ∧ t.regs = s.regs ∧ t.far = s.far)

/-! ### Peer links -/

/-- A flit on a port that is UP: one that cannot be read, or whose CRC differs, is counted and asks for a resend; a good one returns its acknowledgement and credit and, if it is the one expected, is taken; a timer acknowledges, in an IDLE flit, whether or not anything is owed, and a port that is not UP sends none (10 R274 to R276; the payload of an IDLE flit and the bit order of the CRC are the model's choice, logs 21 and 37). -/
def Obligations.FlitsAreTakenInSequence : Prop :=
  ∀ (s : State) (k : Nat) (hdr : Word) (b : Bytes) (crc : Nat), s.up = true → k < 6 → portState s k = PS.up → b.length = 116 →
    (exec (.flitReceive k hdr b crc .uncorrectable) s = .next (outcome s (sendNak k (bump1 (R.CNT_LNK_Pk_FEC_UNCORR k) s))))
    ∧ (crc32 (leBytes 8 hdr.toNat ++ b) ≠ crc → exec (.flitReceive k hdr b crc .good) s = .next (outcome s (sendNak k (bump1 (R.CNT_LNK_Pk_CRC k) s))))
    ∧ (crc32 (leBytes 8 hdr.toNat ++ b) = crc → wbits hdr 0 2 = 0 → exec (.flitReceive k hdr b crc .good) s = .next (outcome s (pumpLinks (flitCredit k hdr (flitAck k hdr s)))))
    ∧ (crc32 (leBytes 8 hdr.toNat ++ b) = crc → wbits hdr 0 2 ≠ 0 → portState (flitCredit k hdr (flitAck k hdr s)) k = PS.up →
      exec (.flitReceive k hdr b crc .good) s = .next (outcome s (pumpLinks (flitSeq k hdr b (flitCredit k hdr (flitAck k hdr s))))))
    ∧ exec (.linkAckTimer k) s = .next (outcome s (sendAck k s))
    ∧ ∀ j, portState s j ≠ PS.up → exec (.linkAckTimer j) s = .next (outcome s s)

/-- Of the sequenced flits only the next one is accepted and counted: an earlier one is dropped without effect; a later one asks by a NAK, in an IDLE flit, for the resend of the one expected, no more than once in 500 ns; neither enters a buffer. The next one is accepted whatever its FTYPE: a HEAD or BODY flit enters the buffer of its class and VC where it has room, one of a reserved class or VC is put together apart, and one that has no room is a credit overrun, logged, at which the port retrains (10 R275, R276, Table 10.10; what an escape packet holds of its buffer, the payload of an IDLE flit and the bit order of the CRC are the model's choice, logs 21 and 37). -/
def Obligations.OnlyNextFlitIsAccepted : Prop :=
  ∀ (s : State) (k : Nat) (hdr : Word) (b : Bytes), k < 6 → s.ports.length = 6 →
    let d := (wbits hdr 7 12 + 4096 - (port s k).rxSeq % 4096) % 4096
    (d ≠ 0 → 2048 ≤ d → flitSeq k hdr b s = s)
    ∧ (d ≠ 0 → d < 2048 → (port (flitSeq k hdr b s) k).rxSeq = (port s k).rxSeq ∧ (port (flitSeq k hdr b s) k).part = (port s k).part
      ∧ (flitSeq k hdr b s).arrived = s.arrived ∧ (flitSeq k hdr b s).regs = s.regs ∧ flitSeq k hdr b s = sendNak k s)
    ∧ ((∀ n t, (port s k).nakSent = some (n, t) → n = (port s k).rxSeq → t + 500 ≤ s.aon) →
      sendNak k s = updPort k (fun q => { q with nakSent := some ((port s k).rxSeq, s.aon) }) (emitFlit k (idleHeader (port s k).rxSeq true true 15 0) (padTo 116 []) s))
    ∧ (∀ n, wbits (idleHeader n true true 15 0) 19 12 = n % 4096 ∧ wbit (idleHeader n true true 15 0) 31 = true ∧ wbit (idleHeader n true true 15 0) 32 = true)
    ∧ (∀ t, (port s k).nakSent = some ((port s k).rxSeq, t) → s.aon < t + 500 → sendNak k s = s)
    ∧ (port (acceptFlit k s) k).rxSeq = (port s k).rxSeq + 1 ∧ (acceptFlit k s).arrived = s.arrived
    ∧ (d = 0 → wbits hdr 0 2 = 3 → flitSeq k hdr b s = acceptFlit k s)
    ∧ (d = 0 → wbits hdr 0 2 ≠ 3 → wbits hdr 2 3 < 5 → wbits hdr 5 2 ≠ 3 →
      let i := 3 * wbits hdr 2 3 + wbits hdr 5 2
      (occupancy s k i < vcCap (wbits hdr 5 2) → flitSeq k hdr b s = takeFlit k i (wbits hdr 0 2 == 1) b (acceptFlit k s))
      ∧ (vcCap (wbits hdr 5 2) ≤ occupancy s k i → flitSeq k hdr b s = retrainPort k (vlog VK.creditOverrun (portSource k) 0 0 0 0 s)))
    ∧ (d = 0 → wbits hdr 0 2 ≠ 3 → (5 ≤ wbits hdr 2 3 ∨ wbits hdr 5 2 = 3) →
      flitSeq k hdr b s = takeFlit k (15 + 3 * (4 * wbits hdr 2 3 + wbits hdr 5 2)) (wbits hdr 0 2 == 1) b (acceptFlit k s))

/-- A port is trained step by step: its good lanes are found, its partner's identity is checked and the good lanes of each direction are those both ends found, widths follow, and it is UP; it retrains, comes back or leaves service, is disabled and enabled, and its partner's silence is reported. Without its reference clock it does not pass the first step (10 R271 to R273, R286 to R289; 01 R24: a port without a neighbour is not trained; 12 R328; which steps may fail after the fourth is the model's choice, log 21). -/
def Obligations.PortsTrainRetrainAndLeave : Prop :=
  ∀ (s : State) (k : Nat), s.up = true → k < 6 →
    (∀ i, portState s k = PS.training → (port s k).step = i → 1 ≤ i → i ≤ 3 → (i = 1 → clockBad s (11 + k) = false) →
      exec (.portTrainingStep k (.stepDone i)) s = .next (outcome s (updPort k (fun q => { q with step := i + 1 }) s)))
    ∧ (portState s k = PS.training → (port s k).step = 1 → clockBad s (11 + k) = true → exec (.portTrainingStep k (.stepDone 1)) s = .next (outcome s (trainingFails k s)))
    ∧ (portState s k = PS.training → (port s k).step = 4 → exec (.portTrainingStep k (.stepDone 4)) s =
        .next (outcome s (let t := updPort k (fun q => { q with step := 5 }) s; emit (.partner k (ownIdentity t k)) t)))
    ∧ (∀ tx rx, portState s k = PS.training → (port s k).step ≤ 4 → exec (.portTrainingStep k (.goodLanes tx rx)) s =
        .next (outcome s (fset (R.LNK_Pk_STATUS k) F.LNK_Pk_STATUS_TX_GOOD tx (fset (R.LNK_Pk_STATUS k) F.LNK_Pk_STATUS_RX_GOOD rx s))))
    ∧ (portState s k = PS.training → (port s k).step = 6 → exec (.portTrainingStep k (.stepDone 6)) s =
        .next (outcome s (
          let tx := fget s (R.LNK_Pk_STATUS k) F.LNK_Pk_STATUS_TX_GOOD
          let rx := fget s (R.LNK_Pk_STATUS k) F.LNK_Pk_STATUS_RX_GOOD
          if widthOf tx = 0 ∨ widthOf rx = 0 then trainingLost k PS.dead (setLanes k tx rx s)
          else updPort k (fun q => { q with step := 7 }) (setLanes k tx rx s))))
    ∧ (∀ i, portState s k = PS.training → (port s k).step = i → 1 ≤ i → i ≤ 4 → fget s (R.LNK_Pk_STATUS k) F.LNK_Pk_STATUS_TRIES < 2 →
      exec (.portTrainingStep k (.stepFailed i)) s = .next (outcome s (updPort k (fun q => { q with step := 1 })
        (setTries k (fget s (R.LNK_Pk_STATUS k) F.LNK_Pk_STATUS_TRIES + 1) s))))
    ∧ (∀ i, portState s k = PS.training → (port s k).step = i → 1 ≤ i → i ≤ 4 → 2 ≤ fget s (R.LNK_Pk_STATUS k) F.LNK_Pk_STATUS_TRIES →
      exec (.portTrainingStep k (.stepFailed i)) s = .next (outcome s (trainingLost k PS.dead (setTries k 3 s))))
    ∧ (∀ p, portState s k = PS.training → (port s k).step = 5 → identityOk s k p = false →
      exec (.portTrainingStep k (.identity p)) s = .next (outcome s (trainingLost k PS.mismatch (vlog VK.torusMismatch (portSource k) 0 0 0 0 s))))
    ∧ (∀ p, portState s k = PS.training → (port s k).step = 5 → identityOk s k p = true → exec (.portTrainingStep k (.identity p)) s =
        .next (outcome s (
          let a := fset (R.LNK_Pk_STATUS k) F.LNK_Pk_STATUS_RX_GOOD (fget s (R.LNK_Pk_STATUS k) F.LNK_Pk_STATUS_RX_GOOD &&& p.txGood) s
          let b := fset (R.LNK_Pk_STATUS k) F.LNK_Pk_STATUS_TX_GOOD (fget a (R.LNK_Pk_STATUS k) F.LNK_Pk_STATUS_TX_GOOD &&& p.rxGood) a
          updPort k (fun q => { q with step := 6 }) (fset (R.LNK_Pk_STATUS k) F.LNK_Pk_STATUS_PARTNER p.block
            (fset (R.LNK_Pk_STATUS k) F.LNK_Pk_STATUS_PARTNER_PORT p.port b)))))
    ∧ (portState s k = PS.training → (port s k).step = 7 → exec (.portTrainingStep k (.stepDone 7)) s = .next (outcome s (portUp k s)))
    ∧ (∀ c, portState s k = PS.up → exec (.portRetrainTrigger k c) s = .next (outcome s (linkEvent 0 k (bump1 R.CNT_LNK_RETRAIN
        (setPortState k PS.retrain (updPort k (fun q => { q with naks := 0 }) s))))))
    ∧ (ready s = true → portState s k = PS.up → exec (.lnkRetrain k) s = .next (outcome s (linkEvent 0 k (bump1 R.CNT_LNK_RETRAIN
        (setPortState k PS.retrain (updPort k (fun q => { q with naks := 0 }) s))))))
    ∧ (∀ tx rx, portState s k = PS.retrain → widthOf tx ≠ 0 → widthOf rx ≠ 0 → exec (.fastRetrainEnd k tx rx) s =
        .next (outcome s (let t := updPort k (fun q => { q with flits := 0 }) (setLanes k tx rx s)
          pumpLinks (sendMap k (raiseRecord k (markNarrow k (resend k (port t k).acked (setPortState k PS.up t))))))))
    ∧ (∀ tx rx, portState s k = PS.retrain → (widthOf tx = 0 ∨ widthOf rx = 0) → exec (.fastRetrainEnd k tx rx) s =
        .next (outcome s (portGone k PS.dead (updPort k (fun q => { q with flits := 0 }) (setLanes k tx rx s)))))
    ∧ (fbit s R.LNK_CFG F.LNK_CFG_BG_RETRAIN = true → portState s k = PS.dead → s.pmode ≠ 3 → s.pmode ≠ 5 → exec (.bgRetrain k) s = .next (outcome s (startTraining k s)))
    ∧ (ready s = true → (portState s k = PS.up ∨ portState s k = PS.retrain) → exec (.lnkDisable k) s = .next (outcome s (portGone k PS.disabled s)))
    ∧ (ready s = true → (portState s k = PS.dead ∨ portState s k = PS.mismatch ∨ portState s k = PS.disabled) → exec (.lnkEnable k) s = .next (outcome s (startTraining k s)))
    ∧ (∀ b, (port s k).handoff = true → neighbour s.straps (self s) k = some b → b ≠ self s → s.unreach.contains b = false →
      exec (.handoffTimeout k) s = .next (after s (updPort k (fun q => { q with handoff := false }) (declareUnreachable b (linkEvent 4 k s)))))
    ∧ (∀ b, (port s k).handoff = true → neighbour s.straps (self s) k = some b → s.unreach.contains b = true →
      exec (.handoffTimeout k) s = .next (after s (updPort k (fun q => { q with handoff := false }) (linkEvent 4 k s))))
    ∧ ((port s k).handoff = false → exec (.handoffTimeout k) s = .next (after s s))
    ∧ (portWired s k = false → startTraining k s = s)

/-- A record newer than the one held replaces it and goes on to every other port in service, and an older one changes nothing; the compass of the map is installed when it is due, an old generation's table is dropped, and a block that stays unreachable is lost; a compass that leaves a block without a route, other than those that had none, declares it (10 R281 to R283; 14 R379, R382; the layout of a record, and a migration whose new owner is lost after MIG_READY, are the model's choice, logs 21 and 23). -/
def Obligations.LinkStatesCompassAndLostBlocks : Prop :=
  ∀ s : State, s.up = true →
    (∀ k b r st w v, k < 6 → portState s k = PS.up → b < nblocks s → r < 6 → b ≠ self s →
      ((mfind (b * 8 + r) s.linkMap).map (·.version)).getD 0 < v →
      exec (.linkStateRecord k b r st w v) s = .next (outcome s (flood (some k) b r { state := st, width := w, version := v }
        (compassDue { s with linkMap := mput (b * 8 + r) { state := st, width := w, version := v } s.linkMap }))))
    ∧ (∀ k b r st w v, b < nblocks s → r < 6 → b ≠ self s → v ≤ ((mfind (b * 8 + r) s.linkMap).map (·.version)).getD 0 →
      exec (.linkStateRecord k b r st w v) s = .next (outcome s s))
    ∧ (fget s R.LNK_COMPASS_GEN F.LNK_COMPASS_GEN_PENDING ≠ 0 →
      exec .compassInstall s = .next (after s (compassInstall s)))
    ∧ (fget s R.LNK_COMPASS_GEN F.LNK_COMPASS_GEN_PENDING ≠ 0 → (∀ k < 6, (port s k).owes = false) →
      let c := computeCompass s.straps s.linkMap (self s)
      (∀ x ∈ c.2, x.2.esc = 7 → x.1 = self s ∨ s.unreach.contains x.1 = true) →
      (c.2.map fun x => (x.1, x.2.esc)) = ((List.range (nblocks s)).map fun d => (d, (compassOf s d).esc)) →
      exec .compassInstall s = .next (after s (pumpLinks (rset R.LNK_COMPASS_GEN (word (fld 0 8 (compassGen s) + fld 8 1 c.1)) { s with compass := c.2 }))))
    ∧ (∀ g, exec (.compassGenExpire g) s = .next (outcome s { s with oldEsc := mdel g s.oldEsc }))
    ∧ (∀ b, s.unreach.contains b = true → s.lost.contains b = false → exec (.lostTimeout b) s = .next (after s (migPeerGone b (loseBlock b s))))

/-! ### Migration -/

/-- START is accepted, or FAILED with the reason of the first condition that fails; CANCEL ends a migration whose last step's meridian has not begun (14 R383, R386; that a refusal at START makes no log entry is the model's reading, log 47). -/
def Obligations.MigrationsStartFailAndCancel : Prop :=
  ∀ s : State, s.up = true → ready s = true →
    let a := (stagedReg s R.MG_MIG_A).toNat
    let step := bits (stagedReg s R.MG_MIG_B).toNat 0 48
    let why := migRefusal s (bits a 0 4) (bits a 4 12) (bits a 16 16) (bits a 32 6) (bits a 38 6) step
    (∀ r, why = some r → exec .migStart s = .next (after s (setBit R.MG_FENCE_STATUS 4 (migShow 4 0 r 0 s))))
    ∧ (∀ d, why = none → findDesc s (bits a 0 4) (bits a 4 12) (bits a 16 16) = some d →
      let m : Mig := { slot := bits a 0 4, table := bits a 4 12, version := bits a 16 16, sheet := bits a 32 6, owner := d.sheetMap (bits a 32 6), dest := bits a 38 6,
                       step := step, next := 0, dirNext := 0, again := [], againDir := [], notBefore := 0, out := 0, last := false, withdrawn := false, cut := false }
      exec .migStart s = .next (after s (migPump (migShow (if migRole s m == 0 then 2 else 1) (migRole s m) 0 0 { s with mig := some m, migHeld := [] }))))
    ∧ (∀ m, s.mig = some m → merBegun s m.slot (m.step - 1) = false → exec .migCancel s = .next (after s (migFail 7 s)))
    ∧ (∀ m, s.mig = some m → merBegun s m.slot (m.step - 1) = true → exec .migCancel s = .next (after s s))

/-! ### Fences, resets of scopes, request epochs -/

/-- A fence cause isolates its core under a new request epoch and goes on to a spare; behind a fence in progress it waits; the spare's self-test ends the fence, or fences the spare under another epoch and seeks the next one. In stage 3, before the cores are enabled, a cause is recorded. A correctable error of a core is counted and fences nothing. A reset of a cluster or partition isolates every enabled core of it under one new request epoch, a partition's without its core supply, is shown, counted and logged; at its end the supply rises again at its rate, the cores that pass their self-test return and those that fail are fenced, and what its crossings held is taken. THERM_WARN_N follows the cores that are enabled. The journal page takes the epoch (12 R333; 13 R347, R350; 14 R366 to R371, R375; 15 R390, R400; the crossings, a fence in stage 3, the cause of a spare that fails and the log of a reset at its start are the model's reading, logs 31, 45 and 61). -/
def Obligations.FencesAndScopeResets : Prop :=
  (∀ (s : State) (core : Nat), s.up = true →
      (enabled s core = true → inScope s core = false → s.fence = none → s.fenceQ = [] →
        (∀ cause, (cause = 1 ∨ cause = 2) → 4 ≤ s.stage → exec (.coreFence core cause) s = .next (after s (warnCheck (nextFence 1 (beginFence core cause s)))))
        ∧ (4 ≤ s.stage → exec (.engineStall core) s = .next (after s (warnCheck (nextFence 1 (beginFence core 3 s)))))
        ∧ (ready s = true → exec (.fenceCoreCmd core) s = .next (after s (warnCheck (nextFence 1 (beginFence core 5 s))))))
      ∧ (s.stage = 3 → s.factory.getD core 0 ≠ 0 → (posOf s core).fenced = false →
        (∀ cause, (cause = 1 ∨ cause = 2) → exec (.coreFence core cause) s = .next (after s (warnCheck (recordFence core cause (raiseEpoch s)))))
        ∧ exec (.engineStall core) s = .next (after s (warnCheck (recordFence core 3 (raiseEpoch s)))))
      ∧ (∀ f cause, (cause = 1 ∨ cause = 2) → 4 ≤ s.stage → enabled s core = true → inScope s core = false → s.fence = some f → f.core ≠ core →
        s.fenceQ.any (fun x => x.1 == core) = false → exec (.coreFence core cause) s = .next (after s (warnCheck { s with fenceQ := s.fenceQ ++ [(core, cause)] })))
      ∧ (∀ f, s.fence = some f →
        let next := seekSpare f.core f.cause (recordFence f.spare 6 (raiseEpoch s))
        exec (.spareSelftestDone f.spare true) s = .next (after s (warnCheck (nextFence ((fenceWith f s).fenceQ.length + 1) (fenceWith f s))))
        ∧ exec (.spareSelftestDone f.spare false) s = .next (after s (warnCheck (nextFence (next.fenceQ.length + 1) next))))
      ∧ (3 ≤ s.stage → exec (.coreFence core 0) s = .next (after s (bump1 R.CNT_CORE_CE s)))
      ∧ placeEpoch (raiseEpoch s) = (placeEpoch s + 1) % 2 ^ 32 ∧ (raiseEpoch s).page = (recordPlace ((placeEpoch s + 1) % 2 ^ 32) s).page
      ∧ (pageValid s = true → pagePlace (raiseEpoch s) = (placeEpoch s + 1) % 2 ^ 32 ∧ pageKcv (raiseEpoch s) = pageKcv s))
  ∧ (∀ (s : State) (i : Nat), s.up = true →
      let c := fun (p : Bool) => ({ partition := p, index := i } : Scope)
      let cores := fun (p : Bool) => (c p).positions.filter fun k => enabled s k && !(posOf s k).isolated
      let gone := fun (p : Bool) => setBit R.MG_FENCE_STATUS 1 (each (cores p) isolateCore
        (raiseEpoch (if p then { s with scopes := s.scopes ++ [c p], volts := s.volts.set i 0 } else { s with scopes := s.scopes ++ [c p] })))
      (i < 16 → s.scopes.contains (c false) = false → ready s = true →
        exec (.clusterReset i false) s = .next (after s (bump1 R.CNT_CLUSTER_RESET (elog 0x02 EU.cluster i 1 0 0 (gone false)))))
      ∧ (i < 16 → s.scopes.contains (c false) = false →
        exec (.clusterReset i true) s = .next (after s (bump1 R.CNT_CLUSTER_RESET (elog 0x02 EU.cluster i 2 0 0 (gone false)))))
      ∧ (i < 4 → s.scopes.contains (c true) = false → ready s = true →
        exec (.partitionReset i) s = .next (after s (bump1 R.CNT_PART_RESET (elog 0x03 EU.partition i 1 0 0 (gone true)))))
      ∧ (∀ k r failed, s.scopes = k :: r → s.fence = none →
        let back : State := { s with scopes := r }
        let mine := k.positions.filter fun x => enabled s x && !inScope back x
        exec (.resetScopeEnd failed) s = .next (after s (cptFlush (hostDrain (uncross (warnCheck (each (mine.filter fun x => failed.contains x) (fun x s => fenceCause x 6 s)
          (each (mine.filter fun x => !failed.contains x) (fun x s => updPos x (fun p => { p with isolated := false }) s) back)))))))))

/-! ### Bring-up and configuration -/

/-- STAGE_END. Stage 1 goes on to stage 2 where every supply is in its range and a firmware slot that passes its checks may boot, and otherwise the block is REFUSED with REFUSED_AT = 1; stage 2 is REFUSED with REFUSED_AT = 2 where an HBM port fails; stage 5 of a WARM start is skipped; stage 8 waits for its keys, and in FULL then leaves the block ready (stage 9) with its ledger, gazetteer and job lines empty and lines 0 and 1 of the journal page written anew, FULL_REQ clear, under the epoch of the start; in REFUSED and once ready STAGE_END changes nothing. CLEAR_FIELD empties the field section of the repair map, its sets and lines among it, where the block is ready and no job slot is enabled, and otherwise changes nothing: a FAILED port stays so (12 R323; 15 R390 to R392, R397, R398, R403, R404; what makes an image's signature and version good is free, log 30). -/
def Obligations.StartGoesThroughItsStages : Prop :=
  ∀ (s : State) (r : StageResult), s.up = true →
    (s.stage = 1 → r.supplyOk % 2 ^ 14 = 2 ^ 14 - 1 → bootSlot s ≠ none → Answers (.stageEnd r) s fun t => t.stage = 2 ∧ t.far = s.far ∧ t.ops = s.ops)
    ∧ (s.stage = 1 → (r.supplyOk % 2 ^ 14 ≠ 2 ^ 14 - 1 ∨ bootSlot s = none) → Answers (.stageEnd r) s fun t =>
      t.stage = 10 ∧ fget t R.SRV_STATE F.SRV_STATE_REFUSED_AT = 1 ∧ t.far = s.far)
    ∧ (∀ i, bootSlot s = some i ↔ (i = s.fwPref ∧ fwValid s i = true) ∨ (i = 1 - s.fwPref ∧ fwValid s s.fwPref = false ∧ fwValid s i = true))
    ∧ (∀ i, fwValid s i = true ↔ (fwSlot s i).whole = true ∧ Config.fwSignatureOk (fwSlot s i).image = true ∧ Config.fwMinSecVersion ≤ Config.fwSecVersion (fwSlot s i).image)
    ∧ (∀ k, s.stage = 2 → k < 8 → hbmOk s r k = false → Answers (.stageEnd r) s fun t =>
      t.stage = 10 ∧ fget t R.SRV_STATE F.SRV_STATE_REFUSED_AT = 2 ∧ t.far = s.far)
    ∧ (s.stage = 5 → warmStart s = true → exec (.stageEnd r) s = .next (outcome s (endStage r true [] [] [] (beginStage 6) s)))
    ∧ (s.stage = 8 → s.keyWait = true → exec (.stageEnd r) s = .next (outcome s s))
    ∧ (s.stage = 8 → s.keyWait = false → s.startMode = 1 → s.ledgerGone = false → fbit s R.PWR_STATE F.PWR_STATE_WOKE = false → Answers (.stageEnd r) s fun t =>
      t.stage = 9 ∧ t.ledger = [] ∧ t.gaz = [] ∧ t.journal = [] ∧ t.page = (writePage false (keyCheck (keyOf s 0)) (placeEpoch s) s).page ∧ t.far = s.far)
    ∧ ((s.stage = 0 ∨ 9 ≤ s.stage) → exec (.stageEnd r) s = .next (outcome s s))
    ∧ (ready s = true → (List.range 16).any (slotOn s) = false → exec .clearField s = .next (outcome s { s with fieldRepair := [], repairList := [] }))
    ∧ ((ready s = false ∨ (List.range 16).any (slotOn s) = true) → exec .clearField s = .next (outcome s s))

/-- FULL_NEXT before the block is ready does nothing; once it is ready, it sets FULL_REQ in the journal page and changes nothing else; a start that finds FULL_REQ set is FULL; stage 8 of a full bring-up clears FULL_REQ (15 R391). -/
def Obligations.FullNextMakesTheNextStartFull : Prop :=
  ∀ s : State, s.up = true →
    (ready s = true → exec .fullNext s = .next (outcome s { s with page := (rewritePage true (pageKcv s) (pagePlace s) s).page }))
    ∧ (let t := rewritePage true (pageKcv s) (pagePlace s) s
      pageValid s = true → pageValid t = true ∧ pageFull t = true ∧ pageKcv t = pageKcv s ∧ pagePlace t = pagePlace s)
    ∧ (ready s = false → exec .fullNext s = .next (outcome s s))
    ∧ (∀ r, s.stage = 2 → pageFull s = true → (∀ k < 8, hbmOk s r k = true) → Answers (.stageEnd r) s fun t => t.startMode = 1 ∧ t.page = s.page)
    ∧ (∀ r, s.stage = 8 → s.keyWait = false → s.startMode = 1 → Answers (.stageEnd r) s fun t => pageValid t = true ∧ pageFull t = false)

/-- CHECK records PASS or the first failure; APPLY waits or is not accepted; the apply is made, or fails, once nothing runs, and waits for accesses to far memory that it reserves; DISCARD drops the staged values and a waiting apply. UPDATE is ignored before the block is ready; then it is refused, finds a bad source, or is accepted; its end keeps the image of a valid signature and version in the slot that does not run and prefers it (15 R405, R407 to R409; that the image is read under selector 1, and that an UPDATE before the block is ready is ignored, is the model's reading, logs 30 and 34; what an apply does with the slots' stores, log 29). -/
def Obligations.ConfigurationAndFirmwareAreChecked : Prop :=
  (∀ s : State, s.up = true → 2 ≤ s.stage → s.pmode = 0 →
      (pendingApply s = false → firstFail s = none → exec .check s = .next (outcome s (cfgResult 1 s)))
      ∧ (∀ x, pendingApply s = false → firstFail s = some x → exec .check s = .next (outcome s (cfgFailed x s)))
      ∧ (pendingApply s = false → ready s = true → exec .apply s = .next (outcome s (setPending true s)))
      ∧ (pendingApply s = false → ready s = false → exec .apply s = .next (outcome s (cfgResult 4 s)))
      ∧ (pendingApply s = true → running s = none → fenceBusy s = false → firstFail s = none →
        farLimit s ≤ farLimit (commitStaged s) ∨ farBusy s (farLimit (commitStaged s)) (farLimit s) = false →
        exec .applyCommit s = .next (after s (afterApply (bump1 R.CNT_CFG_APPLY (cfgResult 3 (commitStaged s))))))
      ∧ (pendingApply s = true → running s = none → fenceBusy s = false → firstFail s = none →
        farLimit (commitStaged s) < farLimit s → farBusy s (farLimit (commitStaged s)) (farLimit s) = true →
        exec .applyCommit s = .next (after s (dropWhere (mapsSpan (farLimit (commitStaged s)) (farLimit s)) s)))
      ∧ ((running s ≠ none ∨ fenceBusy s = true) → exec .applyCommit s = .next (after s s))
      ∧ (∀ x, pendingApply s = true → running s = none → fenceBusy s = false → firstFail s = some x → exec .applyCommit s = .next (after s (afterApply (cfgFailed x s))))
      ∧ (pendingApply s = false → exec .discard s = .next (after s { s with staged := [] }))
      ∧ (pendingApply s = true → exec .discard s = .next (after s (afterApply (cfgResult 5 { s with staged := [] })))))
  ∧ (∀ s : State, s.up = true → 2 ≤ s.stage →
      (ready s = false → exec .update s = .next (outcome s s))
      ∧ (s.fwBusy = false → ready s = true → (List.range 16).any (slotOn s) = true → exec .update s = .next (outcome s (fwResult 5 s)))
      ∧ (s.fwBusy = true → exec .update s = .next (outcome s s))
      ∧ (s.fwBusy = false → ready s = true → (List.range 16).any (slotOn s) = false → fwSourceOk s = false → exec .update s = .next (outcome s (fwResult 6 s)))
      ∧ (s.fwBusy = false → ready s = true → (List.range 16).any (slotOn s) = false → fwSourceOk s = true →
        exec .update s = .next (outcome s (fwResult 1 { s with fwBusy := true })))
      ∧ (s.fwBusy = true → exec .fwUpdateDone s = .next (outcome s (
          if Config.fwSignatureOk (fwImage s) = false then fwResult 3 { s with fwBusy := false }
          else if Config.fwSecVersion (fwImage s) < Config.fwMinSecVersion then fwResult 4 { s with fwBusy := false }
          else fwResult 2 { s with fwBusy := false, fwSlots := s.fwSlots.set (1 - s.fwRun) { whole := true, image := fwImage s }, fwPref := 1 - s.fwRun }))))

/-- The field that a check names fails, and every other failing field stands at a higher offset, or at the same one and a higher bit (15 R407; which bit of a field a condition names is the model's reading, log 28). -/
def Obligations.CheckNamesFirstFailingField : Prop :=
  ∀ s : State,
    (firstFail s = none ↔ checkAll s = [])
    ∧ ∀ x, firstFail s = some x → x ∈ checkAll s ∧ ∀ y ∈ checkAll s, x.1 * 64 + x.2 ≤ y.1 * 64 + y.2

/-! ### Counters, debug, registers -/

/-- SNAP copies every counter and every outstanding term at one instant, with its time, and is ignored while SNAP_BUSY is 1; SNAP_COMPLETE ends SNAP_BUSY. A write of CNT_PMSELi takes the selection and sets CNT_PMCi to zero. A write of CNT_FLAG_SUM clears the named flags in every engine. DEBUG_EN = 1 enters debug mode while TAP_UNLOCK is 1 and has no effect while it is 0; DEBUG_EN = 0 leaves it with the captured registers cleared. In debug mode CAPTURE sets BUSY, or UNAVAILABLE where the selection cannot be captured, and is ignored while BUSY; CAPTURE_DONE ends BUSY with what is held of the accumulator that DBG_SEL selected at the CAPTURE, VALID = 0 and zeros where there is none, and an NM_READ written with the CAPTURE follows it. In debug mode NM_READ shows a line of a vault in service as stored, with its parity, and of any other sets UNAVAILABLE. Outside debug mode CAPTURE and NM_READ have no effect; before the block is ready none of these writes has one (17 R441, R442, R444 to R448; 15 R399; which tile and column a selection names, and the parity shown, are the model's choice, logs 31 and 80; what has no layout is free, log 2). -/
def Obligations.SnapshotsCountersAndDebugView : Prop :=
  ∀ s : State, s.up = true →
    (ready s = true → s.snapBusy = false → Answers .snap s fun t => t.snapBusy = true ∧ rget t R.CNT_SNAP_TIME = word s.aon
      ∧ (∀ off, isCounter off = true → outstanding.all (fun x => x.1 != off) = true → mfind off t.snap = mfind off (s.regs.filter fun x => isCounter x.1))
      ∧ (∀ x ∈ outstanding, mfind x.1 t.snap = some (word (plainRead s x.1)))
      ∧ t.far = s.far ∧ t.ops = s.ops)
    ∧ (ready s = true → s.snapBusy = true → exec .snap s = .next (outcome s s))
    ∧ (exec .snapComplete s = .next (outcome s { s with snapBusy := false }))
    ∧ (∀ i w, ready s = true → i < 8 → exec (.cntPmselWrite i w) s = .next (outcome s (rset (R.CNT_PMCi i) 0 (rset (R.CNT_PMSELi i) (word (wbits w 0 22)) s))))
    ∧ (∀ w, ready s = true → Answers (.cntFlagSumWrite w) s fun t =>
      t.regs = s.regs.map (fun x => if isCoreFlags x.1 || isUnitFlags x.1 then (x.1, clearFlagWord (w.toNat % 16) x.2) else x) ∧ t.far = s.far ∧ t.ops = s.ops)
    ∧ (ready s = true → fbit s R.MG_TEST_CFG F.MG_TEST_CFG_TAP_UNLOCK = true → exec (.debugEn true) s = .next (outcome s (fset R.DBG_CTRL F.DBG_CTRL_DEBUG_EN 1 s)))
    ∧ (ready s = true → fbit s R.MG_TEST_CFG F.MG_TEST_CFG_TAP_UNLOCK = false → exec (.debugEn true) s = .next (outcome s s))
    ∧ (ready s = true → debugOn s = true → exec (.debugEn false) s = .next (outcome s (leaveDebug s)))
    ∧ (ready s = true → debugOn s = false → exec (.debugEn false) s = .next (outcome s s)
      ∧ exec .capture s = .next (outcome s s) ∧ exec .nmRead s = .next (outcome s s))
    ∧ (debugOn (leaveDebug s) = false ∧ ∀ o ∈ debugRegs, rget (leaveDebug s) o = 0)
    ∧ (ready s = true → s.capBusy = true → exec .capture s = .next (outcome s s))
    ∧ (ready s = true → debugOn s = true → s.capBusy = false → captureBad s = false → exec .capture s = .next (outcome s { unavailable false s with capBusy := true, capSel := rget s R.DBG_SEL })
      ∧ captureAndRead s = { unavailable false s with capBusy := true, capSel := rget s R.DBG_SEL, nmDue := some (rget s R.DBG_NM_SEL) })
    ∧ (ready s = true → debugOn s = true → s.capBusy = false → captureBad s = true → exec .capture s = .next (outcome s (unavailable true s)))
    ∧ (s.capBusy = false → exec .captureDone s = .next (outcome s s))
    ∧ (s.capBusy = true → exec .captureDone s = .next (outcome s (readDue (captureCopy { s with capBusy := false }))))
    ∧ (s.nmDue = none → readDue s = s)
    ∧ (∀ w, s.nmDue = some w → readDue s = nmReadAt w { s with nmDue := none })
    ∧ (badSel s.capSel s = true → captureCopy s = unavailable true s)
    ∧ (∀ c u, badSel s.capSel s = false → captured s.capSel s = (some c, u) →
      (wfield s.capSel F.DBG_SEL_KIND = 0 → captureCopy s =
        rset R.DBG_ACC2 (word (fld 0 9 (pattern 9 c.grid) + fld 9 2 c.pass + fld 37 1 1 + fld 38 4 c.queue))
          (rset R.DBG_ACC1 (word c.acc.steps) (rset R.DBG_ACC0 (word (pattern 64 c.acc.stage.toInt)) u)))
      ∧ (wfield s.capSel F.DBG_SEL_KIND ≠ 0 → captureCopy s =
        rset R.DBG_ACC2 (word (fld 0 9 (pattern 9 c.grid) + fld 9 2 c.pass + fld 37 1 1 + fld 38 4 c.queue + fld 11 26 (min c.acc.n (2 ^ 26 - 1))))
          (rset R.DBG_ACC1 (word (bits c.acc.acc.toNat 64 32 + c.acc.carry.toNat <<< 32)) (rset R.DBG_ACC0 (word (bits c.acc.acc.toNat 0 64)) u))))
    ∧ (∀ u, badSel s.capSel s = false → captured s.capSel s = (none, u) → captureCopy s = rset R.DBG_ACC2 0 (rset R.DBG_ACC1 0 (rset R.DBG_ACC0 0 u)))
    ∧ (ready s = true → debugOn s = true → enabled s (fget s R.DBG_NM_SEL F.DBG_NM_SEL_CORE) = true → (posOf s (fget s R.DBG_NM_SEL F.DBG_NM_SEL_CORE)).isolated = false →
      exec .nmRead s = .next (outcome s (
        let c := storedLine (fget s R.DBG_NM_SEL F.DBG_NM_SEL_CORE) (fget s R.DBG_NM_SEL F.DBG_NM_SEL_SET)
          (fget s R.DBG_NM_SEL F.DBG_NM_SEL_LINE) (unavailable false s)
        rset R.DBG_NM_PAR (word (lineParity c.1)) (each (List.range 8) (fun i s => rset (R.DBG_NM_DATAi i) (word (leAt c.1 (8 * i) 8)) s) c.2))))
    ∧ (ready s = true → debugOn s = true →
      (enabled s (fget s R.DBG_NM_SEL F.DBG_NM_SEL_CORE) = false ∨ (posOf s (fget s R.DBG_NM_SEL F.DBG_NM_SEL_CORE)).isolated = true) →
      exec .nmRead s = .next (outcome s (unavailable true s)))
    ∧ (ready s = false → ∀ i w on, exec .snap s = .next (outcome s s) ∧ exec (.cntPmselWrite i w) s = .next (outcome s s)
      ∧ exec (.cntFlagSumWrite w) s = .next (outcome s s) ∧ exec (.debugEn on) s = .next (outcome s s)
      ∧ exec .capture s = .next (outcome s s) ∧ exec .nmRead s = .next (outcome s s))

/-- An access of a register shows its value or takes its write; one of a wrong width or alignment is logged, reads as zero and writes nothing; an offset without a register reads as zero and takes nothing. An access of the host, or one forwarded to the block, wakes it from NAP; the management controller's does not (00 R9, R10; 13 R357; 15 R399; a row that writes one register by name carries no source, log 53; the header of the host's bad access is free, log 2). -/
def Obligations.RegisterAccessesReadAndWrite : Prop :=
  ∀ (s : State) (off width : Nat) (v : Word) (src : Source), s.up = true → 2 ≤ s.stage →
    let u := wakeSource src s
    ((s.pmode = 0 ∨ src = .controller) → u = s) ∧ (s.pmode = 1 → src ≠ .controller → u = leaveNap s)
    ∧ (width = 8 → off % 8 = 0 → exec (.registerRead src off width) s = .next (outcome s (emit (.regValue (readReg u off)) (dropLatch src u))))
    ∧ (accessOk off width = false → exec (.registerRead src off width) s = .next (outcome s (emit (.regValue 0) (badAccess src off (dropLatch src u)))))
    ∧ (accessOk off width = false → exec (.regAccessWrite src off width v) s = .next (outcome s (badAccess src off (dropLatch src u))))
    ∧ (∀ r, width = 8 → off % 8 = 0 → findRow off = some r → writable (dropLatch src u) off r = true → regActs off u = false →
      writeAction off r (2 ^ 64 - 1) v.toNat (dropLatch src u) = none →
      exec (.regAccessWrite src off width v) s = .next (outcome s (writeFields off r (2 ^ 64 - 1) v.toNat (dropLatch src u))))
    ∧ (width = 8 → off % 8 = 0 → findRow off = none →
      exec (.registerRead src off width) s = .next (outcome s (emit (.regValue 0) (dropLatch src u)))
      ∧ exec (.regAccessWrite src off width v) s = .next (outcome s (dropLatch src u)))

/-- A write of the whole of a register without staged fields or a mask field takes each bit by its access code: a read-write bit takes the data, a bit cleared by one is cleared by one and kept by zero, every other bit keeps its value; every other register stays (00 R10). -/
def Obligations.WriteTakesEachBitByItsAccess : Prop :=
  ∀ (s : State) (off : Nat) (r : RegRow) (v : Word), r.st = 0 → r.mn = 0 → r.rw &&& r.w1c = 0 → r.rw < 2 ^ 64 → r.w1c < 2 ^ 64 →
    let t := writeFields off r (2 ^ 64 - 1) v.toNat s
    (∀ i, i < 64 → (rget t off).getLsbD i =
      if r.rw.testBit i then v.getLsbD i else if r.w1c.testBit i then (rget s off).getLsbD i && !v.getLsbD i else (rget s off).getLsbD i)
    ∧ (∀ o, o ≠ off → rget t o = rget s o) ∧ t.far = s.far ∧ t.ops = s.ops ∧ t.staged = s.staged

/-- A 64-bit read gives all 64 bits of one instant; a source that reads the low half of a counter and then its high half sees both of one instant, whatever the counter has become in between; any other access of the source in between drops the latch; a 32-bit read of any other register gives its half at the instant of the read (17 R436). -/
def Obligations.CounterHalvesAreOfOneInstant : Prop :=
  (∀ (s : State) (src : Source) (off : Nat), off % 8 = 0 → (accessRead src off 8 s).1 = readReg s off)
  ∧ (∀ (s u : State) (src : Source) (off : Nat), off % 8 = 0 → isCounter off = true → (findRow off).isSome = true →
      let first := accessRead src off 4 s
      (u.lastAcc = first.2.lastAcc → u.halves = first.2.halves →
        first.1 = word (wbits (readReg s off) 0 32) ∧ (accessRead src (off + 4) 4 u).1 = word (wbits (readReg s off) 32 32))
      ∧ (∀ o w, (w = 4 → o % 8 = 0 → isCounter o = false) → (accessRead src o w first.2).2.halves = (dropLatch src first.2).halves
          ∧ (accessRead src o w first.2).2.lastAcc = (dropLatch src first.2).lastAcc
          ∧ mfind (sourceKey src) (accessRead src o w first.2).2.halves = none)
      ∧ (∀ v : State, mfind (sourceKey src) (dropLatch src v).halves = none)
      ∧ (∀ o w v, accessWrite src o w v first.2 =
          if accessOk o w then writeReg (o / 8 * 8) (accessMask o w) (v.toNat * 2 ^ (8 * (o % 8))) (dropLatch src first.2) else badAccess src o (dropLatch src first.2)))
  ∧ (∀ (s : State) (src : Source) (off : Nat), off % 4 = 0 → isCounter (off / 8 * 8) = false →
      (mfind (sourceKey src) s.halves = none ∨ mgetD (sourceKey src) 0 s.lastAcc ≠ off / 8 * 8) →
      (accessRead src off 4 s).1 = word (wbits (readReg s (off / 8 * 8)) (8 * (off % 8)) 32))

/-- An instrument acts under its condition, and outside it reads as zero and has no effect; one that has changed the lanes of a port leaves it in RETRAIN; the sensors, the pace meters, the repair map and the surveys are read at any time, in reset too; in DEEP, and without power, the TAP answers nothing; an access leaves it in Run-Test/Idle, TRST_N in Test-Logic-Reset, and TDO is driven in the two shift states alone (12 R335; 13 R364; 15 R410; the states of the TAP controller, IEEE 1149.1's, are presumed, log 94; that a port is left in RETRAIN whatever its state, log 54). -/
def Obligations.InstrumentsActUnderTheirCondition : Prop :=
  (∀ (s : State) (i : Instrument) (p : PortName) (pos : Nat), s.up = true →
      let u := afterAccess s
      u = { s with tap := .runTestIdle }
      ∧ (instrumentActs s i p pos = true → exec (.instrumentAccess i p pos false) s = .next (outcome s (emit (.instrument i p pos (instrumentData s i)) u)))
      ∧ (∀ l, instrumentActs s i p pos = false → exec (.instrumentAccess i p pos l) s = .next (outcome s (emit (.regValue 0) u)))
      ∧ (instrumentActs s i p pos = true → onLanes i = true → exec (.instrumentAccess i p pos true) s = .next (outcome s (leaveInRetrain p (emit (.instrument i p pos (instrumentData s i)) u))))
      ∧ ((i = .tempRead ∨ i = .paceRead ∨ i = .repairRead ∨ i = .surveyRead) → ∀ l, exec (.instrumentAccess i p pos l) s = .next (outcome s (emit (.instrument i p pos (instrumentData s i)) u))))
  ∧ (∀ (s : State) (i : Instrument) (p : PortName) (pos : Nat) (l : Bool), s.up = false →
      (tapPowered s = false → exec (.instrumentAccess i p pos l) s = .next s)
      ∧ (tapPowered s = true → instrumentActs s i p pos = true → exec (.instrumentAccess i p pos l) s = .next (emit (.instrument i p pos (instrumentData s i)) (afterAccess s)))
      ∧ (tapPowered s = true → instrumentActs s i p pos = false → exec (.instrumentAccess i p pos l) s = .next (emit (.regValue 0) (afterAccess s))))
  ∧ (∀ tms t, tapNext true tms t = .testLogicReset)
  ∧ (∀ s : State, tdoDriven s = true ↔ tapPowered s = true ∧ (s.tap = .shiftDr ∨ s.tap = .shiftIr))

/-! ### Pooling -/

/-- to_grid gives the integer nearest to x × 2^-G, ties to even; it sets inexact when that differs from x × 2^-G, and underflow when x is not zero and it is zero; a sum adds what it gives and rounds nothing more, whether the terms go through staging or past it: staging holds at most fifteen terms between two commands, and S with it is the exact sum (05 R127, R129, R130). -/
def Obligations.ToGridRoundsToNearestEven : Prop :=
  (∀ m e G : Int,
      let q := (toGrid (.num m e) G).1
      let f := (toGrid (.num m e) G).2
      let n : Int := m * 2 ^ (e - G).toNat
      let d : Nat := 2 ^ (G - e).toNat
      2 * (n - q * d).natAbs ≤ d ∧ (2 * (n - q * d).natAbs = d → q % 2 = 0)
      ∧ (f.inx = true ↔ q * d ≠ n) ∧ (f.unf = true ↔ m ≠ 0 ∧ q = 0) ∧ f.ovf = false ∧ f.inv = false)
  ∧ (∀ (mode k : Nat) (m e G : Int) (a : ColAcc), mode ≠ 2 → mode ≠ 3 → a.InStep → (toGrid (.num m e) G).1.natAbs < 2 ^ 79 →
      -(2 ^ 127 : Int) ≤ a.sum + k * (toGrid (.num m e) G).1 → a.sum + k * (toGrid (.num m e) G).1 < 2 ^ 127 →
      (a.add mode G (.num m e) k).1.sum = a.sum + k * (toGrid (.num m e) G).1)
  ∧ ColAcc.InStep {} ∧ (∀ (mode k : Nat) (G : Int) (v : Val) (a : ColAcc), a.InStep → (a.add mode G v k).1.InStep)
  ∧ (∀ a : ColAcc, a.promote.sum = a.sum ∧ a.promote.stage = 0 ∧ a.promote.steps = 0)

/-- The order in which the entries of a bag are added makes no difference to any finished accumulator of a sum, a mean or a weighted sum: once staging is promoted, every list of entries leaves what each of its rearrangements leaves (05 R126, R127, R129, R131, R136). -/
def Obligations.PoolingDoesNotDependOnOrder : Prop :=
  ∀ (mode : Nat) (g : Int) (l1 l2 : List (List (List Val) × Nat)) (accs : List ColAcc), mode ≠ 2 → mode ≠ 3 → (∀ a ∈ accs, a.InStep) → l1.Perm l2 →
    (l1.foldl (fun a e => (addEntry mode g a e.1 e.2).1) accs).map ColAcc.promote = (l2.foldl (fun a e => (addEntry mode g a e.1 e.2).1) accs).map ColAcc.promote
end

