-- ==== Sys2Proof/Laws/State.lean ====
section
/-! SUPPORT. What each basic update of the state changes and leaves: one conjunct per field, each true by rfl, so that no proof unfolds a record update. -/

namespace Sys2Proof.Machine

variable (s t : State)

/-- A register write changes the register file alone. -/
@[simp] theorem rset_frame (off : Nat) (w : Word) :
    (rset off w s).pending = s.pending ∧ (rset off w s).fresh = s.fresh ∧ (rset off w s).out = s.out ∧ (rset off w s).staged = s.staged ∧
    (rset off w s).aon = s.aon ∧ (rset off w s).vin = s.vin ∧ (rset off w s).pwrGood = s.pwrGood ∧ (rset off w s).blkRst = s.blkRst ∧
    (rset off w s).hstRst = s.hstRst ∧ (rset off w s).cptPrst = s.cptPrst ∧ (rset off w s).rstHigh = s.rstHigh ∧
    (rset off w s).released = s.released ∧ (rset off w s).hbmReleased = s.hbmReleased ∧ (rset off w s).selfRefresh = s.selfRefresh ∧
    (rset off w s).straps = s.straps ∧ (rset off w s).clocksBad = s.clocksBad ∧ (rset off w s).powered = s.powered ∧ (rset off w s).pmode = s.pmode ∧
    (rset off w s).modeAt = s.modeAt ∧ (rset off w s).therm = s.therm ∧ (rset off w s).pwrCeil = s.pwrCeil ∧ (rset off w s).volts = s.volts ∧
    (rset off w s).temps = s.temps ∧ (rset off w s).energy = s.energy ∧ (rset off w s).fast = s.fast ∧ (rset off w s).contourDue = s.contourDue ∧
    (rset off w s).tagNs = s.tagNs ∧ (rset off w s).deepOff = s.deepOff ∧ (rset off w s).deepWait = s.deepWait ∧ (rset off w s).stage = s.stage ∧
    (rset off w s).startMode = s.startMode ∧ (rset off w s).keyWait = s.keyWait ∧ (rset off w s).ledgerGone = s.ledgerGone ∧
    (rset off w s).page = s.page ∧ (rset off w s).journal = s.journal ∧ (rset off w s).resuming = s.resuming ∧ (rset off w s).stackId = s.stackId ∧
    (rset off w s).factory = s.factory ∧ (rset off w s).fieldRepair = s.fieldRepair ∧ (rset off w s).repairList = s.repairList ∧
    (rset off w s).fwSlots = s.fwSlots ∧ (rset off w s).fwRun = s.fwRun ∧ (rset off w s).fwPref = s.fwPref ∧ (rset off w s).fwBusy = s.fwBusy ∧
    (rset off w s).pos = s.pos ∧ (rset off w s).fence = s.fence ∧ (rset off w s).fenceQ = s.fenceQ ∧ (rset off w s).scopes = s.scopes ∧
    (rset off w s).queues = s.queues ∧ (rset off w s).rr = s.rr ∧ (rset off w s).ops = s.ops ∧ (rset off w s).elog = s.elog ∧
    (rset off w s).vlog = s.vlog ∧ (rset off w s).gaz = s.gaz ∧ (rset off w s).fetches = s.fetches ∧ (rset off w s).late = s.late ∧
    (rset off w s).tagWait = s.tagWait ∧ (rset off w s).spillWait = s.spillWait ∧ (rset off w s).spillAt = s.spillAt ∧
    (rset off w s).serves = s.serves ∧ (rset off w s).serveHeld = s.serveHeld ∧ (rset off w s).nextId = s.nextId ∧ (rset off w s).near = s.near ∧
    (rset off w s).vsets = s.vsets ∧ (rset off w s).pinPlan = s.pinPlan ∧ (rset off w s).pinSkip = s.pinSkip ∧ (rset off w s).nmErrs = s.nmErrs ∧
    (rset off w s).victim = s.victim ∧ (rset off w s).prefetched = s.prefetched ∧ (rset off w s).contours = s.contours ∧
    (rset off w s).idir = s.idir ∧ (rset off w s).markerM = s.markerM ∧ (rset off w s).pins = s.pins ∧ (rset off w s).awaits = s.awaits ∧
    (rset off w s).far = s.far ∧ (rset off w s).farGen = s.farGen ∧ (rset off w s).hbmDown = s.hbmDown ∧ (rset off w s).lineKey = s.lineKey ∧
    (rset off w s).ueLines = s.ueLines ∧ (rset off w s).ledger = s.ledger ∧ (rset off w s).flights = s.flights ∧ (rset off w s).jobs = s.jobs ∧
    (rset off w s).stores = s.stores ∧ (rset off w s).l1 = s.l1 ∧ (rset off w s).l2 = s.l2 ∧ (rset off w s).fq = s.fq ∧
    (rset off w s).fqGen = s.fqGen ∧ (rset off w s).parked = s.parked ∧ (rset off w s).unissued = s.unissued ∧ (rset off w s).reissued = s.reissued ∧
    (rset off w s).keys = s.keys ∧ (rset off w s).privKey = s.privKey ∧ (rset off w s).keyData = s.keyData ∧ (rset off w s).keyPend = s.keyPend ∧
    (rset off w s).hot = s.hot ∧ (rset off w s).hotHeld = s.hotHeld ∧ (rset off w s).hotRing = s.hotRing ∧ (rset off w s).inval = s.inval ∧
    (rset off w s).ports = s.ports ∧ (rset off w s).linkMap = s.linkMap ∧ (rset off w s).compass = s.compass ∧ (rset off w s).oldEsc = s.oldEsc ∧
    (rset off w s).sendQ = s.sendQ ∧ (rset off w s).ostreams = s.ostreams ∧ (rset off w s).holds = s.holds ∧ (rset off w s).fwd = s.fwd ∧
    (rset off w s).nextReq = s.nextReq ∧ (rset off w s).unreach = s.unreach ∧ (rset off w s).arrived = s.arrived ∧ (rset off w s).kept = s.kept ∧
    (rset off w s).hreads = s.hreads ∧ (rset off w s).hwrites = s.hwrites ∧ (rset off w s).hostCpls = s.hostCpls ∧
    (rset off w s).hostSeq = s.hostSeq ∧ (rset off w s).hostHeld = s.hostHeld ∧ (rset off w s).hstHeld = s.hstHeld ∧
    (rset off w s).winReqs = s.winReqs ∧ (rset off w s).cptMods = s.cptMods ∧ (rset off w s).cptSent = s.cptSent ∧
    (rset off w s).cptHeld = s.cptHeld ∧ (rset off w s).crossing = s.crossing ∧ (rset off w s).tap = s.tap ∧ (rset off w s).lost = s.lost ∧
    (rset off w s).restart = s.restart ∧ (rset off w s).replies = s.replies ∧ (rset off w s).mig = s.mig ∧ (rset off w s).migHeld = s.migHeld ∧
    (rset off w s).snap = s.snap ∧ (rset off w s).snapBusy = s.snapBusy ∧ (rset off w s).halves = s.halves ∧ (rset off w s).capBusy = s.capBusy ∧
    (rset off w s).capSel = s.capSel ∧ (rset off w s).nmDue = s.nmDue ∧ (rset off w s).lastAcc = s.lastAcc := by
  and_intros <;> rfl

/-- An output changes the outputs alone. -/
@[simp] theorem emit_frame (o : Out) :
    (emit o s).pending = s.pending ∧ (emit o s).fresh = s.fresh ∧ (emit o s).regs = s.regs ∧ (emit o s).staged = s.staged ∧ (emit o s).aon = s.aon ∧
    (emit o s).vin = s.vin ∧ (emit o s).pwrGood = s.pwrGood ∧ (emit o s).blkRst = s.blkRst ∧ (emit o s).hstRst = s.hstRst ∧
    (emit o s).cptPrst = s.cptPrst ∧ (emit o s).rstHigh = s.rstHigh ∧ (emit o s).released = s.released ∧ (emit o s).hbmReleased = s.hbmReleased ∧
    (emit o s).selfRefresh = s.selfRefresh ∧ (emit o s).straps = s.straps ∧ (emit o s).clocksBad = s.clocksBad ∧ (emit o s).powered = s.powered ∧
    (emit o s).pmode = s.pmode ∧ (emit o s).modeAt = s.modeAt ∧ (emit o s).therm = s.therm ∧ (emit o s).pwrCeil = s.pwrCeil ∧
    (emit o s).volts = s.volts ∧ (emit o s).temps = s.temps ∧ (emit o s).energy = s.energy ∧ (emit o s).fast = s.fast ∧
    (emit o s).contourDue = s.contourDue ∧ (emit o s).tagNs = s.tagNs ∧ (emit o s).deepOff = s.deepOff ∧ (emit o s).deepWait = s.deepWait ∧
    (emit o s).stage = s.stage ∧ (emit o s).startMode = s.startMode ∧ (emit o s).keyWait = s.keyWait ∧ (emit o s).ledgerGone = s.ledgerGone ∧
    (emit o s).page = s.page ∧ (emit o s).journal = s.journal ∧ (emit o s).resuming = s.resuming ∧ (emit o s).stackId = s.stackId ∧
    (emit o s).factory = s.factory ∧ (emit o s).fieldRepair = s.fieldRepair ∧ (emit o s).repairList = s.repairList ∧ (emit o s).fwSlots = s.fwSlots ∧
    (emit o s).fwRun = s.fwRun ∧ (emit o s).fwPref = s.fwPref ∧ (emit o s).fwBusy = s.fwBusy ∧ (emit o s).pos = s.pos ∧ (emit o s).fence = s.fence ∧
    (emit o s).fenceQ = s.fenceQ ∧ (emit o s).scopes = s.scopes ∧ (emit o s).queues = s.queues ∧ (emit o s).rr = s.rr ∧ (emit o s).ops = s.ops ∧
    (emit o s).elog = s.elog ∧ (emit o s).vlog = s.vlog ∧ (emit o s).gaz = s.gaz ∧ (emit o s).fetches = s.fetches ∧ (emit o s).late = s.late ∧
    (emit o s).tagWait = s.tagWait ∧ (emit o s).spillWait = s.spillWait ∧ (emit o s).spillAt = s.spillAt ∧ (emit o s).serves = s.serves ∧
    (emit o s).serveHeld = s.serveHeld ∧ (emit o s).nextId = s.nextId ∧ (emit o s).near = s.near ∧ (emit o s).vsets = s.vsets ∧
    (emit o s).pinPlan = s.pinPlan ∧ (emit o s).pinSkip = s.pinSkip ∧ (emit o s).nmErrs = s.nmErrs ∧ (emit o s).victim = s.victim ∧
    (emit o s).prefetched = s.prefetched ∧ (emit o s).contours = s.contours ∧ (emit o s).idir = s.idir ∧ (emit o s).markerM = s.markerM ∧
    (emit o s).pins = s.pins ∧ (emit o s).awaits = s.awaits ∧ (emit o s).far = s.far ∧ (emit o s).farGen = s.farGen ∧ (emit o s).hbmDown = s.hbmDown ∧
    (emit o s).lineKey = s.lineKey ∧ (emit o s).ueLines = s.ueLines ∧ (emit o s).ledger = s.ledger ∧ (emit o s).flights = s.flights ∧
    (emit o s).jobs = s.jobs ∧ (emit o s).stores = s.stores ∧ (emit o s).l1 = s.l1 ∧ (emit o s).l2 = s.l2 ∧ (emit o s).fq = s.fq ∧
    (emit o s).fqGen = s.fqGen ∧ (emit o s).parked = s.parked ∧ (emit o s).unissued = s.unissued ∧ (emit o s).reissued = s.reissued ∧
    (emit o s).keys = s.keys ∧ (emit o s).privKey = s.privKey ∧ (emit o s).keyData = s.keyData ∧ (emit o s).keyPend = s.keyPend ∧
    (emit o s).hot = s.hot ∧ (emit o s).hotHeld = s.hotHeld ∧ (emit o s).hotRing = s.hotRing ∧ (emit o s).inval = s.inval ∧
    (emit o s).ports = s.ports ∧ (emit o s).linkMap = s.linkMap ∧ (emit o s).compass = s.compass ∧ (emit o s).oldEsc = s.oldEsc ∧
    (emit o s).sendQ = s.sendQ ∧ (emit o s).ostreams = s.ostreams ∧ (emit o s).holds = s.holds ∧ (emit o s).fwd = s.fwd ∧
    (emit o s).nextReq = s.nextReq ∧ (emit o s).unreach = s.unreach ∧ (emit o s).arrived = s.arrived ∧ (emit o s).kept = s.kept ∧
    (emit o s).hreads = s.hreads ∧ (emit o s).hwrites = s.hwrites ∧ (emit o s).hostCpls = s.hostCpls ∧ (emit o s).hostSeq = s.hostSeq ∧
    (emit o s).hostHeld = s.hostHeld ∧ (emit o s).hstHeld = s.hstHeld ∧ (emit o s).winReqs = s.winReqs ∧ (emit o s).cptMods = s.cptMods ∧
    (emit o s).cptSent = s.cptSent ∧ (emit o s).cptHeld = s.cptHeld ∧ (emit o s).crossing = s.crossing ∧ (emit o s).tap = s.tap ∧
    (emit o s).lost = s.lost ∧ (emit o s).restart = s.restart ∧ (emit o s).replies = s.replies ∧ (emit o s).mig = s.mig ∧
    (emit o s).migHeld = s.migHeld ∧ (emit o s).snap = s.snap ∧ (emit o s).snapBusy = s.snapBusy ∧ (emit o s).halves = s.halves ∧
    (emit o s).capBusy = s.capBusy ∧ (emit o s).capSel = s.capSel ∧ (emit o s).nmDue = s.nmDue ∧ (emit o s).lastAcc = s.lastAcc := by
  and_intros <;> rfl

/-- A change of an operation. -/
@[simp] theorem updOp_frame (q seq : Nat) (f : Op → Op) :
    (updOp q seq f s).pending = s.pending ∧ (updOp q seq f s).fresh = s.fresh ∧ (updOp q seq f s).out = s.out ∧ (updOp q seq f s).regs = s.regs ∧
    (updOp q seq f s).staged = s.staged ∧ (updOp q seq f s).aon = s.aon ∧ (updOp q seq f s).vin = s.vin ∧ (updOp q seq f s).pwrGood = s.pwrGood ∧
    (updOp q seq f s).blkRst = s.blkRst ∧ (updOp q seq f s).hstRst = s.hstRst ∧ (updOp q seq f s).cptPrst = s.cptPrst ∧
    (updOp q seq f s).rstHigh = s.rstHigh ∧ (updOp q seq f s).released = s.released ∧ (updOp q seq f s).hbmReleased = s.hbmReleased ∧
    (updOp q seq f s).selfRefresh = s.selfRefresh ∧ (updOp q seq f s).straps = s.straps ∧ (updOp q seq f s).clocksBad = s.clocksBad ∧
    (updOp q seq f s).powered = s.powered ∧ (updOp q seq f s).pmode = s.pmode ∧ (updOp q seq f s).modeAt = s.modeAt ∧
    (updOp q seq f s).therm = s.therm ∧ (updOp q seq f s).pwrCeil = s.pwrCeil ∧ (updOp q seq f s).volts = s.volts ∧
    (updOp q seq f s).temps = s.temps ∧ (updOp q seq f s).energy = s.energy ∧ (updOp q seq f s).fast = s.fast ∧
    (updOp q seq f s).contourDue = s.contourDue ∧ (updOp q seq f s).tagNs = s.tagNs ∧ (updOp q seq f s).deepOff = s.deepOff ∧
    (updOp q seq f s).deepWait = s.deepWait ∧ (updOp q seq f s).stage = s.stage ∧ (updOp q seq f s).startMode = s.startMode ∧
    (updOp q seq f s).keyWait = s.keyWait ∧ (updOp q seq f s).ledgerGone = s.ledgerGone ∧ (updOp q seq f s).page = s.page ∧
    (updOp q seq f s).journal = s.journal ∧ (updOp q seq f s).resuming = s.resuming ∧ (updOp q seq f s).stackId = s.stackId ∧
    (updOp q seq f s).factory = s.factory ∧ (updOp q seq f s).fieldRepair = s.fieldRepair ∧ (updOp q seq f s).repairList = s.repairList ∧
    (updOp q seq f s).fwSlots = s.fwSlots ∧ (updOp q seq f s).fwRun = s.fwRun ∧ (updOp q seq f s).fwPref = s.fwPref ∧
    (updOp q seq f s).fwBusy = s.fwBusy ∧ (updOp q seq f s).pos = s.pos ∧ (updOp q seq f s).fence = s.fence ∧ (updOp q seq f s).fenceQ = s.fenceQ ∧
    (updOp q seq f s).scopes = s.scopes ∧ (updOp q seq f s).queues = s.queues ∧ (updOp q seq f s).rr = s.rr ∧ (updOp q seq f s).elog = s.elog ∧
    (updOp q seq f s).vlog = s.vlog ∧ (updOp q seq f s).gaz = s.gaz ∧ (updOp q seq f s).fetches = s.fetches ∧ (updOp q seq f s).late = s.late ∧
    (updOp q seq f s).tagWait = s.tagWait ∧ (updOp q seq f s).spillWait = s.spillWait ∧ (updOp q seq f s).spillAt = s.spillAt ∧
    (updOp q seq f s).serves = s.serves ∧ (updOp q seq f s).serveHeld = s.serveHeld ∧ (updOp q seq f s).nextId = s.nextId ∧
    (updOp q seq f s).near = s.near ∧ (updOp q seq f s).vsets = s.vsets ∧ (updOp q seq f s).pinPlan = s.pinPlan ∧
    (updOp q seq f s).pinSkip = s.pinSkip ∧ (updOp q seq f s).nmErrs = s.nmErrs ∧ (updOp q seq f s).victim = s.victim ∧
    (updOp q seq f s).prefetched = s.prefetched ∧ (updOp q seq f s).contours = s.contours ∧ (updOp q seq f s).idir = s.idir ∧
    (updOp q seq f s).markerM = s.markerM ∧ (updOp q seq f s).pins = s.pins ∧ (updOp q seq f s).awaits = s.awaits ∧ (updOp q seq f s).far = s.far ∧
    (updOp q seq f s).farGen = s.farGen ∧ (updOp q seq f s).hbmDown = s.hbmDown ∧ (updOp q seq f s).lineKey = s.lineKey ∧
    (updOp q seq f s).ueLines = s.ueLines ∧ (updOp q seq f s).ledger = s.ledger ∧ (updOp q seq f s).flights = s.flights ∧
    (updOp q seq f s).jobs = s.jobs ∧ (updOp q seq f s).stores = s.stores ∧ (updOp q seq f s).l1 = s.l1 ∧ (updOp q seq f s).l2 = s.l2 ∧
    (updOp q seq f s).fq = s.fq ∧ (updOp q seq f s).fqGen = s.fqGen ∧ (updOp q seq f s).parked = s.parked ∧ (updOp q seq f s).unissued = s.unissued ∧
    (updOp q seq f s).reissued = s.reissued ∧ (updOp q seq f s).keys = s.keys ∧ (updOp q seq f s).privKey = s.privKey ∧
    (updOp q seq f s).keyData = s.keyData ∧ (updOp q seq f s).keyPend = s.keyPend ∧ (updOp q seq f s).hot = s.hot ∧
    (updOp q seq f s).hotHeld = s.hotHeld ∧ (updOp q seq f s).hotRing = s.hotRing ∧ (updOp q seq f s).inval = s.inval ∧
    (updOp q seq f s).ports = s.ports ∧ (updOp q seq f s).linkMap = s.linkMap ∧ (updOp q seq f s).compass = s.compass ∧
    (updOp q seq f s).oldEsc = s.oldEsc ∧ (updOp q seq f s).sendQ = s.sendQ ∧ (updOp q seq f s).ostreams = s.ostreams ∧
    (updOp q seq f s).holds = s.holds ∧ (updOp q seq f s).fwd = s.fwd ∧ (updOp q seq f s).nextReq = s.nextReq ∧
    (updOp q seq f s).unreach = s.unreach ∧ (updOp q seq f s).arrived = s.arrived ∧ (updOp q seq f s).kept = s.kept ∧
    (updOp q seq f s).hreads = s.hreads ∧ (updOp q seq f s).hwrites = s.hwrites ∧ (updOp q seq f s).hostCpls = s.hostCpls ∧
    (updOp q seq f s).hostSeq = s.hostSeq ∧ (updOp q seq f s).hostHeld = s.hostHeld ∧ (updOp q seq f s).hstHeld = s.hstHeld ∧
    (updOp q seq f s).winReqs = s.winReqs ∧ (updOp q seq f s).cptMods = s.cptMods ∧ (updOp q seq f s).cptSent = s.cptSent ∧
    (updOp q seq f s).cptHeld = s.cptHeld ∧ (updOp q seq f s).crossing = s.crossing ∧ (updOp q seq f s).tap = s.tap ∧
    (updOp q seq f s).lost = s.lost ∧ (updOp q seq f s).restart = s.restart ∧ (updOp q seq f s).replies = s.replies ∧ (updOp q seq f s).mig = s.mig ∧
    (updOp q seq f s).migHeld = s.migHeld ∧ (updOp q seq f s).snap = s.snap ∧ (updOp q seq f s).snapBusy = s.snapBusy ∧
    (updOp q seq f s).halves = s.halves ∧ (updOp q seq f s).capBusy = s.capBusy ∧ (updOp q seq f s).capSel = s.capSel ∧
    (updOp q seq f s).nmDue = s.nmDue ∧ (updOp q seq f s).lastAcc = s.lastAcc := by
  and_intros <;> rfl

/-- A change of a queue. -/
@[simp] theorem updQueue_frame (j : Nat) (f : Queue → Queue) :
    (updQueue j f s).pending = s.pending ∧ (updQueue j f s).fresh = s.fresh ∧ (updQueue j f s).out = s.out ∧ (updQueue j f s).regs = s.regs ∧
    (updQueue j f s).staged = s.staged ∧ (updQueue j f s).aon = s.aon ∧ (updQueue j f s).vin = s.vin ∧ (updQueue j f s).pwrGood = s.pwrGood ∧
    (updQueue j f s).blkRst = s.blkRst ∧ (updQueue j f s).hstRst = s.hstRst ∧ (updQueue j f s).cptPrst = s.cptPrst ∧
    (updQueue j f s).rstHigh = s.rstHigh ∧ (updQueue j f s).released = s.released ∧ (updQueue j f s).hbmReleased = s.hbmReleased ∧
    (updQueue j f s).selfRefresh = s.selfRefresh ∧ (updQueue j f s).straps = s.straps ∧ (updQueue j f s).clocksBad = s.clocksBad ∧
    (updQueue j f s).powered = s.powered ∧ (updQueue j f s).pmode = s.pmode ∧ (updQueue j f s).modeAt = s.modeAt ∧ (updQueue j f s).therm = s.therm ∧
    (updQueue j f s).pwrCeil = s.pwrCeil ∧ (updQueue j f s).volts = s.volts ∧ (updQueue j f s).temps = s.temps ∧ (updQueue j f s).energy = s.energy ∧
    (updQueue j f s).fast = s.fast ∧ (updQueue j f s).contourDue = s.contourDue ∧ (updQueue j f s).tagNs = s.tagNs ∧
    (updQueue j f s).deepOff = s.deepOff ∧ (updQueue j f s).deepWait = s.deepWait ∧ (updQueue j f s).stage = s.stage ∧
    (updQueue j f s).startMode = s.startMode ∧ (updQueue j f s).keyWait = s.keyWait ∧ (updQueue j f s).ledgerGone = s.ledgerGone ∧
    (updQueue j f s).page = s.page ∧ (updQueue j f s).journal = s.journal ∧ (updQueue j f s).resuming = s.resuming ∧
    (updQueue j f s).stackId = s.stackId ∧ (updQueue j f s).factory = s.factory ∧ (updQueue j f s).fieldRepair = s.fieldRepair ∧
    (updQueue j f s).repairList = s.repairList ∧ (updQueue j f s).fwSlots = s.fwSlots ∧ (updQueue j f s).fwRun = s.fwRun ∧
    (updQueue j f s).fwPref = s.fwPref ∧ (updQueue j f s).fwBusy = s.fwBusy ∧ (updQueue j f s).pos = s.pos ∧ (updQueue j f s).fence = s.fence ∧
    (updQueue j f s).fenceQ = s.fenceQ ∧ (updQueue j f s).scopes = s.scopes ∧ (updQueue j f s).rr = s.rr ∧ (updQueue j f s).ops = s.ops ∧
    (updQueue j f s).elog = s.elog ∧ (updQueue j f s).vlog = s.vlog ∧ (updQueue j f s).gaz = s.gaz ∧ (updQueue j f s).fetches = s.fetches ∧
    (updQueue j f s).late = s.late ∧ (updQueue j f s).tagWait = s.tagWait ∧ (updQueue j f s).spillWait = s.spillWait ∧
    (updQueue j f s).spillAt = s.spillAt ∧ (updQueue j f s).serves = s.serves ∧ (updQueue j f s).serveHeld = s.serveHeld ∧
    (updQueue j f s).nextId = s.nextId ∧ (updQueue j f s).near = s.near ∧ (updQueue j f s).vsets = s.vsets ∧ (updQueue j f s).pinPlan = s.pinPlan ∧
    (updQueue j f s).pinSkip = s.pinSkip ∧ (updQueue j f s).nmErrs = s.nmErrs ∧ (updQueue j f s).victim = s.victim ∧
    (updQueue j f s).prefetched = s.prefetched ∧ (updQueue j f s).contours = s.contours ∧ (updQueue j f s).idir = s.idir ∧
    (updQueue j f s).markerM = s.markerM ∧ (updQueue j f s).pins = s.pins ∧ (updQueue j f s).awaits = s.awaits ∧ (updQueue j f s).far = s.far ∧
    (updQueue j f s).farGen = s.farGen ∧ (updQueue j f s).hbmDown = s.hbmDown ∧ (updQueue j f s).lineKey = s.lineKey ∧
    (updQueue j f s).ueLines = s.ueLines ∧ (updQueue j f s).ledger = s.ledger ∧ (updQueue j f s).flights = s.flights ∧
    (updQueue j f s).jobs = s.jobs ∧ (updQueue j f s).stores = s.stores ∧ (updQueue j f s).l1 = s.l1 ∧ (updQueue j f s).l2 = s.l2 ∧
    (updQueue j f s).fq = s.fq ∧ (updQueue j f s).fqGen = s.fqGen ∧ (updQueue j f s).parked = s.parked ∧ (updQueue j f s).unissued = s.unissued ∧
    (updQueue j f s).reissued = s.reissued ∧ (updQueue j f s).keys = s.keys ∧ (updQueue j f s).privKey = s.privKey ∧
    (updQueue j f s).keyData = s.keyData ∧ (updQueue j f s).keyPend = s.keyPend ∧ (updQueue j f s).hot = s.hot ∧
    (updQueue j f s).hotHeld = s.hotHeld ∧ (updQueue j f s).hotRing = s.hotRing ∧ (updQueue j f s).inval = s.inval ∧
    (updQueue j f s).ports = s.ports ∧ (updQueue j f s).linkMap = s.linkMap ∧ (updQueue j f s).compass = s.compass ∧
    (updQueue j f s).oldEsc = s.oldEsc ∧ (updQueue j f s).sendQ = s.sendQ ∧ (updQueue j f s).ostreams = s.ostreams ∧
    (updQueue j f s).holds = s.holds ∧ (updQueue j f s).fwd = s.fwd ∧ (updQueue j f s).nextReq = s.nextReq ∧ (updQueue j f s).unreach = s.unreach ∧
    (updQueue j f s).arrived = s.arrived ∧ (updQueue j f s).kept = s.kept ∧ (updQueue j f s).hreads = s.hreads ∧
    (updQueue j f s).hwrites = s.hwrites ∧ (updQueue j f s).hostCpls = s.hostCpls ∧ (updQueue j f s).hostSeq = s.hostSeq ∧
    (updQueue j f s).hostHeld = s.hostHeld ∧ (updQueue j f s).hstHeld = s.hstHeld ∧ (updQueue j f s).winReqs = s.winReqs ∧
    (updQueue j f s).cptMods = s.cptMods ∧ (updQueue j f s).cptSent = s.cptSent ∧ (updQueue j f s).cptHeld = s.cptHeld ∧
    (updQueue j f s).crossing = s.crossing ∧ (updQueue j f s).tap = s.tap ∧ (updQueue j f s).lost = s.lost ∧ (updQueue j f s).restart = s.restart ∧
    (updQueue j f s).replies = s.replies ∧ (updQueue j f s).mig = s.mig ∧ (updQueue j f s).migHeld = s.migHeld ∧ (updQueue j f s).snap = s.snap ∧
    (updQueue j f s).snapBusy = s.snapBusy ∧ (updQueue j f s).halves = s.halves ∧ (updQueue j f s).capBusy = s.capBusy ∧
    (updQueue j f s).capSel = s.capSel ∧ (updQueue j f s).nmDue = s.nmDue ∧ (updQueue j f s).lastAcc = s.lastAcc := by
  and_intros <;> rfl

/-- A change of the gradient side of a job slot. -/
@[simp] theorem updJob_frame (j : Nat) (f : Job → Job) :
    (updJob j f s).pending = s.pending ∧ (updJob j f s).fresh = s.fresh ∧ (updJob j f s).out = s.out ∧ (updJob j f s).regs = s.regs ∧
    (updJob j f s).staged = s.staged ∧ (updJob j f s).aon = s.aon ∧ (updJob j f s).vin = s.vin ∧ (updJob j f s).pwrGood = s.pwrGood ∧
    (updJob j f s).blkRst = s.blkRst ∧ (updJob j f s).hstRst = s.hstRst ∧ (updJob j f s).cptPrst = s.cptPrst ∧ (updJob j f s).rstHigh = s.rstHigh ∧
    (updJob j f s).released = s.released ∧ (updJob j f s).hbmReleased = s.hbmReleased ∧ (updJob j f s).selfRefresh = s.selfRefresh ∧
    (updJob j f s).straps = s.straps ∧ (updJob j f s).clocksBad = s.clocksBad ∧ (updJob j f s).powered = s.powered ∧ (updJob j f s).pmode = s.pmode ∧
    (updJob j f s).modeAt = s.modeAt ∧ (updJob j f s).therm = s.therm ∧ (updJob j f s).pwrCeil = s.pwrCeil ∧ (updJob j f s).volts = s.volts ∧
    (updJob j f s).temps = s.temps ∧ (updJob j f s).energy = s.energy ∧ (updJob j f s).fast = s.fast ∧ (updJob j f s).contourDue = s.contourDue ∧
    (updJob j f s).tagNs = s.tagNs ∧ (updJob j f s).deepOff = s.deepOff ∧ (updJob j f s).deepWait = s.deepWait ∧ (updJob j f s).stage = s.stage ∧
    (updJob j f s).startMode = s.startMode ∧ (updJob j f s).keyWait = s.keyWait ∧ (updJob j f s).ledgerGone = s.ledgerGone ∧
    (updJob j f s).page = s.page ∧ (updJob j f s).journal = s.journal ∧ (updJob j f s).resuming = s.resuming ∧ (updJob j f s).stackId = s.stackId ∧
    (updJob j f s).factory = s.factory ∧ (updJob j f s).fieldRepair = s.fieldRepair ∧ (updJob j f s).repairList = s.repairList ∧
    (updJob j f s).fwSlots = s.fwSlots ∧ (updJob j f s).fwRun = s.fwRun ∧ (updJob j f s).fwPref = s.fwPref ∧ (updJob j f s).fwBusy = s.fwBusy ∧
    (updJob j f s).pos = s.pos ∧ (updJob j f s).fence = s.fence ∧ (updJob j f s).fenceQ = s.fenceQ ∧ (updJob j f s).scopes = s.scopes ∧
    (updJob j f s).queues = s.queues ∧ (updJob j f s).rr = s.rr ∧ (updJob j f s).ops = s.ops ∧ (updJob j f s).elog = s.elog ∧
    (updJob j f s).vlog = s.vlog ∧ (updJob j f s).gaz = s.gaz ∧ (updJob j f s).fetches = s.fetches ∧ (updJob j f s).late = s.late ∧
    (updJob j f s).tagWait = s.tagWait ∧ (updJob j f s).spillWait = s.spillWait ∧ (updJob j f s).spillAt = s.spillAt ∧
    (updJob j f s).serves = s.serves ∧ (updJob j f s).serveHeld = s.serveHeld ∧ (updJob j f s).nextId = s.nextId ∧ (updJob j f s).near = s.near ∧
    (updJob j f s).vsets = s.vsets ∧ (updJob j f s).pinPlan = s.pinPlan ∧ (updJob j f s).pinSkip = s.pinSkip ∧ (updJob j f s).nmErrs = s.nmErrs ∧
    (updJob j f s).victim = s.victim ∧ (updJob j f s).prefetched = s.prefetched ∧ (updJob j f s).contours = s.contours ∧
    (updJob j f s).idir = s.idir ∧ (updJob j f s).markerM = s.markerM ∧ (updJob j f s).pins = s.pins ∧ (updJob j f s).awaits = s.awaits ∧
    (updJob j f s).far = s.far ∧ (updJob j f s).farGen = s.farGen ∧ (updJob j f s).hbmDown = s.hbmDown ∧ (updJob j f s).lineKey = s.lineKey ∧
    (updJob j f s).ueLines = s.ueLines ∧ (updJob j f s).ledger = s.ledger ∧ (updJob j f s).flights = s.flights ∧ (updJob j f s).stores = s.stores ∧
    (updJob j f s).l1 = s.l1 ∧ (updJob j f s).l2 = s.l2 ∧ (updJob j f s).fq = s.fq ∧ (updJob j f s).fqGen = s.fqGen ∧
    (updJob j f s).parked = s.parked ∧ (updJob j f s).unissued = s.unissued ∧ (updJob j f s).reissued = s.reissued ∧ (updJob j f s).keys = s.keys ∧
    (updJob j f s).privKey = s.privKey ∧ (updJob j f s).keyData = s.keyData ∧ (updJob j f s).keyPend = s.keyPend ∧ (updJob j f s).hot = s.hot ∧
    (updJob j f s).hotHeld = s.hotHeld ∧ (updJob j f s).hotRing = s.hotRing ∧ (updJob j f s).inval = s.inval ∧ (updJob j f s).ports = s.ports ∧
    (updJob j f s).linkMap = s.linkMap ∧ (updJob j f s).compass = s.compass ∧ (updJob j f s).oldEsc = s.oldEsc ∧ (updJob j f s).sendQ = s.sendQ ∧
    (updJob j f s).ostreams = s.ostreams ∧ (updJob j f s).holds = s.holds ∧ (updJob j f s).fwd = s.fwd ∧ (updJob j f s).nextReq = s.nextReq ∧
    (updJob j f s).unreach = s.unreach ∧ (updJob j f s).arrived = s.arrived ∧ (updJob j f s).kept = s.kept ∧ (updJob j f s).hreads = s.hreads ∧
    (updJob j f s).hwrites = s.hwrites ∧ (updJob j f s).hostCpls = s.hostCpls ∧ (updJob j f s).hostSeq = s.hostSeq ∧
    (updJob j f s).hostHeld = s.hostHeld ∧ (updJob j f s).hstHeld = s.hstHeld ∧ (updJob j f s).winReqs = s.winReqs ∧
    (updJob j f s).cptMods = s.cptMods ∧ (updJob j f s).cptSent = s.cptSent ∧ (updJob j f s).cptHeld = s.cptHeld ∧
    (updJob j f s).crossing = s.crossing ∧ (updJob j f s).tap = s.tap ∧ (updJob j f s).lost = s.lost ∧ (updJob j f s).restart = s.restart ∧
    (updJob j f s).replies = s.replies ∧ (updJob j f s).mig = s.mig ∧ (updJob j f s).migHeld = s.migHeld ∧ (updJob j f s).snap = s.snap ∧
    (updJob j f s).snapBusy = s.snapBusy ∧ (updJob j f s).halves = s.halves ∧ (updJob j f s).capBusy = s.capBusy ∧ (updJob j f s).capSel = s.capSel ∧
    (updJob j f s).nmDue = s.nmDue ∧ (updJob j f s).lastAcc = s.lastAcc := by
  and_intros <;> rfl

/-- A change of a peer port. -/
@[simp] theorem updPort_frame (k : Nat) (f : PortSt → PortSt) :
    (updPort k f s).pending = s.pending ∧ (updPort k f s).fresh = s.fresh ∧ (updPort k f s).out = s.out ∧ (updPort k f s).regs = s.regs ∧
    (updPort k f s).staged = s.staged ∧ (updPort k f s).aon = s.aon ∧ (updPort k f s).vin = s.vin ∧ (updPort k f s).pwrGood = s.pwrGood ∧
    (updPort k f s).blkRst = s.blkRst ∧ (updPort k f s).hstRst = s.hstRst ∧ (updPort k f s).cptPrst = s.cptPrst ∧
    (updPort k f s).rstHigh = s.rstHigh ∧ (updPort k f s).released = s.released ∧ (updPort k f s).hbmReleased = s.hbmReleased ∧
    (updPort k f s).selfRefresh = s.selfRefresh ∧ (updPort k f s).straps = s.straps ∧ (updPort k f s).clocksBad = s.clocksBad ∧
    (updPort k f s).powered = s.powered ∧ (updPort k f s).pmode = s.pmode ∧ (updPort k f s).modeAt = s.modeAt ∧ (updPort k f s).therm = s.therm ∧
    (updPort k f s).pwrCeil = s.pwrCeil ∧ (updPort k f s).volts = s.volts ∧ (updPort k f s).temps = s.temps ∧ (updPort k f s).energy = s.energy ∧
    (updPort k f s).fast = s.fast ∧ (updPort k f s).contourDue = s.contourDue ∧ (updPort k f s).tagNs = s.tagNs ∧
    (updPort k f s).deepOff = s.deepOff ∧ (updPort k f s).deepWait = s.deepWait ∧ (updPort k f s).stage = s.stage ∧
    (updPort k f s).startMode = s.startMode ∧ (updPort k f s).keyWait = s.keyWait ∧ (updPort k f s).ledgerGone = s.ledgerGone ∧
    (updPort k f s).page = s.page ∧ (updPort k f s).journal = s.journal ∧ (updPort k f s).resuming = s.resuming ∧
    (updPort k f s).stackId = s.stackId ∧ (updPort k f s).factory = s.factory ∧ (updPort k f s).fieldRepair = s.fieldRepair ∧
    (updPort k f s).repairList = s.repairList ∧ (updPort k f s).fwSlots = s.fwSlots ∧ (updPort k f s).fwRun = s.fwRun ∧
    (updPort k f s).fwPref = s.fwPref ∧ (updPort k f s).fwBusy = s.fwBusy ∧ (updPort k f s).pos = s.pos ∧ (updPort k f s).fence = s.fence ∧
    (updPort k f s).fenceQ = s.fenceQ ∧ (updPort k f s).scopes = s.scopes ∧ (updPort k f s).queues = s.queues ∧ (updPort k f s).rr = s.rr ∧
    (updPort k f s).ops = s.ops ∧ (updPort k f s).elog = s.elog ∧ (updPort k f s).vlog = s.vlog ∧ (updPort k f s).gaz = s.gaz ∧
    (updPort k f s).fetches = s.fetches ∧ (updPort k f s).late = s.late ∧ (updPort k f s).tagWait = s.tagWait ∧
    (updPort k f s).spillWait = s.spillWait ∧ (updPort k f s).spillAt = s.spillAt ∧ (updPort k f s).serves = s.serves ∧
    (updPort k f s).serveHeld = s.serveHeld ∧ (updPort k f s).nextId = s.nextId ∧ (updPort k f s).near = s.near ∧ (updPort k f s).vsets = s.vsets ∧
    (updPort k f s).pinPlan = s.pinPlan ∧ (updPort k f s).pinSkip = s.pinSkip ∧ (updPort k f s).nmErrs = s.nmErrs ∧
    (updPort k f s).victim = s.victim ∧ (updPort k f s).prefetched = s.prefetched ∧ (updPort k f s).contours = s.contours ∧
    (updPort k f s).idir = s.idir ∧ (updPort k f s).markerM = s.markerM ∧ (updPort k f s).pins = s.pins ∧ (updPort k f s).awaits = s.awaits ∧
    (updPort k f s).far = s.far ∧ (updPort k f s).farGen = s.farGen ∧ (updPort k f s).hbmDown = s.hbmDown ∧ (updPort k f s).lineKey = s.lineKey ∧
    (updPort k f s).ueLines = s.ueLines ∧ (updPort k f s).ledger = s.ledger ∧ (updPort k f s).flights = s.flights ∧ (updPort k f s).jobs = s.jobs ∧
    (updPort k f s).stores = s.stores ∧ (updPort k f s).l1 = s.l1 ∧ (updPort k f s).l2 = s.l2 ∧ (updPort k f s).fq = s.fq ∧
    (updPort k f s).fqGen = s.fqGen ∧ (updPort k f s).parked = s.parked ∧ (updPort k f s).unissued = s.unissued ∧
    (updPort k f s).reissued = s.reissued ∧ (updPort k f s).keys = s.keys ∧ (updPort k f s).privKey = s.privKey ∧
    (updPort k f s).keyData = s.keyData ∧ (updPort k f s).keyPend = s.keyPend ∧ (updPort k f s).hot = s.hot ∧ (updPort k f s).hotHeld = s.hotHeld ∧
    (updPort k f s).hotRing = s.hotRing ∧ (updPort k f s).inval = s.inval ∧ (updPort k f s).linkMap = s.linkMap ∧
    (updPort k f s).compass = s.compass ∧ (updPort k f s).oldEsc = s.oldEsc ∧ (updPort k f s).sendQ = s.sendQ ∧
    (updPort k f s).ostreams = s.ostreams ∧ (updPort k f s).holds = s.holds ∧ (updPort k f s).fwd = s.fwd ∧ (updPort k f s).nextReq = s.nextReq ∧
    (updPort k f s).unreach = s.unreach ∧ (updPort k f s).arrived = s.arrived ∧ (updPort k f s).kept = s.kept ∧ (updPort k f s).hreads = s.hreads ∧
    (updPort k f s).hwrites = s.hwrites ∧ (updPort k f s).hostCpls = s.hostCpls ∧ (updPort k f s).hostSeq = s.hostSeq ∧
    (updPort k f s).hostHeld = s.hostHeld ∧ (updPort k f s).hstHeld = s.hstHeld ∧ (updPort k f s).winReqs = s.winReqs ∧
    (updPort k f s).cptMods = s.cptMods ∧ (updPort k f s).cptSent = s.cptSent ∧ (updPort k f s).cptHeld = s.cptHeld ∧
    (updPort k f s).crossing = s.crossing ∧ (updPort k f s).tap = s.tap ∧ (updPort k f s).lost = s.lost ∧ (updPort k f s).restart = s.restart ∧
    (updPort k f s).replies = s.replies ∧ (updPort k f s).mig = s.mig ∧ (updPort k f s).migHeld = s.migHeld ∧ (updPort k f s).snap = s.snap ∧
    (updPort k f s).snapBusy = s.snapBusy ∧ (updPort k f s).halves = s.halves ∧ (updPort k f s).capBusy = s.capBusy ∧
    (updPort k f s).capSel = s.capSel ∧ (updPort k f s).nmDue = s.nmDue ∧ (updPort k f s).lastAcc = s.lastAcc := by
  and_intros <;> rfl

/-- A change of an ordered stream. -/
@[simp] theorem setOStream_frame (peer cls : Nat) (o : OStream) :
    (setOStream peer cls o s).pending = s.pending ∧ (setOStream peer cls o s).fresh = s.fresh ∧ (setOStream peer cls o s).out = s.out ∧
    (setOStream peer cls o s).regs = s.regs ∧ (setOStream peer cls o s).staged = s.staged ∧ (setOStream peer cls o s).aon = s.aon ∧
    (setOStream peer cls o s).vin = s.vin ∧ (setOStream peer cls o s).pwrGood = s.pwrGood ∧ (setOStream peer cls o s).blkRst = s.blkRst ∧
    (setOStream peer cls o s).hstRst = s.hstRst ∧ (setOStream peer cls o s).cptPrst = s.cptPrst ∧ (setOStream peer cls o s).rstHigh = s.rstHigh ∧
    (setOStream peer cls o s).released = s.released ∧ (setOStream peer cls o s).hbmReleased = s.hbmReleased ∧
    (setOStream peer cls o s).selfRefresh = s.selfRefresh ∧ (setOStream peer cls o s).straps = s.straps ∧
    (setOStream peer cls o s).clocksBad = s.clocksBad ∧ (setOStream peer cls o s).powered = s.powered ∧ (setOStream peer cls o s).pmode = s.pmode ∧
    (setOStream peer cls o s).modeAt = s.modeAt ∧ (setOStream peer cls o s).therm = s.therm ∧ (setOStream peer cls o s).pwrCeil = s.pwrCeil ∧
    (setOStream peer cls o s).volts = s.volts ∧ (setOStream peer cls o s).temps = s.temps ∧ (setOStream peer cls o s).energy = s.energy ∧
    (setOStream peer cls o s).fast = s.fast ∧ (setOStream peer cls o s).contourDue = s.contourDue ∧ (setOStream peer cls o s).tagNs = s.tagNs ∧
    (setOStream peer cls o s).deepOff = s.deepOff ∧ (setOStream peer cls o s).deepWait = s.deepWait ∧ (setOStream peer cls o s).stage = s.stage ∧
    (setOStream peer cls o s).startMode = s.startMode ∧ (setOStream peer cls o s).keyWait = s.keyWait ∧
    (setOStream peer cls o s).ledgerGone = s.ledgerGone ∧ (setOStream peer cls o s).page = s.page ∧ (setOStream peer cls o s).journal = s.journal ∧
    (setOStream peer cls o s).resuming = s.resuming ∧ (setOStream peer cls o s).stackId = s.stackId ∧ (setOStream peer cls o s).factory = s.factory ∧
    (setOStream peer cls o s).fieldRepair = s.fieldRepair ∧ (setOStream peer cls o s).repairList = s.repairList ∧
    (setOStream peer cls o s).fwSlots = s.fwSlots ∧ (setOStream peer cls o s).fwRun = s.fwRun ∧ (setOStream peer cls o s).fwPref = s.fwPref ∧
    (setOStream peer cls o s).fwBusy = s.fwBusy ∧ (setOStream peer cls o s).pos = s.pos ∧ (setOStream peer cls o s).fence = s.fence ∧
    (setOStream peer cls o s).fenceQ = s.fenceQ ∧ (setOStream peer cls o s).scopes = s.scopes ∧ (setOStream peer cls o s).queues = s.queues ∧
    (setOStream peer cls o s).rr = s.rr ∧ (setOStream peer cls o s).ops = s.ops ∧ (setOStream peer cls o s).elog = s.elog ∧
    (setOStream peer cls o s).vlog = s.vlog ∧ (setOStream peer cls o s).gaz = s.gaz ∧ (setOStream peer cls o s).fetches = s.fetches ∧
    (setOStream peer cls o s).late = s.late ∧ (setOStream peer cls o s).tagWait = s.tagWait ∧ (setOStream peer cls o s).spillWait = s.spillWait ∧
    (setOStream peer cls o s).spillAt = s.spillAt ∧ (setOStream peer cls o s).serves = s.serves ∧ (setOStream peer cls o s).serveHeld = s.serveHeld ∧
    (setOStream peer cls o s).nextId = s.nextId ∧ (setOStream peer cls o s).near = s.near ∧ (setOStream peer cls o s).vsets = s.vsets ∧
    (setOStream peer cls o s).pinPlan = s.pinPlan ∧ (setOStream peer cls o s).pinSkip = s.pinSkip ∧ (setOStream peer cls o s).nmErrs = s.nmErrs ∧
    (setOStream peer cls o s).victim = s.victim ∧ (setOStream peer cls o s).prefetched = s.prefetched ∧
    (setOStream peer cls o s).contours = s.contours ∧ (setOStream peer cls o s).idir = s.idir ∧ (setOStream peer cls o s).markerM = s.markerM ∧
    (setOStream peer cls o s).pins = s.pins ∧ (setOStream peer cls o s).awaits = s.awaits ∧ (setOStream peer cls o s).far = s.far ∧
    (setOStream peer cls o s).farGen = s.farGen ∧ (setOStream peer cls o s).hbmDown = s.hbmDown ∧ (setOStream peer cls o s).lineKey = s.lineKey ∧
    (setOStream peer cls o s).ueLines = s.ueLines ∧ (setOStream peer cls o s).ledger = s.ledger ∧ (setOStream peer cls o s).flights = s.flights ∧
    (setOStream peer cls o s).jobs = s.jobs ∧ (setOStream peer cls o s).stores = s.stores ∧ (setOStream peer cls o s).l1 = s.l1 ∧
    (setOStream peer cls o s).l2 = s.l2 ∧ (setOStream peer cls o s).fq = s.fq ∧ (setOStream peer cls o s).fqGen = s.fqGen ∧
    (setOStream peer cls o s).parked = s.parked ∧ (setOStream peer cls o s).unissued = s.unissued ∧ (setOStream peer cls o s).reissued = s.reissued ∧
    (setOStream peer cls o s).keys = s.keys ∧ (setOStream peer cls o s).privKey = s.privKey ∧ (setOStream peer cls o s).keyData = s.keyData ∧
    (setOStream peer cls o s).keyPend = s.keyPend ∧ (setOStream peer cls o s).hot = s.hot ∧ (setOStream peer cls o s).hotHeld = s.hotHeld ∧
    (setOStream peer cls o s).hotRing = s.hotRing ∧ (setOStream peer cls o s).inval = s.inval ∧ (setOStream peer cls o s).ports = s.ports ∧
    (setOStream peer cls o s).linkMap = s.linkMap ∧ (setOStream peer cls o s).compass = s.compass ∧ (setOStream peer cls o s).oldEsc = s.oldEsc ∧
    (setOStream peer cls o s).sendQ = s.sendQ ∧ (setOStream peer cls o s).holds = s.holds ∧ (setOStream peer cls o s).fwd = s.fwd ∧
    (setOStream peer cls o s).nextReq = s.nextReq ∧ (setOStream peer cls o s).unreach = s.unreach ∧ (setOStream peer cls o s).arrived = s.arrived ∧
    (setOStream peer cls o s).kept = s.kept ∧ (setOStream peer cls o s).hreads = s.hreads ∧ (setOStream peer cls o s).hwrites = s.hwrites ∧
    (setOStream peer cls o s).hostCpls = s.hostCpls ∧ (setOStream peer cls o s).hostSeq = s.hostSeq ∧
    (setOStream peer cls o s).hostHeld = s.hostHeld ∧ (setOStream peer cls o s).hstHeld = s.hstHeld ∧ (setOStream peer cls o s).winReqs = s.winReqs ∧
    (setOStream peer cls o s).cptMods = s.cptMods ∧ (setOStream peer cls o s).cptSent = s.cptSent ∧ (setOStream peer cls o s).cptHeld = s.cptHeld ∧
    (setOStream peer cls o s).crossing = s.crossing ∧ (setOStream peer cls o s).tap = s.tap ∧ (setOStream peer cls o s).lost = s.lost ∧
    (setOStream peer cls o s).restart = s.restart ∧ (setOStream peer cls o s).replies = s.replies ∧ (setOStream peer cls o s).mig = s.mig ∧
    (setOStream peer cls o s).migHeld = s.migHeld ∧ (setOStream peer cls o s).snap = s.snap ∧ (setOStream peer cls o s).snapBusy = s.snapBusy ∧
    (setOStream peer cls o s).halves = s.halves ∧ (setOStream peer cls o s).capBusy = s.capBusy ∧ (setOStream peer cls o s).capSel = s.capSel ∧
    (setOStream peer cls o s).nmDue = s.nmDue ∧ (setOStream peer cls o s).lastAcc = s.lastAcc := by
  and_intros <;> rfl

/-- A change of a compute module. -/
@[simp] theorem setMod_frame (m v : Nat) :
    (setMod m v s).pending = s.pending ∧ (setMod m v s).fresh = s.fresh ∧ (setMod m v s).out = s.out ∧ (setMod m v s).regs = s.regs ∧
    (setMod m v s).staged = s.staged ∧ (setMod m v s).aon = s.aon ∧ (setMod m v s).vin = s.vin ∧ (setMod m v s).pwrGood = s.pwrGood ∧
    (setMod m v s).blkRst = s.blkRst ∧ (setMod m v s).hstRst = s.hstRst ∧ (setMod m v s).cptPrst = s.cptPrst ∧ (setMod m v s).rstHigh = s.rstHigh ∧
    (setMod m v s).released = s.released ∧ (setMod m v s).hbmReleased = s.hbmReleased ∧ (setMod m v s).selfRefresh = s.selfRefresh ∧
    (setMod m v s).straps = s.straps ∧ (setMod m v s).clocksBad = s.clocksBad ∧ (setMod m v s).powered = s.powered ∧ (setMod m v s).pmode = s.pmode ∧
    (setMod m v s).modeAt = s.modeAt ∧ (setMod m v s).therm = s.therm ∧ (setMod m v s).pwrCeil = s.pwrCeil ∧ (setMod m v s).volts = s.volts ∧
    (setMod m v s).temps = s.temps ∧ (setMod m v s).energy = s.energy ∧ (setMod m v s).fast = s.fast ∧ (setMod m v s).contourDue = s.contourDue ∧
    (setMod m v s).tagNs = s.tagNs ∧ (setMod m v s).deepOff = s.deepOff ∧ (setMod m v s).deepWait = s.deepWait ∧ (setMod m v s).stage = s.stage ∧
    (setMod m v s).startMode = s.startMode ∧ (setMod m v s).keyWait = s.keyWait ∧ (setMod m v s).ledgerGone = s.ledgerGone ∧
    (setMod m v s).page = s.page ∧ (setMod m v s).journal = s.journal ∧ (setMod m v s).resuming = s.resuming ∧ (setMod m v s).stackId = s.stackId ∧
    (setMod m v s).factory = s.factory ∧ (setMod m v s).fieldRepair = s.fieldRepair ∧ (setMod m v s).repairList = s.repairList ∧
    (setMod m v s).fwSlots = s.fwSlots ∧ (setMod m v s).fwRun = s.fwRun ∧ (setMod m v s).fwPref = s.fwPref ∧ (setMod m v s).fwBusy = s.fwBusy ∧
    (setMod m v s).pos = s.pos ∧ (setMod m v s).fence = s.fence ∧ (setMod m v s).fenceQ = s.fenceQ ∧ (setMod m v s).scopes = s.scopes ∧
    (setMod m v s).queues = s.queues ∧ (setMod m v s).rr = s.rr ∧ (setMod m v s).ops = s.ops ∧ (setMod m v s).elog = s.elog ∧
    (setMod m v s).vlog = s.vlog ∧ (setMod m v s).gaz = s.gaz ∧ (setMod m v s).fetches = s.fetches ∧ (setMod m v s).late = s.late ∧
    (setMod m v s).tagWait = s.tagWait ∧ (setMod m v s).spillWait = s.spillWait ∧ (setMod m v s).spillAt = s.spillAt ∧
    (setMod m v s).serves = s.serves ∧ (setMod m v s).serveHeld = s.serveHeld ∧ (setMod m v s).nextId = s.nextId ∧ (setMod m v s).near = s.near ∧
    (setMod m v s).vsets = s.vsets ∧ (setMod m v s).pinPlan = s.pinPlan ∧ (setMod m v s).pinSkip = s.pinSkip ∧ (setMod m v s).nmErrs = s.nmErrs ∧
    (setMod m v s).victim = s.victim ∧ (setMod m v s).prefetched = s.prefetched ∧ (setMod m v s).contours = s.contours ∧
    (setMod m v s).idir = s.idir ∧ (setMod m v s).markerM = s.markerM ∧ (setMod m v s).pins = s.pins ∧ (setMod m v s).awaits = s.awaits ∧
    (setMod m v s).far = s.far ∧ (setMod m v s).farGen = s.farGen ∧ (setMod m v s).hbmDown = s.hbmDown ∧ (setMod m v s).lineKey = s.lineKey ∧
    (setMod m v s).ueLines = s.ueLines ∧ (setMod m v s).ledger = s.ledger ∧ (setMod m v s).flights = s.flights ∧ (setMod m v s).jobs = s.jobs ∧
    (setMod m v s).stores = s.stores ∧ (setMod m v s).l1 = s.l1 ∧ (setMod m v s).l2 = s.l2 ∧ (setMod m v s).fq = s.fq ∧
    (setMod m v s).fqGen = s.fqGen ∧ (setMod m v s).parked = s.parked ∧ (setMod m v s).unissued = s.unissued ∧ (setMod m v s).reissued = s.reissued ∧
    (setMod m v s).keys = s.keys ∧ (setMod m v s).privKey = s.privKey ∧ (setMod m v s).keyData = s.keyData ∧ (setMod m v s).keyPend = s.keyPend ∧
    (setMod m v s).hot = s.hot ∧ (setMod m v s).hotHeld = s.hotHeld ∧ (setMod m v s).hotRing = s.hotRing ∧ (setMod m v s).inval = s.inval ∧
    (setMod m v s).ports = s.ports ∧ (setMod m v s).linkMap = s.linkMap ∧ (setMod m v s).compass = s.compass ∧ (setMod m v s).oldEsc = s.oldEsc ∧
    (setMod m v s).sendQ = s.sendQ ∧ (setMod m v s).ostreams = s.ostreams ∧ (setMod m v s).holds = s.holds ∧ (setMod m v s).fwd = s.fwd ∧
    (setMod m v s).nextReq = s.nextReq ∧ (setMod m v s).unreach = s.unreach ∧ (setMod m v s).arrived = s.arrived ∧ (setMod m v s).kept = s.kept ∧
    (setMod m v s).hreads = s.hreads ∧ (setMod m v s).hwrites = s.hwrites ∧ (setMod m v s).hostCpls = s.hostCpls ∧
    (setMod m v s).hostSeq = s.hostSeq ∧ (setMod m v s).hostHeld = s.hostHeld ∧ (setMod m v s).hstHeld = s.hstHeld ∧
    (setMod m v s).winReqs = s.winReqs ∧ (setMod m v s).cptSent = s.cptSent ∧ (setMod m v s).cptHeld = s.cptHeld ∧
    (setMod m v s).crossing = s.crossing ∧ (setMod m v s).tap = s.tap ∧ (setMod m v s).lost = s.lost ∧ (setMod m v s).restart = s.restart ∧
    (setMod m v s).replies = s.replies ∧ (setMod m v s).mig = s.mig ∧ (setMod m v s).migHeld = s.migHeld ∧ (setMod m v s).snap = s.snap ∧
    (setMod m v s).snapBusy = s.snapBusy ∧ (setMod m v s).halves = s.halves ∧ (setMod m v s).capBusy = s.capBusy ∧ (setMod m v s).capSel = s.capSel ∧
    (setMod m v s).nmDue = s.nmDue ∧ (setMod m v s).lastAcc = s.lastAcc := by
  and_intros <;> rfl

/-- The frame of a command keeps the queue and the inputs. -/
@[simp] theorem holdInputs_frame :
    (holdInputs s t).pending = s.pending ∧ (holdInputs s t).fresh = t.fresh ∧ (holdInputs s t).out = t.out ∧ (holdInputs s t).regs = t.regs ∧
    (holdInputs s t).staged = t.staged ∧ (holdInputs s t).aon = t.aon ∧ (holdInputs s t).vin = s.vin ∧ (holdInputs s t).pwrGood = s.pwrGood ∧
    (holdInputs s t).blkRst = s.blkRst ∧ (holdInputs s t).hstRst = t.hstRst ∧ (holdInputs s t).cptPrst = t.cptPrst ∧
    (holdInputs s t).rstHigh = t.rstHigh ∧ (holdInputs s t).released = t.released ∧ (holdInputs s t).hbmReleased = t.hbmReleased ∧
    (holdInputs s t).selfRefresh = t.selfRefresh ∧ (holdInputs s t).straps = s.straps ∧ (holdInputs s t).clocksBad = t.clocksBad ∧
    (holdInputs s t).powered = s.powered ∧ (holdInputs s t).pmode = t.pmode ∧ (holdInputs s t).modeAt = t.modeAt ∧ (holdInputs s t).therm = t.therm ∧
    (holdInputs s t).pwrCeil = t.pwrCeil ∧ (holdInputs s t).volts = t.volts ∧ (holdInputs s t).temps = t.temps ∧ (holdInputs s t).energy = t.energy ∧
    (holdInputs s t).fast = t.fast ∧ (holdInputs s t).contourDue = t.contourDue ∧ (holdInputs s t).tagNs = t.tagNs ∧
    (holdInputs s t).deepOff = t.deepOff ∧ (holdInputs s t).deepWait = t.deepWait ∧ (holdInputs s t).stage = t.stage ∧
    (holdInputs s t).startMode = t.startMode ∧ (holdInputs s t).keyWait = t.keyWait ∧ (holdInputs s t).ledgerGone = t.ledgerGone ∧
    (holdInputs s t).page = t.page ∧ (holdInputs s t).journal = t.journal ∧ (holdInputs s t).resuming = t.resuming ∧
    (holdInputs s t).stackId = t.stackId ∧ (holdInputs s t).factory = t.factory ∧ (holdInputs s t).fieldRepair = t.fieldRepair ∧
    (holdInputs s t).repairList = t.repairList ∧ (holdInputs s t).fwSlots = t.fwSlots ∧ (holdInputs s t).fwRun = t.fwRun ∧
    (holdInputs s t).fwPref = t.fwPref ∧ (holdInputs s t).fwBusy = t.fwBusy ∧ (holdInputs s t).pos = t.pos ∧ (holdInputs s t).fence = t.fence ∧
    (holdInputs s t).fenceQ = t.fenceQ ∧ (holdInputs s t).scopes = t.scopes ∧ (holdInputs s t).queues = t.queues ∧ (holdInputs s t).rr = t.rr ∧
    (holdInputs s t).ops = t.ops ∧ (holdInputs s t).elog = t.elog ∧ (holdInputs s t).vlog = t.vlog ∧ (holdInputs s t).gaz = t.gaz ∧
    (holdInputs s t).fetches = t.fetches ∧ (holdInputs s t).late = t.late ∧ (holdInputs s t).tagWait = t.tagWait ∧
    (holdInputs s t).spillWait = t.spillWait ∧ (holdInputs s t).spillAt = t.spillAt ∧ (holdInputs s t).serves = t.serves ∧
    (holdInputs s t).serveHeld = t.serveHeld ∧ (holdInputs s t).nextId = t.nextId ∧ (holdInputs s t).near = t.near ∧
    (holdInputs s t).vsets = t.vsets ∧ (holdInputs s t).pinPlan = t.pinPlan ∧ (holdInputs s t).pinSkip = t.pinSkip ∧
    (holdInputs s t).nmErrs = t.nmErrs ∧ (holdInputs s t).victim = t.victim ∧ (holdInputs s t).prefetched = t.prefetched ∧
    (holdInputs s t).contours = t.contours ∧ (holdInputs s t).idir = t.idir ∧ (holdInputs s t).markerM = t.markerM ∧ (holdInputs s t).pins = t.pins ∧
    (holdInputs s t).awaits = t.awaits ∧ (holdInputs s t).far = t.far ∧ (holdInputs s t).farGen = t.farGen ∧ (holdInputs s t).hbmDown = t.hbmDown ∧
    (holdInputs s t).lineKey = t.lineKey ∧ (holdInputs s t).ueLines = t.ueLines ∧ (holdInputs s t).ledger = t.ledger ∧
    (holdInputs s t).flights = t.flights ∧ (holdInputs s t).jobs = t.jobs ∧ (holdInputs s t).stores = t.stores ∧ (holdInputs s t).l1 = t.l1 ∧
    (holdInputs s t).l2 = t.l2 ∧ (holdInputs s t).fq = t.fq ∧ (holdInputs s t).fqGen = t.fqGen ∧ (holdInputs s t).parked = t.parked ∧
    (holdInputs s t).unissued = t.unissued ∧ (holdInputs s t).reissued = t.reissued ∧ (holdInputs s t).keys = t.keys ∧
    (holdInputs s t).privKey = t.privKey ∧ (holdInputs s t).keyData = t.keyData ∧ (holdInputs s t).keyPend = t.keyPend ∧
    (holdInputs s t).hot = t.hot ∧ (holdInputs s t).hotHeld = t.hotHeld ∧ (holdInputs s t).hotRing = t.hotRing ∧ (holdInputs s t).inval = t.inval ∧
    (holdInputs s t).ports = t.ports ∧ (holdInputs s t).linkMap = t.linkMap ∧ (holdInputs s t).compass = t.compass ∧
    (holdInputs s t).oldEsc = t.oldEsc ∧ (holdInputs s t).sendQ = t.sendQ ∧ (holdInputs s t).ostreams = t.ostreams ∧
    (holdInputs s t).holds = t.holds ∧ (holdInputs s t).fwd = t.fwd ∧ (holdInputs s t).nextReq = t.nextReq ∧ (holdInputs s t).unreach = t.unreach ∧
    (holdInputs s t).arrived = t.arrived ∧ (holdInputs s t).kept = t.kept ∧ (holdInputs s t).hreads = t.hreads ∧
    (holdInputs s t).hwrites = t.hwrites ∧ (holdInputs s t).hostCpls = t.hostCpls ∧ (holdInputs s t).hostSeq = t.hostSeq ∧
    (holdInputs s t).hostHeld = t.hostHeld ∧ (holdInputs s t).hstHeld = t.hstHeld ∧ (holdInputs s t).winReqs = t.winReqs ∧
    (holdInputs s t).cptMods = t.cptMods ∧ (holdInputs s t).cptSent = t.cptSent ∧ (holdInputs s t).cptHeld = t.cptHeld ∧
    (holdInputs s t).crossing = t.crossing ∧ (holdInputs s t).tap = t.tap ∧ (holdInputs s t).lost = t.lost ∧ (holdInputs s t).restart = t.restart ∧
    (holdInputs s t).replies = t.replies ∧ (holdInputs s t).mig = t.mig ∧ (holdInputs s t).migHeld = t.migHeld ∧ (holdInputs s t).snap = t.snap ∧
    (holdInputs s t).snapBusy = t.snapBusy ∧ (holdInputs s t).halves = t.halves ∧ (holdInputs s t).capBusy = t.capBusy ∧
    (holdInputs s t).capSel = t.capSel ∧ (holdInputs s t).nmDue = t.nmDue ∧ (holdInputs s t).lastAcc = t.lastAcc := by
  and_intros <;> rfl

@[simp] theorem rset_regs (off : Nat) (w : Word) : (rset off w s).regs = mput off w s.regs := rfl
@[simp] theorem emit_out (o : Out) : (emit o s).out = s.out ++ [o] := rfl
@[simp] theorem updOp_ops (q seq : Nat) (f : Op → Op) : (updOp q seq f s).ops = updWhere (fun o => o.is q seq) f s.ops := rfl
@[simp] theorem updQueue_queues (j : Nat) (f : Queue → Queue) : (updQueue j f s).queues = s.queues.modify j f := rfl
@[simp] theorem updJob_jobs (j : Nat) (f : Job → Job) : (updJob j f s).jobs = s.jobs.modify j f := rfl
@[simp] theorem updPort_ports (k : Nat) (f : PortSt → PortSt) : (updPort k f s).ports = s.ports.modify k f := rfl
@[simp] theorem setOStream_ostreams (peer cls : Nat) (o : OStream) : (setOStream peer cls o s).ostreams = mput (peer * 8 + cls) o s.ostreams := rfl
@[simp] theorem setMod_cptMods (m v : Nat) : (setMod m v s).cptMods = s.cptMods.set m v := rfl

end Sys2Proof.Machine
end

