-- ==== Sys2Proof/Laws/Commands.lean ====
section
/-! SUPPORT. The frame of every command: what it does on a block that is up, and on one that is not. -/

namespace Sys2Proof.Machine

/-! ### EVENT -/

/-- An EVENT for the root changes its ordered stream and the packets that wait, and nothing else. -/
@[simp] theorem raiseEvent_frame (s t : State) :
    (raiseEvent s t).pending = t.pending ∧ (raiseEvent s t).fresh = t.fresh ∧ (raiseEvent s t).out = t.out ∧ (raiseEvent s t).regs = t.regs ∧
    (raiseEvent s t).staged = t.staged ∧ (raiseEvent s t).aon = t.aon ∧ (raiseEvent s t).vin = t.vin ∧ (raiseEvent s t).pwrGood = t.pwrGood ∧
    (raiseEvent s t).blkRst = t.blkRst ∧ (raiseEvent s t).hstRst = t.hstRst ∧ (raiseEvent s t).cptPrst = t.cptPrst ∧
    (raiseEvent s t).rstHigh = t.rstHigh ∧ (raiseEvent s t).released = t.released ∧ (raiseEvent s t).hbmReleased = t.hbmReleased ∧
    (raiseEvent s t).selfRefresh = t.selfRefresh ∧ (raiseEvent s t).straps = t.straps ∧ (raiseEvent s t).clocksBad = t.clocksBad ∧
    (raiseEvent s t).powered = t.powered ∧ (raiseEvent s t).pmode = t.pmode ∧ (raiseEvent s t).modeAt = t.modeAt ∧ (raiseEvent s t).therm = t.therm ∧
    (raiseEvent s t).pwrCeil = t.pwrCeil ∧ (raiseEvent s t).volts = t.volts ∧ (raiseEvent s t).temps = t.temps ∧ (raiseEvent s t).energy = t.energy ∧
    (raiseEvent s t).fast = t.fast ∧ (raiseEvent s t).contourDue = t.contourDue ∧ (raiseEvent s t).tagNs = t.tagNs ∧
    (raiseEvent s t).deepOff = t.deepOff ∧ (raiseEvent s t).deepWait = t.deepWait ∧ (raiseEvent s t).stage = t.stage ∧
    (raiseEvent s t).startMode = t.startMode ∧ (raiseEvent s t).keyWait = t.keyWait ∧ (raiseEvent s t).ledgerGone = t.ledgerGone ∧
    (raiseEvent s t).page = t.page ∧ (raiseEvent s t).journal = t.journal ∧ (raiseEvent s t).resuming = t.resuming ∧
    (raiseEvent s t).stackId = t.stackId ∧ (raiseEvent s t).factory = t.factory ∧ (raiseEvent s t).fieldRepair = t.fieldRepair ∧
    (raiseEvent s t).repairList = t.repairList ∧ (raiseEvent s t).fwSlots = t.fwSlots ∧ (raiseEvent s t).fwRun = t.fwRun ∧
    (raiseEvent s t).fwPref = t.fwPref ∧ (raiseEvent s t).fwBusy = t.fwBusy ∧ (raiseEvent s t).pos = t.pos ∧ (raiseEvent s t).fence = t.fence ∧
    (raiseEvent s t).fenceQ = t.fenceQ ∧ (raiseEvent s t).scopes = t.scopes ∧ (raiseEvent s t).queues = t.queues ∧ (raiseEvent s t).rr = t.rr ∧
    (raiseEvent s t).ops = t.ops ∧ (raiseEvent s t).elog = t.elog ∧ (raiseEvent s t).vlog = t.vlog ∧ (raiseEvent s t).gaz = t.gaz ∧
    (raiseEvent s t).fetches = t.fetches ∧ (raiseEvent s t).late = t.late ∧ (raiseEvent s t).tagWait = t.tagWait ∧
    (raiseEvent s t).spillWait = t.spillWait ∧ (raiseEvent s t).spillAt = t.spillAt ∧ (raiseEvent s t).serves = t.serves ∧
    (raiseEvent s t).serveHeld = t.serveHeld ∧ (raiseEvent s t).nextId = t.nextId ∧ (raiseEvent s t).near = t.near ∧
    (raiseEvent s t).vsets = t.vsets ∧ (raiseEvent s t).pinPlan = t.pinPlan ∧ (raiseEvent s t).pinSkip = t.pinSkip ∧
    (raiseEvent s t).nmErrs = t.nmErrs ∧ (raiseEvent s t).victim = t.victim ∧ (raiseEvent s t).prefetched = t.prefetched ∧
    (raiseEvent s t).contours = t.contours ∧ (raiseEvent s t).idir = t.idir ∧ (raiseEvent s t).markerM = t.markerM ∧ (raiseEvent s t).pins = t.pins ∧
    (raiseEvent s t).awaits = t.awaits ∧ (raiseEvent s t).far = t.far ∧ (raiseEvent s t).farGen = t.farGen ∧ (raiseEvent s t).hbmDown = t.hbmDown ∧
    (raiseEvent s t).lineKey = t.lineKey ∧ (raiseEvent s t).ueLines = t.ueLines ∧ (raiseEvent s t).ledger = t.ledger ∧
    (raiseEvent s t).flights = t.flights ∧ (raiseEvent s t).jobs = t.jobs ∧ (raiseEvent s t).stores = t.stores ∧ (raiseEvent s t).l1 = t.l1 ∧
    (raiseEvent s t).l2 = t.l2 ∧ (raiseEvent s t).fq = t.fq ∧ (raiseEvent s t).fqGen = t.fqGen ∧ (raiseEvent s t).parked = t.parked ∧
    (raiseEvent s t).unissued = t.unissued ∧ (raiseEvent s t).reissued = t.reissued ∧ (raiseEvent s t).keys = t.keys ∧
    (raiseEvent s t).privKey = t.privKey ∧ (raiseEvent s t).keyData = t.keyData ∧ (raiseEvent s t).keyPend = t.keyPend ∧
    (raiseEvent s t).hot = t.hot ∧ (raiseEvent s t).hotHeld = t.hotHeld ∧ (raiseEvent s t).hotRing = t.hotRing ∧ (raiseEvent s t).inval = t.inval ∧
    (raiseEvent s t).ports = t.ports ∧ (raiseEvent s t).linkMap = t.linkMap ∧ (raiseEvent s t).compass = t.compass ∧
    (raiseEvent s t).oldEsc = t.oldEsc ∧ (raiseEvent s t).holds = t.holds ∧ (raiseEvent s t).fwd = t.fwd ∧ (raiseEvent s t).nextReq = t.nextReq ∧
    (raiseEvent s t).unreach = t.unreach ∧ (raiseEvent s t).arrived = t.arrived ∧ (raiseEvent s t).kept = t.kept ∧
    (raiseEvent s t).hreads = t.hreads ∧ (raiseEvent s t).hwrites = t.hwrites ∧ (raiseEvent s t).hostCpls = t.hostCpls ∧
    (raiseEvent s t).hostSeq = t.hostSeq ∧ (raiseEvent s t).hostHeld = t.hostHeld ∧ (raiseEvent s t).hstHeld = t.hstHeld ∧
    (raiseEvent s t).winReqs = t.winReqs ∧ (raiseEvent s t).cptMods = t.cptMods ∧ (raiseEvent s t).cptSent = t.cptSent ∧
    (raiseEvent s t).cptHeld = t.cptHeld ∧ (raiseEvent s t).crossing = t.crossing ∧ (raiseEvent s t).tap = t.tap ∧ (raiseEvent s t).lost = t.lost ∧
    (raiseEvent s t).restart = t.restart ∧ (raiseEvent s t).replies = t.replies ∧ (raiseEvent s t).mig = t.mig ∧
    (raiseEvent s t).migHeld = t.migHeld ∧ (raiseEvent s t).snap = t.snap ∧ (raiseEvent s t).snapBusy = t.snapBusy ∧
    (raiseEvent s t).halves = t.halves ∧ (raiseEvent s t).capBusy = t.capBusy ∧ (raiseEvent s t).capSel = t.capSel ∧
    (raiseEvent s t).nmDue = t.nmDue ∧ (raiseEvent s t).lastAcc = t.lastAcc := by
  unfold raiseEvent
  split
  · unfold queueEvent
    dsimp only
    split <;> simp
  · simp

/-- No EVENT where the block reports none, or where the interrupt has not risen. -/
theorem raiseEvent_none (s t : State) (h : reports t = false ∨ interrupt s = true ∨ interrupt t = false) : raiseEvent s t = t := by
  unfold raiseEvent
  rcases h with h | h | h <;> simp [h]

/-- A block that is not up afterwards sends none. -/
theorem raiseEvent_down (s t : State) (h : t.up = false) : raiseEvent s t = t := by simp [raiseEvent, h]

/-! ### Frames -/

/-- A command's effect on a block that is up. -/
theorem act_up (s : State) (f : State → State) (h : s.up = true) : act s f = .next (outcome s (f s)) := by simp [act, h, outcome]

/-- A command on a block that is not up. -/
theorem act_down (s : State) (f : State → State) (h : s.up = false) : act s f = .next s := by simp [act, h]

theorem actSettle_up (s : State) (f : State → State) (h : s.up = true) : actSettle s f = .next (after s (f s)) := by simp [actSettle, act, h, outcome, after]

theorem actReady_up (s : State) (f : State → State) (h : s.up = true) (r : ready s = true) : actReady s f = .next (after s (f s)) := by
  simp [actReady, act, h, r, outcome, after]

/-- The queue and the inputs are those of before. -/
@[simp] theorem outcome_inputs (s t : State) : (outcome s t).pending = s.pending ∧ (outcome s t).vin = s.vin ∧ (outcome s t).pwrGood = s.pwrGood
    ∧ (outcome s t).powered = s.powered ∧ (outcome s t).blkRst = s.blkRst ∧ (outcome s t).straps = s.straps := by simp [outcome]

theorem actSettle_act (s : State) (g : State → State) : ∃ f, actSettle s g = act s f := ⟨_, rfl⟩
theorem actReady_act (s : State) (g : State → State) : ∃ f, actReady s g = act s f := ⟨_, rfl⟩
theorem actOpen_act (s : State) (g : State → State) : ∃ f, actOpen s g = act s f := ⟨_, rfl⟩
theorem actPacket_act (s : State) (kind port : Nat) (p : Packet) : ∃ f, actPacket kind port p s = act s f := ⟨_, rfl⟩
theorem actRestart_act (s : State) (phase port : Nat) (p : Packet) : ∃ f, actRestart phase port p s = act s f := ⟨_, rfl⟩
theorem act_act (s : State) (g : State → State) : ∃ f, act s g = act s f := ⟨g, rfl⟩

/-- Every command that does not reach a block in reset is an effect in the common frame. -/
theorem exec_act (c : Instr) (s : State) (h : reachesReset c = false) : ∃ f, exec c s = act s f := by
  cases c <;> first | contradiction | (simp only [exec,
    execNop, execLkPool, execGsScatter, execMeridian, execGzDefine, execGzSwitch, execGzDrop, execGzRowmode, execGzRowput, execMemCopy,
    execRowExport, execRowImport, execCmdMessage, execDataMessage, execCreditMessage, execOpIssue, execOpComplete, execResultBankWait,
    execPortTimeout, execStreamGap, execAbort, execStop, execRestart, execTagGrant, execTileDispatch, execRowReq, execPartReq, execRowRsp,
    execPartRsp, execFarReadComplete, execError, execWinRead, execWinWrite, execWinData, execWinAck, execGradRec, execPacketForward,
    execAddHoldExpire, execMark1, execMark2, execMeridianPhase1End, execMeridianBegin, execUpdateWriteAck, execMeridianComplete, execRefresh,
    execRefreshMark, execWithdraw, execPurge, execAck, execOrderedAckTimer, execRelease, execVersionRelease, execHandoff, execHandoffTimeout,
    execMigStart, execMigCancel, execMigData, execMigAck, execMigReady, execQuery, execReply, execSet, execRegRead, execRegWrite, execRegRsp,
    execFwdTimeout, execEvent, execEventRepeat, execFlitReceive, execLinkAckTimer, execLinkStateRecord, execCompassInstall, execCompassGenExpire,
    execLostTimeout, execPortTrainingStep, execPortRetrainTrigger, execFastRetrainEnd, execBgRetrain, execLnkRetrain, execLnkDisable, execLnkEnable,
    execTlbWalk, execFqRetry, execFqFatal, execFaultTimeout, execInvContext, execInvRange, execInvComplete, execRootWrite, execLoad, execUnload,
    execDiscardLedger, execHotDecay, execContourDecay, execPinLoad, execHbmPortFailed, execHostMgmtRequest, execHostWindowRequest, execRemoteTimeout,
    execHstWinCfgWrite, execHostCompletion, execCplTimeout, execHostPortRetrain, execHstRetrain, execHostRetrainDone, execRetrainLimit,
    execHostModuleTrained, execResume, execCptModuleDetect, execCptModuleUp, execCptModuleExclude, execCptModuleDown, execRetrainMask,
    execThermalLoop, execPowerLoop, execFastLimit, execPaceMeter, execPwrLatencyWrite, execNapEntry,
    execNapWake, execDeepEntry, execDeepHandoffTimeout, execCoreFence, execEngineStall, execFenceCoreCmd, execClusterReset, execPartitionReset,
    execSpareSelftestDone, execResetScopeEnd, execStageEnd, execFullNext, execClearField, execCheck, execApply, execApplyCommit, execDiscard,
    execUpdate, execFwUpdateDone, execSnap, execSnapComplete, execCntPmselWrite, execCntFlagSumWrite, execDebugEn, execCapture, execCaptureDone,
    execNmRead, execRegAccessWrite, execBadMessage, execUnsupportedRequest, execRegisterRead]; with_reducible first | exact act_act _ _ | exact actSettle_act _ _ | exact actReady_act _ _ | exact actPacket_act _ _ _ _ | exact actRestart_act _ _ _ _ | exact actOpen_act _ _)

end Sys2Proof.Machine
end

