-- ==== Sys2Proof/Laws/Maps.lean ====
section
/-! SUPPORT. The keyed lists: a lookup after a write or a deletion, and their one canonical form; registers read back as written. -/

namespace Sys2Proof.Machine

variable {α : Type}

/-! ### The order of the keys -/

theorem risingFrom_weaken {lo lo' : Nat} (h : lo ≤ lo') : ∀ {m : List (Nat × α)}, risingFrom lo' m = true → risingFrom lo m = true
  | [], _ => rfl
  | x :: r, k => by
    simp only [risingFrom, Bool.and_eq_true, decide_eq_true_eq] at k ⊢
    exact ⟨by omega, k.2⟩

theorem mfind_rising {k lo : Nat} (h : k < lo) : ∀ {m : List (Nat × α)}, risingFrom lo m = true → mfind k m = none
  | [], _ => rfl
  | (k', v) :: r, w => by
    simp only [risingFrom, Bool.and_eq_true, decide_eq_true_eq] at w
    simp [mfind, show ¬ k' < k by omega, show k' ≠ k by omega]

theorem risingFrom_mput {lo k : Nat} (v : α) (h : lo ≤ k) : ∀ {m : List (Nat × α)}, risingFrom lo m = true → risingFrom lo (mput k v m) = true
  | [], _ => by simp [mput, risingFrom, h]
  | (k', v') :: r, w => by
    simp only [risingFrom, Bool.and_eq_true, decide_eq_true_eq] at w
    unfold mput
    split
    · simp only [risingFrom, Bool.and_eq_true, decide_eq_true_eq]
      exact ⟨w.1, risingFrom_mput v (by omega) w.2⟩
    · split
      · rename_i _ e; subst e; simp only [risingFrom, Bool.and_eq_true, decide_eq_true_eq]; exact ⟨h, w.2⟩
      · simp only [risingFrom, Bool.and_eq_true, decide_eq_true_eq]; exact ⟨h, by omega, w.2⟩

theorem risingFrom_mdel {k : Nat} : ∀ {lo : Nat} {m : List (Nat × α)}, risingFrom lo m = true → risingFrom lo (mdel k m) = true
  | _, [], _ => rfl
  | lo, (k', v') :: r, w => by
    simp only [risingFrom, Bool.and_eq_true, decide_eq_true_eq] at w
    unfold mdel
    split
    · simp only [risingFrom, Bool.and_eq_true, decide_eq_true_eq]
      exact ⟨w.1, risingFrom_mdel w.2⟩
    · split
      · exact risingFrom_weaken (by omega) w.2
      · simp only [risingFrom, Bool.and_eq_true, decide_eq_true_eq]; exact w

/-! ### Lookups -/

/-- A key reads as it was last written. -/
@[simp] theorem mfind_mput_self (k : Nat) (v : α) : ∀ m : List (Nat × α), mfind k (mput k v m) = some v
  | [] => by simp [mput, mfind]
  | (k', v') :: r => by
    unfold mput
    split
    · rename_i h; simp [mfind, h, mfind_mput_self k v r]
    · split <;> simp [mfind]

/-- A write leaves every other key as it was. -/
theorem mfind_mput_other {k j : Nat} (v : α) (h : j ≠ k) : ∀ m : List (Nat × α), mfind j (mput k v m) = mfind j m
  | [] => by simp only [mput, mfind]; split <;> simp_all; omega
  | (k', v') :: r => by
    unfold mput
    split
    · simp only [mfind, mfind_mput_other v h r]
    · split
      · rename_i _ e; subst e; simp only [mfind]; split; · rfl
        · split; · omega
          · rfl
      · rename_i h1 h2
        have hk : k < k' := by omega
        rw [mfind]
        by_cases a : k < j
        · simp [a]
        · simp [a, show k ≠ j by omega, mfind, show ¬ k' < j by omega, show k' ≠ j by omega]

theorem mfind_mdel_other {k j : Nat} (h : j ≠ k) : ∀ {lo : Nat} {m : List (Nat × α)}, risingFrom lo m = true → mfind j (mdel k m) = mfind j m
  | _, [], _ => rfl
  | lo, (k', v') :: r, w => by
    simp only [risingFrom, Bool.and_eq_true, decide_eq_true_eq] at w
    unfold mdel
    split
    · simp only [mfind, mfind_mdel_other h w.2]
    · split
      · rename_i _ e; subst e
        simp only [mfind]
        by_cases a : k' < j
        · simp [a]
        · simp [a, show k' ≠ j by omega, mfind_rising (show j < k' + 1 by omega) w.2]
      · rfl

theorem mfind_mdel_self (k : Nat) : ∀ {lo : Nat} {m : List (Nat × α)}, risingFrom lo m = true → mfind k (mdel k m) = none
  | _, [], _ => rfl
  | lo, (k', v') :: r, w => by
    simp only [risingFrom, Bool.and_eq_true, decide_eq_true_eq] at w
    unfold mdel
    split
    · rename_i h; simp [mfind, h, mfind_mdel_self k w.2]
    · split
      · rename_i _ e; subst e; exact mfind_rising (by omega) w.2
      · simp [mfind, show ¬ k' < k by omega, show k' ≠ k by omega]

/-- Every member of a map after a write is the new one or was there. -/
theorem mem_mput {k : Nat} {v : α} {x : Nat × α} : ∀ {m : List (Nat × α)}, x ∈ mput k v m → x = (k, v) ∨ x ∈ m
  | [], h => by simpa [mput] using h
  | (k', v') :: r, h => by
    unfold mput at h
    split at h
    · rcases List.mem_cons.1 h with h | h
      · right; simp [h]
      · rcases mem_mput h with h | h <;> simp [h]
    · split at h
      · rcases List.mem_cons.1 h with h | h <;> simp [h]
      · rcases List.mem_cons.1 h with h | h
        · simp [h]
        · right; exact h

theorem mem_mdel {k : Nat} {x : Nat × α} : ∀ {m : List (Nat × α)}, x ∈ mdel k m → x ∈ m
  | [], h => by simp [mdel] at h
  | (k', v') :: r, h => by
    unfold mdel at h
    split at h
    · rcases List.mem_cons.1 h with h | h
      · simp [h]
      · simp [mem_mdel h]
    · split at h
      · simp [h]
      · exact h

/-! ### Registers -/

/-- A register reads as it was last written. -/
@[simp] theorem rget_rset_self (off : Nat) (w : Word) (s : State) : rget (rset off w s) off = w := by simp [rget, rset]

/-- A register write leaves every other register as it was. -/
theorem rget_rset_other {off o : Nat} (w : Word) (s : State) (h : o ≠ off) : rget (rset off w s) o = rget s o := by simp [rget, rset, mfind_mput_other w h]

end Sys2Proof.Machine
end

