-- ==== Sys2Proof/Laws/Memory.lean ====
section
/-! SUPPORT. Far memory: a byte reads as it was last written, every other byte is left alone, and every write keeps the canonical form (log 3). -/

namespace Sys2Proof.Machine

/-! ### The canonical form -/

theorem wf_rising {m : List Host.Cell} (h : Memory.wf m = true) : risingFrom 0 m = true := h

/-- Writing a byte keeps the canonical form. -/
theorem wf_farPut {m : List Host.Cell} (pa : Nat) (b : Byte) (h : Memory.wf m = true) : Memory.wf (farPut pa b m) = true := risingFrom_mput b (Nat.zero_le pa) h

theorem wf_farPutBytes : ∀ (pa : Nat) (d : Bytes) {m : List Host.Cell}, Memory.wf m = true → Memory.wf (farPutBytes pa d m) = true
  | _, [], _, h => h
  | pa, b :: r, _, h => wf_farPutBytes (pa + 1) r (wf_farPut pa b h)

/-- Memory after reset has the canonical form. -/
theorem wf_reset : Memory.wf State.reset.far = true := by decide

/-! ### Bytes -/

/-- The byte of a memory at an address, and x where none has been written. -/
theorem byte_farPut (m : List Host.Cell) (pa a : Nat) (b x : Byte) : mgetD a x (farPut pa b m) = if a = pa then b else mgetD a x m := by
  by_cases e : a = pa
  · subst e; simp [mgetD, farPut]
  · simp [mgetD, farPut, mfind_mput_other b e, e]

/-- After a run of bytes has been written, each address of it reads as its byte, and every other one as before. -/
theorem byte_farPutBytes : ∀ (d : Bytes) (pa a : Nat) (x : Byte) (m : List Host.Cell),
    mgetD a x (farPutBytes pa d m) = if pa ≤ a ∧ a < pa + d.length then d.getD (a - pa) x else mgetD a x m
  | [], pa, a, x, m => by
    rw [if_neg (by simp only [List.length_nil]; omega)]; rfl
  | b :: r, pa, a, x, m => by
    rw [farPutBytes, byte_farPutBytes r (pa + 1) a x, byte_farPut]
    by_cases e : a = pa
    · subst e; simp [show ¬ (a + 1 ≤ a) by omega]
    · by_cases k : pa + 1 ≤ a ∧ a < pa + 1 + r.length
      · have : a - pa = a - (pa + 1) + 1 := by omega
        simp [k, show pa ≤ a ∧ a < pa + (r.length + 1) by omega, this]
      · rw [if_neg k, if_neg e, if_neg (by simp only [List.length_cons]; omega)]

/-! ### Writes under a key -/

theorem pmc_far (ev : Nat) (a b c : Option Nat) (n : Nat) (s : State) : (pmc ev a b c n s).far = s.far := by
  have : ∀ (l : List Nat) (s : State), (each l (fun i s => if pmcOn s i ev a b c then bump (R.CNT_PMCi i) n s else s) s).far = s.far := by
    intro l
    induction l with
    | nil => intro s; rfl
    | cons i l ih =>
      intro s
      simp only [each, List.foldl] at ih ⊢
      rw [ih]
      split <;> simp [bump]
  exact this _ s

/-- Writing a piece of a line keeps the canonical form. -/
theorem wf_farWriteLine (key : Nat) (p : Nat × Bytes) (s : State) (h : Memory.wf s.far = true) : Memory.wf (farWriteLine key p s).far = true := by
  unfold farWriteLine
  split
  · exact h
  · rw [pmc_far]
    exact wf_farPutBytes _ _ (by split <;> first | exact h | exact wf_farPutBytes _ _ h)

/-- Writing bytes under a key keeps the canonical form. -/
theorem wf_farWrite (key pa : Nat) (d : Bytes) (s : State) (h : Memory.wf s.far = true) : Memory.wf (farWrite key pa d s).far = true := by
  have : ∀ (l : List (Nat × Bytes)) (s : State), Memory.wf s.far = true → Memory.wf (each l (farWriteLine key) s).far = true := by
    intro l
    induction l with
    | nil => intro s h; exact h
    | cons p l ih => intro s h; simp only [each, List.foldl] at ih ⊢; exact ih _ (wf_farWriteLine key p s h)
  exact this _ s h

/-- Far memory loses its contents in its canonical form. -/
theorem wf_forgetFar (s : State) : Memory.wf (forgetFar s).far = true := rfl

end Sys2Proof.Machine
end

