-- ==== Sys2Proof/Laws/PerInstr.lean ====
section
/-! SUPPORT. What holds of every command as syntax, one lemma per constructor: the table gives no command a word of bits, so no word spells it. -/

namespace Sys2Proof.Laws

/-- No word of any length spells the command (the table gives its row no bits). -/
def F.Statement (i : Instr) : Prop := ∀ nbits w : Nat, decodeTableWord nbits w ≠ some i

theorem F.nop : F.Statement .nop := by unfold F.Statement; intros; simp [decodeTableWord]
theorem F.lkPool : F.Statement .lkPool := by unfold F.Statement; intros; simp [decodeTableWord]
theorem F.gsScatter : F.Statement .gsScatter := by unfold F.Statement; intros; simp [decodeTableWord]
theorem F.meridian : F.Statement .meridian := by unfold F.Statement; intros; simp [decodeTableWord]
theorem F.gzDefine : F.Statement .gzDefine := by unfold F.Statement; intros; simp [decodeTableWord]
theorem F.gzSwitch : F.Statement .gzSwitch := by unfold F.Statement; intros; simp [decodeTableWord]
theorem F.gzDrop : F.Statement .gzDrop := by unfold F.Statement; intros; simp [decodeTableWord]
theorem F.gzRowmode : F.Statement .gzRowmode := by unfold F.Statement; intros; simp [decodeTableWord]
theorem F.gzRowput : F.Statement .gzRowput := by unfold F.Statement; intros; simp [decodeTableWord]
theorem F.memCopy : F.Statement .memCopy := by unfold F.Statement; intros; simp [decodeTableWord]
theorem F.rowExport : F.Statement .rowExport := by unfold F.Statement; intros; simp [decodeTableWord]
theorem F.rowImport : F.Statement .rowImport := by unfold F.Statement; intros; simp [decodeTableWord]
theorem F.cmdMessage : ∀ a b c, F.Statement (.cmdMessage a b c) := by intros; unfold F.Statement; intros; simp [decodeTableWord]
theorem F.dataMessage : ∀ a b c, F.Statement (.dataMessage a b c) := by intros; unfold F.Statement; intros; simp [decodeTableWord]
theorem F.creditMessage : ∀ a b c, F.Statement (.creditMessage a b c) := by intros; unfold F.Statement; intros; simp [decodeTableWord]
theorem F.opIssue : F.Statement .opIssue := by unfold F.Statement; intros; simp [decodeTableWord]
theorem F.opComplete : F.Statement .opComplete := by unfold F.Statement; intros; simp [decodeTableWord]
theorem F.resultBankWait : F.Statement .resultBankWait := by unfold F.Statement; intros; simp [decodeTableWord]
theorem F.portTimeout : ∀ a, F.Statement (.portTimeout a) := by intros; unfold F.Statement; intros; simp [decodeTableWord]
theorem F.streamGap : ∀ a, F.Statement (.streamGap a) := by intros; unfold F.Statement; intros; simp [decodeTableWord]
theorem F.abort : ∀ a b c, F.Statement (.abort a b c) := by intros; unfold F.Statement; intros; simp [decodeTableWord]
theorem F.stop : ∀ a b, F.Statement (.stop a b) := by intros; unfold F.Statement; intros; simp [decodeTableWord]
theorem F.restart : ∀ a, F.Statement (.restart a) := by intros; unfold F.Statement; intros; simp [decodeTableWord]
theorem F.tagGrant : ∀ a, F.Statement (.tagGrant a) := by intros; unfold F.Statement; intros; simp [decodeTableWord]
theorem F.tileDispatch : F.Statement .tileDispatch := by unfold F.Statement; intros; simp [decodeTableWord]
theorem F.rowReq : ∀ a b, F.Statement (.rowReq a b) := by intros; unfold F.Statement; intros; simp [decodeTableWord]
theorem F.partReq : ∀ a b, F.Statement (.partReq a b) := by intros; unfold F.Statement; intros; simp [decodeTableWord]
theorem F.rowRsp : ∀ a b, F.Statement (.rowRsp a b) := by intros; unfold F.Statement; intros; simp [decodeTableWord]
theorem F.partRsp : ∀ a b, F.Statement (.partRsp a b) := by intros; unfold F.Statement; intros; simp [decodeTableWord]
theorem F.farReadComplete : ∀ a b, F.Statement (.farReadComplete a b) := by intros; unfold F.Statement; intros; simp [decodeTableWord]
theorem F.error : ∀ a b, F.Statement (.error a b) := by intros; unfold F.Statement; intros; simp [decodeTableWord]
theorem F.winRead : ∀ a b, F.Statement (.winRead a b) := by intros; unfold F.Statement; intros; simp [decodeTableWord]
theorem F.winWrite : ∀ a b, F.Statement (.winWrite a b) := by intros; unfold F.Statement; intros; simp [decodeTableWord]
theorem F.winData : ∀ a b, F.Statement (.winData a b) := by intros; unfold F.Statement; intros; simp [decodeTableWord]
theorem F.winAck : ∀ a b, F.Statement (.winAck a b) := by intros; unfold F.Statement; intros; simp [decodeTableWord]
theorem F.gradRec : ∀ a b, F.Statement (.gradRec a b) := by intros; unfold F.Statement; intros; simp [decodeTableWord]
theorem F.packetForward : ∀ a b, F.Statement (.packetForward a b) := by intros; unfold F.Statement; intros; simp [decodeTableWord]
theorem F.addHoldExpire : ∀ a, F.Statement (.addHoldExpire a) := by intros; unfold F.Statement; intros; simp [decodeTableWord]
theorem F.mark1 : ∀ a b, F.Statement (.mark1 a b) := by intros; unfold F.Statement; intros; simp [decodeTableWord]
theorem F.mark2 : ∀ a b, F.Statement (.mark2 a b) := by intros; unfold F.Statement; intros; simp [decodeTableWord]
theorem F.meridianPhase1End : ∀ a, F.Statement (.meridianPhase1End a) := by intros; unfold F.Statement; intros; simp [decodeTableWord]
theorem F.meridianBegin : ∀ a, F.Statement (.meridianBegin a) := by intros; unfold F.Statement; intros; simp [decodeTableWord]
theorem F.updateWriteAck : ∀ a, F.Statement (.updateWriteAck a) := by intros; unfold F.Statement; intros; simp [decodeTableWord]
theorem F.meridianComplete : ∀ a, F.Statement (.meridianComplete a) := by intros; unfold F.Statement; intros; simp [decodeTableWord]
theorem F.refresh : ∀ a b, F.Statement (.refresh a b) := by intros; unfold F.Statement; intros; simp [decodeTableWord]
theorem F.refreshMark : ∀ a b, F.Statement (.refreshMark a b) := by intros; unfold F.Statement; intros; simp [decodeTableWord]
theorem F.withdraw : ∀ a b, F.Statement (.withdraw a b) := by intros; unfold F.Statement; intros; simp [decodeTableWord]
theorem F.purge : ∀ a b, F.Statement (.purge a b) := by intros; unfold F.Statement; intros; simp [decodeTableWord]
theorem F.ack : ∀ a b, F.Statement (.ack a b) := by intros; unfold F.Statement; intros; simp [decodeTableWord]
theorem F.orderedAckTimer : ∀ a b, F.Statement (.orderedAckTimer a b) := by intros; unfold F.Statement; intros; simp [decodeTableWord]
theorem F.release : ∀ a b, F.Statement (.release a b) := by intros; unfold F.Statement; intros; simp [decodeTableWord]
theorem F.versionRelease : ∀ a b c, F.Statement (.versionRelease a b c) := by intros; unfold F.Statement; intros; simp [decodeTableWord]
theorem F.handoff : ∀ a b, F.Statement (.handoff a b) := by intros; unfold F.Statement; intros; simp [decodeTableWord]
theorem F.handoffTimeout : ∀ a, F.Statement (.handoffTimeout a) := by intros; unfold F.Statement; intros; simp [decodeTableWord]
theorem F.migStart : F.Statement .migStart := by unfold F.Statement; intros; simp [decodeTableWord]
theorem F.migCancel : F.Statement .migCancel := by unfold F.Statement; intros; simp [decodeTableWord]
theorem F.migData : ∀ a b, F.Statement (.migData a b) := by intros; unfold F.Statement; intros; simp [decodeTableWord]
theorem F.migAck : ∀ a b, F.Statement (.migAck a b) := by intros; unfold F.Statement; intros; simp [decodeTableWord]
theorem F.migReady : ∀ a b, F.Statement (.migReady a b) := by intros; unfold F.Statement; intros; simp [decodeTableWord]
theorem F.query : ∀ a b, F.Statement (.query a b) := by intros; unfold F.Statement; intros; simp [decodeTableWord]
theorem F.reply : ∀ a b, F.Statement (.reply a b) := by intros; unfold F.Statement; intros; simp [decodeTableWord]
theorem F.set : ∀ a b, F.Statement (.set a b) := by intros; unfold F.Statement; intros; simp [decodeTableWord]
theorem F.regRead : ∀ a b, F.Statement (.regRead a b) := by intros; unfold F.Statement; intros; simp [decodeTableWord]
theorem F.regWrite : ∀ a b, F.Statement (.regWrite a b) := by intros; unfold F.Statement; intros; simp [decodeTableWord]
theorem F.regRsp : ∀ a b, F.Statement (.regRsp a b) := by intros; unfold F.Statement; intros; simp [decodeTableWord]
theorem F.fwdTimeout : ∀ a, F.Statement (.fwdTimeout a) := by intros; unfold F.Statement; intros; simp [decodeTableWord]
theorem F.event : ∀ a b, F.Statement (.event a b) := by intros; unfold F.Statement; intros; simp [decodeTableWord]
theorem F.eventRepeat : F.Statement .eventRepeat := by unfold F.Statement; intros; simp [decodeTableWord]
theorem F.flitReceive : ∀ a b c d e, F.Statement (.flitReceive a b c d e) := by intros; unfold F.Statement; intros; simp [decodeTableWord]
theorem F.linkAckTimer : ∀ a, F.Statement (.linkAckTimer a) := by intros; unfold F.Statement; intros; simp [decodeTableWord]
theorem F.linkStateRecord : ∀ a b c d e f, F.Statement (.linkStateRecord a b c d e f) := by intros; unfold F.Statement; intros; simp [decodeTableWord]
theorem F.compassInstall : F.Statement .compassInstall := by unfold F.Statement; intros; simp [decodeTableWord]
theorem F.compassGenExpire : ∀ a, F.Statement (.compassGenExpire a) := by intros; unfold F.Statement; intros; simp [decodeTableWord]
theorem F.lostTimeout : ∀ a, F.Statement (.lostTimeout a) := by intros; unfold F.Statement; intros; simp [decodeTableWord]
theorem F.portTrainingStep : ∀ a b, F.Statement (.portTrainingStep a b) := by intros; unfold F.Statement; intros; simp [decodeTableWord]
theorem F.portRetrainTrigger : ∀ a b, F.Statement (.portRetrainTrigger a b) := by intros; unfold F.Statement; intros; simp [decodeTableWord]
theorem F.fastRetrainEnd : ∀ a b c, F.Statement (.fastRetrainEnd a b c) := by intros; unfold F.Statement; intros; simp [decodeTableWord]
theorem F.bgRetrain : ∀ a, F.Statement (.bgRetrain a) := by intros; unfold F.Statement; intros; simp [decodeTableWord]
theorem F.lnkRetrain : ∀ a, F.Statement (.lnkRetrain a) := by intros; unfold F.Statement; intros; simp [decodeTableWord]
theorem F.lnkDisable : ∀ a, F.Statement (.lnkDisable a) := by intros; unfold F.Statement; intros; simp [decodeTableWord]
theorem F.lnkEnable : ∀ a, F.Statement (.lnkEnable a) := by intros; unfold F.Statement; intros; simp [decodeTableWord]
theorem F.tlbWalk : ∀ a b c d e, F.Statement (.tlbWalk a b c d e) := by intros; unfold F.Statement; intros; simp [decodeTableWord]
theorem F.fqRetry : ∀ a b, F.Statement (.fqRetry a b) := by intros; unfold F.Statement; intros; simp [decodeTableWord]
theorem F.fqFatal : ∀ a b, F.Statement (.fqFatal a b) := by intros; unfold F.Statement; intros; simp [decodeTableWord]
theorem F.faultTimeout : ∀ a, F.Statement (.faultTimeout a) := by intros; unfold F.Statement; intros; simp [decodeTableWord]
theorem F.invContext : ∀ a b c, F.Statement (.invContext a b c) := by intros; unfold F.Statement; intros; simp [decodeTableWord]
theorem F.invRange : ∀ a b c, F.Statement (.invRange a b c) := by intros; unfold F.Statement; intros; simp [decodeTableWord]
theorem F.invComplete : F.Statement .invComplete := by unfold F.Statement; intros; simp [decodeTableWord]
theorem F.rootWrite : ∀ a b c, F.Statement (.rootWrite a b c) := by intros; unfold F.Statement; intros; simp [decodeTableWord]
theorem F.load : F.Statement .load := by unfold F.Statement; intros; simp [decodeTableWord]
theorem F.unload : F.Statement .unload := by unfold F.Statement; intros; simp [decodeTableWord]
theorem F.discardLedger : F.Statement .discardLedger := by unfold F.Statement; intros; simp [decodeTableWord]
theorem F.hotDecay : F.Statement .hotDecay := by unfold F.Statement; intros; simp [decodeTableWord]
theorem F.contourDecay : F.Statement .contourDecay := by unfold F.Statement; intros; simp [decodeTableWord]
theorem F.pinLoad : ∀ a, F.Statement (.pinLoad a) := by intros; unfold F.Statement; intros; simp [decodeTableWord]
theorem F.hbmPortFailed : ∀ a b, F.Statement (.hbmPortFailed a b) := by intros; unfold F.Statement; intros; simp [decodeTableWord]
theorem F.hostMgmtRequest : ∀ a b c d e, F.Statement (.hostMgmtRequest a b c d e) := by intros; unfold F.Statement; intros; simp [decodeTableWord]
theorem F.hostWindowRequest : ∀ a b c d e, F.Statement (.hostWindowRequest a b c d e) := by intros; unfold F.Statement; intros; simp [decodeTableWord]
theorem F.remoteTimeout : ∀ a, F.Statement (.remoteTimeout a) := by intros; unfold F.Statement; intros; simp [decodeTableWord]
theorem F.hstWinCfgWrite : ∀ a, F.Statement (.hstWinCfgWrite a) := by intros; unfold F.Statement; intros; simp [decodeTableWord]
theorem F.hostCompletion : ∀ a b c, F.Statement (.hostCompletion a b c) := by intros; unfold F.Statement; intros; simp [decodeTableWord]
theorem F.cplTimeout : ∀ a, F.Statement (.cplTimeout a) := by intros; unfold F.Statement; intros; simp [decodeTableWord]
theorem F.hostPortRetrain : F.Statement .hostPortRetrain := by unfold F.Statement; intros; simp [decodeTableWord]
theorem F.hstRetrain : F.Statement .hstRetrain := by unfold F.Statement; intros; simp [decodeTableWord]
theorem F.hostRetrainDone : F.Statement .hostRetrainDone := by unfold F.Statement; intros; simp [decodeTableWord]
theorem F.retrainLimit : F.Statement .retrainLimit := by unfold F.Statement; intros; simp [decodeTableWord]
theorem F.hostLost : ∀ a, F.Statement (.hostLost a) := by intros; unfold F.Statement; intros; simp [decodeTableWord]
theorem F.hstRstRelease : F.Statement .hstRstRelease := by unfold F.Statement; intros; simp [decodeTableWord]
theorem F.hostModuleTrained : F.Statement .hostModuleTrained := by unfold F.Statement; intros; simp [decodeTableWord]
theorem F.resume : F.Statement .resume := by unfold F.Statement; intros; simp [decodeTableWord]
theorem F.cptModuleDetect : ∀ a, F.Statement (.cptModuleDetect a) := by intros; unfold F.Statement; intros; simp [decodeTableWord]
theorem F.cptModuleUp : ∀ a, F.Statement (.cptModuleUp a) := by intros; unfold F.Statement; intros; simp [decodeTableWord]
theorem F.cptModuleExclude : ∀ a, F.Statement (.cptModuleExclude a) := by intros; unfold F.Statement; intros; simp [decodeTableWord]
theorem F.cptModuleDown : ∀ a, F.Statement (.cptModuleDown a) := by intros; unfold F.Statement; intros; simp [decodeTableWord]
theorem F.cptPartnerLost : ∀ a, F.Statement (.cptPartnerLost a) := by intros; unfold F.Statement; intros; simp [decodeTableWord]
theorem F.cptPrstRelease : F.Statement .cptPrstRelease := by unfold F.Statement; intros; simp [decodeTableWord]
theorem F.retrainMask : ∀ a, F.Statement (.retrainMask a) := by intros; unfold F.Statement; intros; simp [decodeTableWord]
theorem F.pwrGoodFall : F.Statement .pwrGoodFall := by unfold F.Statement; intros; simp [decodeTableWord]
theorem F.pwrGoodRise : F.Statement .pwrGoodRise := by unfold F.Statement; intros; simp [decodeTableWord]
theorem F.blkRstAssert : F.Statement .blkRstAssert := by unfold F.Statement; intros; simp [decodeTableWord]
theorem F.blkRstRelease : ∀ a, F.Statement (.blkRstRelease a) := by intros; unfold F.Statement; intros; simp [decodeTableWord]
theorem F.clockLoss : ∀ a, F.Statement (.clockLoss a) := by intros; unfold F.Statement; intros; simp [decodeTableWord]
theorem F.clockRecover : ∀ a, F.Statement (.clockRecover a) := by intros; unfold F.Statement; intros; simp [decodeTableWord]
theorem F.thermalLoop : ∀ a, F.Statement (.thermalLoop a) := by intros; unfold F.Statement; intros; simp [decodeTableWord]
theorem F.powerLoop : ∀ a, F.Statement (.powerLoop a) := by intros; unfold F.Statement; intros; simp [decodeTableWord]
theorem F.fastLimit : ∀ a, F.Statement (.fastLimit a) := by intros; unfold F.Statement; intros; simp [decodeTableWord]
theorem F.paceMeter : ∀ a, F.Statement (.paceMeter a) := by intros; unfold F.Statement; intros; simp [decodeTableWord]
theorem F.railFault : ∀ a, F.Statement (.railFault a) := by intros; unfold F.Statement; intros; simp [decodeTableWord]
theorem F.thermalTrip : F.Statement .thermalTrip := by unfold F.Statement; intros; simp [decodeTableWord]
theorem F.thermalTripExit : F.Statement .thermalTripExit := by unfold F.Statement; intros; simp [decodeTableWord]
theorem F.pwrLatencyWrite : ∀ a, F.Statement (.pwrLatencyWrite a) := by intros; unfold F.Statement; intros; simp [decodeTableWord]
theorem F.napEntry : F.Statement .napEntry := by unfold F.Statement; intros; simp [decodeTableWord]
theorem F.napWake : ∀ a, F.Statement (.napWake a) := by intros; unfold F.Statement; intros; simp [decodeTableWord]
theorem F.deepEntry : F.Statement .deepEntry := by unfold F.Statement; intros; simp [decodeTableWord]
theorem F.deepHandoffTimeout : ∀ a, F.Statement (.deepHandoffTimeout a) := by intros; unfold F.Statement; intros; simp [decodeTableWord]
theorem F.deepWake : ∀ a, F.Statement (.deepWake a) := by intros; unfold F.Statement; intros; simp [decodeTableWord]
theorem F.coreFence : ∀ a b, F.Statement (.coreFence a b) := by intros; unfold F.Statement; intros; simp [decodeTableWord]
theorem F.engineStall : ∀ a, F.Statement (.engineStall a) := by intros; unfold F.Statement; intros; simp [decodeTableWord]
theorem F.fenceCoreCmd : ∀ a, F.Statement (.fenceCoreCmd a) := by intros; unfold F.Statement; intros; simp [decodeTableWord]
theorem F.clusterReset : ∀ a b, F.Statement (.clusterReset a b) := by intros; unfold F.Statement; intros; simp [decodeTableWord]
theorem F.partitionReset : ∀ a, F.Statement (.partitionReset a) := by intros; unfold F.Statement; intros; simp [decodeTableWord]
theorem F.spareSelftestDone : ∀ a b, F.Statement (.spareSelftestDone a b) := by intros; unfold F.Statement; intros; simp [decodeTableWord]
theorem F.resetScopeEnd : ∀ a, F.Statement (.resetScopeEnd a) := by intros; unfold F.Statement; intros; simp [decodeTableWord]
theorem F.stageEnd : ∀ a, F.Statement (.stageEnd a) := by intros; unfold F.Statement; intros; simp [decodeTableWord]
theorem F.fullNext : F.Statement .fullNext := by unfold F.Statement; intros; simp [decodeTableWord]
theorem F.clearField : F.Statement .clearField := by unfold F.Statement; intros; simp [decodeTableWord]
theorem F.check : F.Statement .check := by unfold F.Statement; intros; simp [decodeTableWord]
theorem F.apply : F.Statement .apply := by unfold F.Statement; intros; simp [decodeTableWord]
theorem F.applyCommit : F.Statement .applyCommit := by unfold F.Statement; intros; simp [decodeTableWord]
theorem F.discard : F.Statement .discard := by unfold F.Statement; intros; simp [decodeTableWord]
theorem F.update : F.Statement .update := by unfold F.Statement; intros; simp [decodeTableWord]
theorem F.fwUpdateDone : F.Statement .fwUpdateDone := by unfold F.Statement; intros; simp [decodeTableWord]
theorem F.snap : F.Statement .snap := by unfold F.Statement; intros; simp [decodeTableWord]
theorem F.snapComplete : F.Statement .snapComplete := by unfold F.Statement; intros; simp [decodeTableWord]
theorem F.cntPmselWrite : ∀ a b, F.Statement (.cntPmselWrite a b) := by intros; unfold F.Statement; intros; simp [decodeTableWord]
theorem F.cntFlagSumWrite : ∀ a, F.Statement (.cntFlagSumWrite a) := by intros; unfold F.Statement; intros; simp [decodeTableWord]
theorem F.debugEn : ∀ a, F.Statement (.debugEn a) := by intros; unfold F.Statement; intros; simp [decodeTableWord]
theorem F.capture : F.Statement .capture := by unfold F.Statement; intros; simp [decodeTableWord]
theorem F.captureDone : F.Statement .captureDone := by unfold F.Statement; intros; simp [decodeTableWord]
theorem F.nmRead : F.Statement .nmRead := by unfold F.Statement; intros; simp [decodeTableWord]
theorem F.regAccessWrite : ∀ a b c d, F.Statement (.regAccessWrite a b c d) := by intros; unfold F.Statement; intros; simp [decodeTableWord]
theorem F.badMessage : ∀ a b c, F.Statement (.badMessage a b c) := by intros; unfold F.Statement; intros; simp [decodeTableWord]
theorem F.unsupportedRequest : ∀ a b c, F.Statement (.unsupportedRequest a b c) := by intros; unfold F.Statement; intros; simp [decodeTableWord]
theorem F.registerRead : ∀ a b c, F.Statement (.registerRead a b c) := by intros; unfold F.Statement; intros; simp [decodeTableWord]
theorem F.vinRise : F.Statement .vinRise := by unfold F.Statement; intros; simp [decodeTableWord]
theorem F.vinRemoval : F.Statement .vinRemoval := by unfold F.Statement; intros; simp [decodeTableWord]
theorem F.temperatureReading : ∀ a b, F.Statement (.temperatureReading a b) := by intros; unfold F.Statement; intros; simp [decodeTableWord]
theorem F.instrumentAccess : ∀ a b c d, F.Statement (.instrumentAccess a b c d) := by intros; unfold F.Statement; intros; simp [decodeTableWord]

end Sys2Proof.Laws
end

