-- ==== Sys2Proof/Laws/Settle.lean ====
section
/-! SUPPORT. Where nothing is in progress, nothing goes on by itself: settle leaves a quiet state as it is. -/

namespace Sys2Proof.Machine

/-- A change that leaves a state as it is for every member of a list does so for the list. -/
theorem each_fix {α : Type} (f : α → State → State) (s : State) (h : ∀ x, f x s = s) (l : List α) : each l f s = s := by
  induction l with
  | nil => rfl
  | cons a l ih => simp only [each, List.foldl] at ih ⊢; rw [h a]; exact ih

/-- What concerns registers alone keeps a state quiet. -/
theorem quiet_rset {s : State} (h : Quiet s) (off : Nat) (w : Word) : Quiet (rset off w s) := by
  obtain ⟨h1, h2, h3, h4, h5, h6, h7, h8, h9, h10, h11, h12, h13⟩ := h
  constructor <;> first | exact h11 | simp_all [job, port]

theorem quiet_rounds {s : State} (h : Quiet s) : ∀ n, rounds n s = s
  | 0 => rfl
  | n + 1 => by
    have e : pumpOps (advance s) = s := by simp [advance, running, pumpOps, h.ops, each]
    rw [rounds, e, quiet_rounds h n]

theorem quiet_waits {s : State} (h : Quiet s) : pumpWaits s = s := by
  have hk : pumpKeys s = s := by have := h.keyPend; simp [pumpKeys, this, each]; cases s; simp_all
  have hh : hostReadPump s = s := by have := h.hreads; simp [hostReadPump, this, each]; cases s; simp_all
  have ho : pumpHost s = s := by have := h.hostHeld; simp [pumpHost, this, each]; cases s; simp_all
  have hm : each (List.range 16) merPump s = s := each_fix _ _ (fun j => by simp [merPump, h.mers]) _
  have hg : migRetry s = s := by have := h.migHeld; simp [migRetry, this, each]; cases s; simp_all
  have hp : migPump s = s := by simp [migPump, h.mig]
  simp [pumpWaits, hk, hh, ho, hm, hg, hp]

theorem quiet_deliver {s : State} (h : Quiet s) : deliverAll s = s := by
  have a : each (List.range 16) (fun q s => deliver q (s.ops.length + 1) s) s = s :=
    each_fix _ _ (fun q => by simp [deliver, findOp, h.ops]) _
  have b : each (List.range 16) (fun q s => if slotOn s q then releaseAll q s else s) s = s :=
    each_fix _ _ (fun q => by simp [releaseAll, slotDescs, h.gaz, each]) _
  simp [deliverAll, a, b]

/-- A port that has sent all it has begun sends nothing. -/
theorem quiet_port {s : State} (h : Quiet s) (k : Nat) : pumpPort k s = s := by
  have : (port s k).replay.zipIdx.filter (fun x => x.1.open_) = [] := by
    rw [List.filter_eq_nil_iff]
    rintro ⟨e, i⟩ m
    simp [h.ports k e (List.fst_mem_of_mem_zipIdx m)]
  unfold pumpPort
  split
  · rfl
  · simp [this, sortBy, each]

/-- A quiet state settles as it is. -/
theorem settle_quiet {s : State} (h : Quiet s) : settle s = s := by
  have he : endIssued s = s := by simp [endIssued, issued, h.ops]
  have hs : startNext s = s := by simp [startNext, running, issued, h.ops]
  have hf : prefetchOp s = s := by simp [prefetchOp, running, issued, h.ops]
  have hl : pumpLinks s = s := by
    have a : pumpNet s = s := by
      have e : each (List.range 6) pumpPort s = s := each_fix _ _ (quiet_port h) _
      have o : sendOrder s = [] := by simp [sendOrder, h.sendQ, sortBy, inTurn]
      simp only [pumpNet, e, o, List.foldl_nil]
      rw [← h.sendQ]
    have b : pumpHolds s = s := by have := h.holds; simp [pumpHolds, this, each]; cases s; simp_all
    have c : freeKept s = s := by have := h.kept; simp [freeKept, this, each]; cases s; simp_all
    simp [pumpLinks, a, b, c]
  have hq : deepProgress s = s := by simp [deepProgress, h.deep]
  simp [settle, quiet_rounds h, quiet_waits h, he, hs, hf, quiet_deliver h, hl, hq]

end Sys2Proof.Machine
end

