-- ==== Sys2Proof/Tests/Slice0.lean ====
section
/-! SUPPORT. Tests: an ill-formed command for each check of WellFormed, one step of the commands on small states with results taken from the manual, and a state and operands that meet the hypotheses of each statement. -/

namespace Sys2Proof.Tests

open Sys2Proof.Machine

set_option maxRecDepth 20000

/-! ### Small states -/

/-- A block that is ready, without a job, a partner or a neighbour. -/
def base : State := { State.reset with blkRst := false, hstRst := false, cptPrst := false, stage := 9 }

/-- The block of a torus of two, on one ring. -/
def pair : State := { base with straps := { base.straps with xd := 2 } }

/-- Core 0 enabled. -/
def core0 : List Pos := base.pos.set 0 { mark := 1, logical := 0, fenced := false, isolated := false }

/-- The compute port up, with its module 0 and queue 1 running, and core 0 enabled. -/
def portOn : State := setMod 0 CM.up (setPstate 1 { base with pos := core0, queues := base.queues.set 1 { state := 1, cmdGrant := 512, dataGrant := 8192 } })

/-- Queue 1 running for job slot 1, which is enabled. -/
def slot1 : State := fset (R.CMD_Qj_CFG 1) F.CMD_Qj_CFG_JOB_ID 3 (fset (R.CMD_Qj_CFG 1) F.CMD_Qj_CFG_ENABLE 1 portOn)

/-- A staged command of one QWORD block. -/
def cmd (code : Nat) : Staged := { seq := 0, words := word code :: List.replicate 7 0, aborted := false, violated := false, vlogs := 0, firstVlog := 0 }

/-- An operation of queue 1 whose work is due. -/
def opDue (code : Nat) (place : OpPlace) : Op := { newOp 1 (cmd code) with place := place, effectDue := true }

/-- slot1 with that operation. -/
def withOp (code : Nat) (place : OpPlace) : State := { slot1 with ops := [opDue code place] }

/-- The first word of a message for queue 1. -/
def head (type units seq : Nat) : Word := word (fld 0 4 type + fld 4 4 1 + fld 8 7 units + fld 16 48 seq)

/-- A packet without a body, from block 1 to block 0. -/
def packet (cls kind : Nat) : Packet := { dest := 0, src := 1, cls := cls, lenM1 := 0, kind := kind, jobId := 3, gen := 0, escaped := false, bodyBytes := 0, eseq := 0, body := [] }

/-- Port 0 of the two-block ring in service. -/
def linked : State := setPortState 0 PS.up pair

/-- The host port in service. -/
def hosted : State := setLstate LS.up { base with straps := { base.straps with host := true } }

/-- A descriptor of table 5, version 7, of one sheet at block 0, in a state. -/
def desc (st : Nat) : Desc := (((({ words := List.replicate 32 0 } : Desc).setW 0 0 12 5).setW 0 12 16 7).setW 1 45 7 1).setState st

/-- What an exec answers, where it is a next state. -/
def next (o : Host.Outcome State Fault Refusal) (f : State → Bool) : Bool := match o with
  | .next t => f t
  | _ => false

/-! ### Well-formed commands -/

/-- Packets: a port, and each field of the header. -/
theorem test_wf_packets : let p := packet 0 1
    (Instr.rowReq 6 p).wf = false ∧ (Instr.partReq 0 { p with dest := 64 }).wf = false ∧ (Instr.rowRsp 0 { p with src := 64 }).wf = false
    ∧ (Instr.partRsp 0 { p with cls := 8 }).wf = false ∧ (Instr.error 0 { p with lenM1 := 128 }).wf = false ∧ (Instr.winRead 0 { p with kind := 256 }).wf = false
    ∧ (Instr.winWrite 0 { p with jobId := 256 }).wf = false ∧ (Instr.winData 0 { p with gen := 256 }).wf = false
    ∧ (Instr.winAck 0 { p with bodyBytes := 16384 }).wf = false ∧ (Instr.gradRec 0 { p with eseq := 2 ^ 32 }).wf = false
    ∧ (Instr.packetForward 6 p).wf = false ∧ (Instr.mark1 6 p).wf = false ∧ (Instr.mark2 6 p).wf = false ∧ (Instr.refresh 6 p).wf = false
    ∧ (Instr.refreshMark 6 p).wf = false ∧ (Instr.withdraw 6 p).wf = false ∧ (Instr.purge 6 p).wf = false ∧ (Instr.ack 6 p).wf = false
    ∧ (Instr.release 6 p).wf = false ∧ (Instr.handoff 6 p).wf = false ∧ (Instr.migData 6 p).wf = false ∧ (Instr.migAck 6 p).wf = false
    ∧ (Instr.migReady 6 p).wf = false ∧ (Instr.query 6 p).wf = false ∧ (Instr.reply 6 p).wf = false ∧ (Instr.set 6 p).wf = false
    ∧ (Instr.regRead 6 p).wf = false ∧ (Instr.regWrite 6 p).wf = false ∧ (Instr.regRsp 6 p).wf = false ∧ (Instr.event 6 p).wf = false := by decide

/-- Messages, queue controls, tags and meridians. -/
theorem test_wf_queues : let long := List.replicate 1017 (0 : Word)
    (Instr.cmdMessage 0 0 long).wf = false ∧ (Instr.dataMessage 0 0 long).wf = false ∧ (Instr.creditMessage 0 0 long).wf = false ∧ (Instr.badMessage 0 0 long).wf = false
    ∧ (Instr.portTimeout 16).wf = false ∧ (Instr.streamGap 16).wf = false ∧ (Instr.abort .register 16 0).wf = false ∧ (Instr.abort .register 0 (2 ^ 48)).wf = false
    ∧ (Instr.stop .register 16).wf = false ∧ (Instr.restart ⟨.register, 16⟩).wf = false
    ∧ (Instr.abort (.message (word 3) 0 [word 4]) 1 0).wf = false ∧ (Instr.abort (.message (word 3) 0 [word 4]) 0 0).wf = true ∧ (Instr.stop (.message (word 3) 0 [word 5]) 0).wf = false
    ∧ (Instr.stop (.message (word 3) 0 [word 1]) 0).wf = true ∧ (Instr.restart ⟨.message (word 3) 0 [word 2], 0⟩).wf = true
    ∧ (Instr.farReadComplete (.far (2 ^ 18)) .good).wf = false ∧ (Instr.farReadComplete (.near 144 0 0 0) .uncorrectable).wf = false ∧ (Instr.farReadComplete (.victim 262144) .uncorrectable).wf = false
    ∧ (Instr.farReadComplete (.prefetch 524288) .uncorrectable).wf = false ∧ (Instr.addHoldExpire 6).wf = false
    ∧ (Instr.meridianPhase1End 16).wf = false ∧ (Instr.meridianBegin 16).wf = false ∧ (Instr.updateWriteAck 131072).wf = false ∧ (Instr.meridianComplete 16).wf = false
    ∧ (Instr.orderedAckTimer 64 3).wf = false ∧ (Instr.orderedAckTimer 0 2).wf = false ∧ (Instr.versionRelease 16 0 0).wf = false
    ∧ (Instr.versionRelease 0 4096 0).wf = false ∧ (Instr.versionRelease 0 0 65536).wf = false := by decide

/-- Links. -/
theorem test_wf_links : let body := List.replicate 116 (0 : Byte)
    let id : PartnerId := { block := 0, xc := 0, yc := 0, zc := 0, xd := 1, yd := 1, zd := 1, port := 0, family := 0, major := 0, txGood := 0, rxGood := 0 }
    let step := fun e => (Instr.portTrainingStep 0 e).wf
    (Instr.fwdTimeout 65536).wf = false ∧ (Instr.flitReceive 6 0 body 0 .good).wf = false ∧ (Instr.flitReceive 0 0 [] 0 .good).wf = false
    ∧ (Instr.flitReceive 0 0 body (2 ^ 32) .good).wf = false ∧ (Instr.linkAckTimer 6).wf = false ∧ (Instr.linkStateRecord 6 0 0 0 0 0).wf = false
    ∧ (Instr.linkStateRecord 0 64 0 0 0 0).wf = false ∧ (Instr.linkStateRecord 0 0 6 0 0 0).wf = false ∧ (Instr.linkStateRecord 0 0 0 7 0 0).wf = false
    ∧ (Instr.linkStateRecord 0 0 0 0 9 0).wf = false ∧ (Instr.compassGenExpire 256).wf = false ∧ (Instr.lostTimeout 64).wf = false
    ∧ (Instr.portTrainingStep 6 (.goodLanes 0 0)).wf = false ∧ step (.stepDone 0) = false ∧ step (.stepDone 9) = false ∧ step (.stepFailed 0) = false ∧ step (.stepFailed 9) = false
    ∧ step (.goodLanes 512 0) = false ∧ step (.goodLanes 0 512) = false ∧ step (.identity { id with rxGood := 512 }) = false ∧ step (.identity { id with block := 64 }) = false ∧ step (.identity { id with xc := 4 }) = false ∧ step (.identity { id with yc := 4 }) = false
    ∧ step (.identity { id with zc := 4 }) = false ∧ step (.identity { id with xd := 5 }) = false ∧ step (.identity { id with yd := 5 }) = false
    ∧ step (.identity { id with zd := 5 }) = false ∧ step (.identity { id with port := 6 }) = false ∧ step (.identity { id with family := 2 ^ 16 }) = false
    ∧ step (.identity { id with major := 2 ^ 8 }) = false ∧ step (.identity { id with txGood := 512 }) = false ∧ step (.identity id) = true
    ∧ (Instr.portRetrainTrigger 6 .silence).wf = false ∧ (Instr.fastRetrainEnd 6 0 0).wf = false ∧ (Instr.fastRetrainEnd 0 512 0).wf = false
    ∧ (Instr.fastRetrainEnd 0 0 512).wf = false ∧ (Instr.bgRetrain 6).wf = false ∧ (Instr.lnkRetrain 6).wf = false ∧ (Instr.lnkDisable 6).wf = false
    ∧ (Instr.lnkEnable 6).wf = false ∧ (Instr.handoffTimeout 6).wf = false ∧ (Instr.deepHandoffTimeout 6).wf = false := by decide

/-- Translation, memories, host and compute ports. -/
theorem test_wf_memory_and_ports :
    (Instr.tlbWalk 299 0 0 false false).wf = false ∧ (Instr.tlbWalk 0 64 0 false false).wf = false ∧ (Instr.tlbWalk 0 16 0 false true).wf = false
    ∧ (Instr.tlbWalk 0 0 (2 ^ 57) false false).wf = false ∧ (Instr.fqRetry 4096 0).wf = false ∧ (Instr.fqRetry 0 65536).wf = false ∧ (Instr.fqFatal 4096 0).wf = false
    ∧ (Instr.fqFatal 0 65536).wf = false ∧ (Instr.faultTimeout 4096).wf = false ∧ (Instr.invContext 64 false 0).wf = false ∧ (Instr.invContext 0 false (2 ^ 48)).wf = false
    ∧ (Instr.invRange 64 false 0).wf = false ∧ (Instr.invRange 0 false (2 ^ 48)).wf = false ∧ (Instr.rootWrite false 64 0).wf = false ∧ (Instr.rootWrite true 16 0).wf = false
    ∧ (Instr.pinLoad 16).wf = false ∧ (Instr.hbmPortFailed 8 false).wf = false ∧ (Instr.hostMgmtRequest 4 false 0 8 0).wf = false
    ∧ (Instr.hostMgmtRequest 0 false (2 ^ 64) 8 0).wf = false ∧ (Instr.hostMgmtRequest 0 false 0 0 0).wf = false ∧ (Instr.hostMgmtRequest 0 false 0 4097 0).wf = false
    ∧ (Instr.hostWindowRequest 4 false 0 8 []).wf = false ∧ (Instr.hostWindowRequest 0 false (2 ^ 64) 8 []).wf = false ∧ (Instr.hostWindowRequest 0 false 0 0 []).wf = false
    ∧ (Instr.hostWindowRequest 0 false 0 4097 []).wf = false ∧ (Instr.hostWindowRequest 0 true 0 8 []).wf = false ∧ (Instr.remoteTimeout (2 ^ 18)).wf = false
    ∧ (Instr.hostCompletion 16384 .success []).wf = false ∧ (Instr.cplTimeout 16384).wf = false ∧ (Instr.cptModuleDetect 8).wf = false ∧ (Instr.cptModuleUp 8).wf = false
    ∧ (Instr.cptModuleExclude 8).wf = false ∧ (Instr.cptModuleDown 8).wf = false ∧ (Instr.retrainMask 256).wf = false
    ∧ (Instr.unsupportedRequest .poisoned (2 ^ 64) 0).wf = false ∧ (Instr.unsupportedRequest (.badTlp (some 4)) 0 0).wf = false
    ∧ (Instr.unsupportedRequest (.unsupported (some 4)) 0 0).wf = false := by decide

/-- Supplies, fences, bring-up, registers, instruments. -/
theorem test_wf_system : let t : Straps := { xc := 0, yc := 0, zc := 0, xd := 0, yd := 0, zd := 0, host := false }
    let r : StageResult := { elapsedUs := 0, supplyOk := 0, vinMv := 0, hbm := [], stackIds := [], selfTestFailed := [],
                             farMiscompares := 0, farMiscompare := 0, nearRetired := [], nearDead := [] }
    let rel := fun t => (Instr.blkRstRelease t).wf
    let stage := fun r => (Instr.stageEnd r).wf
    rel { t with xc := 4 } = false ∧ rel { t with yc := 4 } = false ∧ rel { t with zc := 4 } = false ∧ rel { t with xd := 4 } = false ∧ rel { t with yd := 4 } = false
    ∧ rel { t with zd := 4 } = false ∧ rel t = true ∧ (Instr.clockLoss 17).wf = false ∧ (Instr.clockRecover 17).wf = false ∧ (Instr.thermalLoop []).wf = false
    ∧ (Instr.paceMeter []).wf = false ∧ (Instr.railFault 14).wf = false ∧ (Instr.deepWake 8).wf = false ∧ (Instr.coreFence 144 1).wf = false ∧ (Instr.coreFence 0 3).wf = false
    ∧ (Instr.engineStall 144).wf = false ∧ (Instr.fenceCoreCmd 256).wf = false ∧ (Instr.clusterReset 16 false).wf = false ∧ (Instr.partitionReset 4).wf = false
    ∧ (Instr.spareSelftestDone 144 true).wf = false ∧ (Instr.resetScopeEnd [144]).wf = false ∧ stage { r with supplyOk := 2 ^ 14 } = false
    ∧ stage { r with hbm := List.replicate 9 { capacity := 72, bin := 80, faulty := [], faultyCmd := [], at80 := true, at64 := true } } = false
    ∧ stage { r with hbm := [{ capacity := 72, bin := 80, faulty := [(33, 0)], faultyCmd := [], at80 := true, at64 := true }] } = false
    ∧ stage { r with stackIds := List.replicate 9 0 } = false ∧ stage { r with selfTestFailed := [144] } = false ∧ stage { r with farMiscompare := 256 } = false
    ∧ stage { r with nearRetired := [(144 * 131072, 0)] } = false ∧ stage { r with nearRetired := [(0, 60)] } = false ∧ stage { r with nearDead := [(144, 0)] } = false ∧ stage { r with nearDead := [(0, 131072)] } = false ∧ stage r = true
    ∧ (Instr.cntPmselWrite 8 0).wf = false ∧ (Instr.regAccessWrite (.host 4) 0 8 0).wf = false ∧ (Instr.regAccessWrite .controller (2 ^ 26) 8 0).wf = false
    ∧ (Instr.regAccessWrite .controller 0 0 0).wf = false ∧ (Instr.regAccessWrite .controller 0 4097 0).wf = false ∧ (Instr.registerRead (.host 4) 0 8).wf = false
    ∧ (Instr.registerRead .forwarded (2 ^ 26) 8).wf = false ∧ (Instr.registerRead .forwarded 0 0).wf = false ∧ (Instr.registerRead .forwarded 0 4097).wf = false
    ∧ (Instr.temperatureReading 589 0).wf = false ∧ (Instr.instrumentAccess .scan .host 144 false).wf = false ∧ (Instr.instrumentAccess .scan (.compute 8) 0 false).wf = false
    ∧ (Instr.instrumentAccess .scan (.hbm 8) 0 false).wf = false ∧ (Instr.instrumentAccess .scan (.peer 6) 0 false).wf = false := by decide

/-! ### States and operands that meet the hypotheses of the statements: the machine, supplies, power -/

theorem witness_StepRunsFrontCommand : ({ base with pending := [.nop] } : State).pending = .nop :: [] := rfl

theorem witness_EmptyQueueLetsTimePass :
    let pin := { xc := 0, yc := 0, zc := 0, xd := 0, yd := 0, zd := 0, host := false : Straps }
    let held := { State.reset with released := some pin }
    base.pending = [] ∧ base.up = true ∧ State.reset.pending = [] ∧ State.reset.up = false ∧ State.reset.released = none
    ∧ (held.powered = true ∧ held.blkRst = true ∧ held.released = some pin ∧ { held with aon := 999959 }.aon + 40 < 1000000 ∧ 1000000 ≤ { held with aon := 999960 }.aon + 40) := by decide

theorem witness_OnlySupplyCommandsChangeSupplies : changesSupplies .hotDecay = false ∧ ∃ t, exec .hotDecay base = .next t := ⟨by decide, _, rfl⟩

theorem witness_BlockThatIsDownIgnoresCommands : reachesReset .nop = false ∧ State.reset.up = false := by decide

theorem witness_EveryStepKeepsSound : Sound base ∧ ∃ t, step base = .next t :=
  ⟨⟨fun _ h => (nomatch h), by unfold Supplied; decide, by unfold Placed; decide, fun h => absurd h (by decide)⟩, _, rfl⟩

/-- A block that reports to block 1, and the same with an enabled event pending. -/
def reporter : State := rset R.MG_INT_MASK (word (2 ^ 7)) (fset R.LNK_CFG F.LNK_CFG_ROOT_BLOCK 1 (fset R.LNK_CFG F.LNK_CFG_FWD_EVENTS 1 pair))

theorem witness_EventsReachTheRoot : let t := setBit R.MG_EVENT 0 reporter
    let root := rset R.MG_INT_MASK (word (2 ^ 6)) pair
    (reporter.up = true ∧ t.up = true ∧ reports t = true ∧ interrupt reporter = false ∧ interrupt t = true) ∧ reports base = false
    ∧ (rootBlock root = self root ∧ (packet CL.ctrl K.event).src < 64 ∧ wbit (rget root R.MG_INT_MASK) 6 = true) := by decide

theorem witness_BlockResetLeavesOnlyWhatOutlivesIt : base.powered = true ∧ base.blkRst = false ∧ base.up = true ∧ (8 ≤ 8 ∧ 8 < 13) ∧ (8 ≤ 12 ∧ 12 < 13) := by decide

theorem witness_SuppliesAndResetRelease :
    (({ State.reset with pwrGood := false, powered := false } : State).pwrGood = false ∧ State.reset.vin = true)
    ∧ (State.reset.powered = true ∧ State.reset.blkRst = true ∧ State.reset.aon < 1000000 ∧ 1000000 ≤ ({ State.reset with aon := 1000000 } : State).aon) ∧ ({ State.reset with vin := false } : State).vin = false := by decide

theorem witness_ClocksSensorsTripsAndSupplies :
    let hot := { base with temps := mput 0 98 base.temps }
    base.up = true ∧ clockBad base 0 = false ∧ clockBad base 16 = false ∧ clockBad { base with clocksBad := maskSet 0 (clockBit 16) } 16 = true
    ∧ clockBad { base with clocksBad := maskSet 0 (clockBit 1) } 1 = true ∧ hbmFailed base 0 = false ∧ hbmFailed base 7 = false
    ∧ base.pmode ≠ 1 ∧ tripped base = false ∧ tripped (fset R.NM_TEMP F.NM_TEMP_TRIP 1 base) = true ∧ tripOver (fset R.NM_TEMP F.NM_TEMP_TRIP 1 base) = true
    ∧ hot.up = true ∧ tripped hot = false ∧ anyTrip hot = true := by decide

theorem witness_ThermalLoopMovesEveryTarget : base.up = true ∧ base.therm.length = 4 ∧ 0 < 4 ∧ 3 < 4
    ∧ next (exec (.thermalLoop [105, 102, 103, 0]) base) (fun t => t.therm == [740, 750, 750, 750] && wbit (rget t R.PWR_STATUS) 0)
    ∧ next (exec (.thermalLoop [105]) { base with therm := [555, 750, 750, 750] }) (fun t => t.therm.getD 0 0 == 550 && wbit (rget t R.PWR_STATUS) 3) := by decide

theorem witness_PowerLoopAndLimiterMoveTheCeiling : base.up = true ∧ 380 < 381 ∧ 380 ≤ 380 ∧ ({ base with fast := true } : State).fast = true ∧ 2 ≤ base.stage ∧ base.pmode ≠ 1
    ∧ base.scopes.contains { partition := true, index := 3 } = false ∧ fget base R.PWR_LIMIT F.PWR_LIMIT_LIMIT < fget base R.PWR_LIMIT F.PWR_LIMIT_LIMIT + 1 ∧ max 550 (base.pwrCeil - 10) < base.pwrCeil := by decide

theorem witness_NapIsEnteredInStepsAndLeftByWakes :
    base.up = true ∧ mayNap (rset R.PWR_LATENCY 50 base) = true ∧ mayNap base = false ∧ ready base = true ∧ base.pmode = 0 ∧ base.pmode ≠ 1
    ∧ (∀ m ∈ [1, 4], ({ base with pmode := m } : State).up = true ∧ ({ base with pmode := m } : State).pmode = m ∧ ready { base with pmode := m } = true)
    ∧ (let entering := { base with pmode := 4, modeAt := 20000 }; entering.aon < entering.modeAt ∧ { entering with modeAt := 0 }.modeAt ≤ { entering with modeAt := 0 }.aon)
    ∧ (49 : Word).toNat % 2 ^ 32 < 50 := by decide

theorem witness_DeepLosesAllButIslandAndFarMemory :
    let s := fset R.PWR_CFG F.PWR_CFG_DEEP_EN 1 (rset R.PWR_LATENCY 900000 base)
    let leaving := { linked with pmode := 3, deepWait := [0], ports := linked.ports.set 0 { handoff := true } }
    let deep := { State.reset with blkRst := false, pmode := 2 }
    (s.up = true ∧ mayDeep s = true ∧ s.pmode = 0)
    ∧ (leaving.up = true ∧ leaving.pmode = 3 ∧ leaving.deepWait.contains 0 = true ∧ leaving.deepWait ≠ [] ∧ { leaving with deepWait := [] }.pmode = 3)
    ∧ (let off := { base with pmode := 5, modeAt := 1500000 }
      off.aon + 500000 < off.modeAt ∧ { off with aon := 1000000 }.aon < off.modeAt ∧ off.modeAt ≤ { off with aon := 1000000 }.aon + 500000 ∧ off.modeAt ≤ { off with aon := 1500000 }.aon)
    ∧ (0 < 8 ∧ deep.pmode = 2 ∧ deep.blkRst = false ∧ deep.powered = true ∧ comparatorMay deep 0 = true ∧ comparatorMay deep 7 = true) := by decide

/-! ### Messages, operations -/

/-- A message for queue 1 in its place. -/
theorem next_message (type units : Nat) (h : wbits (head type units 0) 4 4 = 1) : MessageNext portOn (head type units 0) 0 1 :=
  ⟨by decide, by decide, by decide, by decide, h, by decide, by decide, by decide⟩

theorem witness_CmdMessageStagesCommandOrStopsQueue :
    let s := portOn
    let w := head MT.cmd 1 0
    (MessageNext s w 0 1 ∧ wbits w 0 4 = MT.cmd ∧ 1 ≤ wbits w 8 7 ∧ wbits w 8 7 ≤ 64)
    ∧ (wbits w 8 7 = 1 + wbits (([] : List Word).getD 0 0) 8 3 ∧ wbits w 16 48 = (queue s 1).nextSeq ∧ (queue s 1).cmdUsed + 1 ≤ (queue s 1).cmdGrant)
    ∧ (MessageNext s (head MT.cmd 64 0) 0 1 ∧ wbits (head MT.cmd 64 0) 0 4 = MT.cmd ∧ wbits (head MT.cmd 64 0) 8 7 = 64)
    ∧ (MessageNext s (head MT.cmd 1 5) 0 1 ∧ wbits (head MT.cmd 1 5) 16 48 ≠ (queue s 1).nextSeq)
    ∧ (MessageNext { s with queues := s.queues.set 1 { state := 1 } } w 0 1 ∧ (queue { s with queues := s.queues.set 1 { state := 1 } } 1).cmdGrant < 0 + 1) :=
  ⟨⟨next_message _ _ (by decide), by decide⟩, by decide, ⟨next_message _ _ (by decide), by decide⟩,
    ⟨⟨by decide, by decide, by decide, by decide, by decide, by decide, by decide, by decide⟩, by decide⟩,
    ⟨⟨by decide, by decide, by decide, by decide, by decide, by decide, by decide, by decide⟩, by decide⟩⟩

theorem witness_BreachesStopTheirQueueAlone :
    let stream := { portOn with queues := portOn.queues.set 1 { state := 1, early := [(3, { w0 := 0, w1 := 0, body := [] })] } }
    let waits := fset (R.CMD_Qj_CFG 1) F.CMD_Qj_CFG_PORT_TIMEOUT 1 (withOp OP.lkPool .running)
    1 < portOn.queues.length ∧ portOn.up = true ∧ portOn.pmode = 0 ∧ pstate portOn = 1 ∧ (txModule portOn).isNone = false ∧ wbits (head 0 1 0) 0 4 ∉ [MT.cmd, MT.data, MT.ctrl, MT.credit]
    ∧ (MessageNext portOn (head MT.cmd 0 0) 0 1 ∧ wbits (head MT.cmd 0 0) 0 4 ∈ [MT.cmd, MT.data, MT.ctrl] ∧ wbits (head MT.cmd 0 0) 8 7 = 0)
    ∧ (MessageNext portOn (head MT.data 65 0) 0 1 ∧ wbits (head MT.data 65 0) 0 4 ∈ [MT.cmd, MT.data, MT.ctrl] ∧ 64 < wbits (head MT.data 65 0) 8 7)
    ∧ (let s := fset (R.CMD_Qj_CFG 1) F.CMD_Qj_CFG_PORT_TIMEOUT 1 stream
      s.up = true ∧ (queue s 1).state = 1 ∧ (queue s 1).early ≠ [] ∧ portTimeout s 1 ≠ 0)
    ∧ waits.up = true ∧ running waits = some (opDue OP.lkPool .running) ∧ portTimeout waits 1 ≠ 0
    ∧ (waitsData (opDue OP.lkPool .running) = true ∧ (opDue OP.lkPool .running).endNow = false ∧ (opDue OP.lkPool .running).lastIn + 1000 * portTimeout waits 1 < { waits with aon := 1001 }.aon)
    ∧ { waits with aon := 1000 }.aon ≤ (opDue OP.lkPool .running).lastIn + 1000 * portTimeout waits 1 :=
  ⟨by decide, by decide, by decide, by decide, by decide, by decide, ⟨next_message _ _ (by decide), by decide⟩, ⟨next_message _ _ (by decide), by decide⟩, by decide, by decide,
    by decide, by decide, by decide, by decide⟩

theorem witness_DataIsStagedAndCreditGranted :
    let w := head MT.data 1 0
    let c := head MT.credit 1 0
    (MessageNext portOn w 0 1 ∧ wbits w 0 4 = MT.data ∧ 1 ≤ wbits w 8 7 ∧ wbits w 8 7 ≤ 64 ∧ (queue portOn 1).dataUsed + wbits w 8 7 ≤ (queue portOn 1).dataGrant
      ∧ findOp portOn 1 (wbits w 16 48) = none ∧ (queue portOn 1).nextSeq ≤ wbits w 16 48 ∧ (mfind (wbits w 16 48) (queue portOn 1).data).bind (·.last) = none)
    ∧ (portOn.up = true ∧ portOn.pmode = 0 ∧ pstate portOn = 1 ∧ (txModule portOn).isNone = false ∧ wbits c 4 4 = 1 ∧ (queue portOn 1).state ≠ 0 ∧ wbits c 0 4 = MT.credit ∧ 1 ≤ wbits c 8 7 ∧ wbits c 8 7 ≤ 64
      ∧ running portOn = none ∧ (wbits (([0, 0, 8] : List Word).getD 2 0) 0 32 + 2 ^ 32 - (queue portOn 1).resUsed % 2 ^ 32) % 2 ^ 32 ≤ 2 ^ 31) :=
  ⟨⟨next_message _ _ (by decide), by decide⟩, by decide⟩

theorem witness_AbortStopAndRestartActOnTheirQueue :
    let s := { slot1 with queues := slot1.queues.set 1 { state := 1, staged := [cmd OP.nop] } }
    let r := withOp OP.nop .running
    (s.up = true ∧ ready s = true ∧ (queue s 1).state ≠ 0 ∧ (queue s 1).staged.any (fun c => c.seq == 0) = true)
    ∧ (r.up = true ∧ ready r = true ∧ (queue r 1).state ≠ 0 ∧ (queue r 1).staged.any (fun c => c.seq == 0) = false
      ∧ abortTarget r 1 0 = some (opDue OP.nop .running) ∧ (opDue OP.nop .running).place = .running ∧ abortable (opDue OP.nop .running) = true)
    ∧ (MessageNext portOn (head MT.ctrl 1 0) 0 1 ∧ wbits (head MT.ctrl 1 0) 0 4 = MT.ctrl ∧ wbits (head MT.ctrl 1 0) 8 7 = 1) :=
  ⟨by decide, by decide, next_message _ _ (by decide), by decide⟩

/-- An abort that names an operation that is issued, that runs and may not be aborted, that has ended, or that is not there; a queue that is disabled; a block that is not ready. -/
theorem witness_AbortStopAndRestartActOnTheirQueue_places :
    let names := fun (code : Nat) (p : OpPlace) => (withOp code p).up = true ∧ ready (withOp code p) = true ∧ (queue (withOp code p) 1).state ≠ 0
      ∧ (queue (withOp code p) 1).staged.any (fun c => c.seq == 0) = false
    (names OP.nop .issued ∧ abortTarget (withOp OP.nop .issued) 1 0 = some (opDue OP.nop .issued) ∧ (opDue OP.nop .issued).place = .issued)
    ∧ (names OP.gsScatter .running ∧ abortTarget (withOp OP.gsScatter .running) 1 0 = some (opDue OP.gsScatter .running) ∧ abortable (opDue OP.gsScatter .running) = false)
    ∧ (let e := { opDue OP.nop .ended with seq := 7 }
      abortTarget { slot1 with ops := [e] } 1 7 = some e ∧ e.place ≠ .issued ∧ e.place ≠ .running)
    ∧ (abortTarget slot1 1 7 = none ∧ (queue slot1 1).state ≠ 0) ∧ ((queue slot1 0).state = 0 ∧ ready { slot1 with stage := 2 } = false) := by decide

/-- Nothing is in progress on base, whatever its queues and cores. -/
theorem quiet_base (l : List Queue) (c : List Pos) : Quiet { base with queues := l, pos := c } :=
  ⟨rfl, rfl, rfl, rfl, fun j => by simp [job, base, State.reset, List.getD_eq_getElem?_getD]; rcases j with _ | _ | _ | _ | _ | _ | _ | _ | _ | _ | _ | _ | _ | _ | _ | _ | _ <;> simp, rfl, rfl, rfl, rfl, rfl,
    fun k e h => by simp [port, base, State.reset, List.getD_eq_getElem?_getD] at h; rcases k with _ | _ | _ | _ | _ | _ | _ <;> simp at h, rfl, (by decide : base.pmode ≠ 3)⟩

theorem witness_AbortStopAndRestartActOnTheirQueue_restart :
    let s := { base with pos := core0, queues := base.queues.set 1 { state := 2 } }
    (queue s 1).state ≠ 0 ∧ coreCount s ≠ 0 ∧ coreCount base = 0 ∧ s.up = true ∧ ready s = true ∧ Quiet s ∧ (queue s 1).renotice = false ∧ 1 < s.queues.length :=
  ⟨by decide, by decide, by decide, by decide, by decide, quiet_base _ _, by decide, by decide⟩

theorem witness_IssueChecksInOrderAndCompletionDelivers :
    let s := { slot1 with queues := slot1.queues.set 1 { state := 1, staged := [cmd OP.nop] } }
    let b := { slot1 with queues := slot1.queues.set 1 { state := 1, staged := [{ cmd OP.nop with aborted := true }] } }
    let o := { opDue OP.lkPool .running with waitRb := true, phase := .bank }
    let step := { base with queues := base.queues.set 1 { state := 1, anyIssued := true, lastStep := 1 } }
    (s.up = true ∧ issued s = none ∧ nextIssue s = some (1, cmd OP.nop) ∧ (cmd OP.nop).aborted = false ∧ (cmd OP.nop).violated = false)
    ∧ (issued b = none ∧ nextIssue b = some (1, { cmd OP.nop with aborted := true }))
    ∧ (running { slot1 with ops := [o] } = some o ∧ o.waitRb = true ∧ o.phase = .bank ∧ o.endNow = false)
    ∧ (newOp 1 (cmd 0xFF)).opcode ∉ opcodes
    ∧ ((newOp 1 (cmd 0x1800)).opcode ∈ opcodes ∧ (newOp 1 (cmd 0x1800)).badOperand (stepOk step (newOp 1 (cmd 0x1800))) ≠ none)
    ∧ (let n := newOp 1 (cmd OP.nop); n.opcode ∈ opcodes ∧ n.badOperand (stepOk step n) = none ∧ (queue step n.queue).anyIssued = true ∧ n.step < (queue step n.queue).lastStep) := by
  decide

/-- An ISSUED place that is taken, a running operation that waits for no bank; checks from the tables on: a scatter of a LOADED version it names, a ROWPUT of a table without a version and one whose payload is too short, a 256th scatter, a NOP that passes. -/
theorem witness_IssueChecksInOrderAndCompletionDelivers_ends :
    let due := fun (words : List Word) => newOp 1 { cmd OP.nop with words := words ++ List.replicate (16 - words.length) 0 }
    let passes := fun (s : State) (o : Op) => opcodes.contains o.opcode && o.badOperand (stepOk s o) == none && (!(queue s o.queue).anyIssued || decide ((queue s o.queue).lastStep ≤ o.step))
    let with_ := fun (ds : List Desc) => ds.foldl (fun s d => putDesc 1 d s) slot1
    let scatter := due [word (OP.gsScatter + fld 8 3 1), 0, word (5 + fld 12 13 1 + fld 25 16 7)]
    let put := due [word (OP.gzRowput + fld 8 3 1), 0, word (5 + fld 12 16 7 + fld 30 24 4)]
    let many := { slot1 with queues := slot1.queues.set 1 { state := 1, gsStep := 0, gsCount := 255 } }
    let loose := due [word (OP.gsScatter + fld 8 3 1), 0, word (5 + fld 12 13 1)]
    (issued (withOp OP.nop .issued) ≠ none ∧ nextIssue slot1 = none)
    ∧ (running (withOp OP.lkPool .running) = some (opDue OP.lkPool .running) ∧ (opDue OP.lkPool .running).waitRb = false)
    ∧ (passes (with_ [desc 1]) scatter = true ∧ (bindOp (with_ [desc 1]) scatter).1 = some (5, 7))
    ∧ (passes slot1 put = true ∧ (bindOp slot1 put).1 = none ∧ (bindOp slot1 put).2.1 = true)
    ∧ (passes (with_ [desc 2]) put = true ∧ bindOp (with_ [desc 2]) put = (none, false, [(5, 7)])
      ∧ putFits { with_ [desc 2] with ops := [{ put with bound := [(5, 7)] }] } { put with bound := [(5, 7)] } = false)
    ∧ (passes many loose = true ∧ bindOp many loose = (none, false, []) ∧ putFits many loose = true ∧ scatterFull many loose = true)
    ∧ (passes slot1 (newOp 1 (cmd OP.nop)) = true ∧ bindOp slot1 (newOp 1 (cmd OP.nop)) = (none, false, []) ∧ putFits slot1 (newOp 1 (cmd OP.nop)) = true
      ∧ (scatterFull slot1 (newOp 1 (cmd OP.nop)) || gazFull slot1 (newOp 1 (cmd OP.nop))) = false) := by decide

theorem due (code : Nat) (h : (opDue code .running).opcode = code) (r : running (withOp code .running) = some (opDue code .running))
    (f : jobHeld (withOp code .running) 1 = false) : WorkDue (withOp code .running) code (opDue code .running) := ⟨rfl, r, h, rfl, rfl, f⟩

theorem witness_RunningOperationsBeginTheirWork : (∃ s o, WorkDue s OP.nop o) ∧ (∃ s o, WorkDue s OP.lkPool o) ∧ (∃ s o, WorkDue s OP.gsScatter o) ∧ (∃ s o, WorkDue s OP.gzRowput o)
    ∧ (∃ s o, WorkDue s OP.memCopy o) ∧ (∃ s o, WorkDue s OP.rowExport o) ∧ (∃ s o, WorkDue s OP.rowImport o) ∧ ∃ s o, WorkDue s OP.meridian o :=
  ⟨⟨_, _, due _ rfl rfl rfl⟩, ⟨_, _, due _ rfl rfl rfl⟩, ⟨_, _, due _ rfl rfl rfl⟩, ⟨_, _, due _ rfl rfl rfl⟩, ⟨_, _, due _ rfl rfl rfl⟩, ⟨_, _, due _ rfl rfl rfl⟩, ⟨_, _, due _ rfl rfl rfl⟩, ⟨_, _, due _ rfl rfl rfl⟩⟩

/-! ### The gazetteer, packets, gradients, meridians -/

/-- A gazetteer operation of queue 1 in the ISSUED place, naming table 5, version 7, with bits of QWORD 2 and an effective step. -/
def gzOp (code bit28 eff : Nat) (payload : List Word) : Op :=
  { opDue code .issued with words := [word code, 0, word (5 + fld 12 16 7 + fld 28 1 bit28), word eff, 0, 0, 0, 0] ++ payload }

/-- slot1 with that operation and versions of job slot 1. -/
def gaz (o : Op) (ds : List Desc) : State := ds.foldl (fun s d => putDesc 1 d s) { slot1 with ops := [o] }

theorem witness_GazetteerCommandsChangeOrRefuseVersions :
    let fit := gzOp OP.gzDefine 0 0 (desc 0).words
    let bad := gzOp OP.gzDefine 0 0 []
    let sw := gzOp OP.gzSwitch 0 9 []
    let dr := gzOp OP.gzDrop 0 0 []
    let ro := gzOp OP.gzRowmode 0 0 []
    let r1 := gzOp OP.gzRowmode 1 0 []
    let others := [desc 1, (desc 1).setW 0 12 16 8, (desc 1).setW 0 12 16 9]
    let live := fun (o : Op) (ds : List Desc) => liveDescs (effectDone 1 0 (gaz o ds)) 1 5
    (gaz fit []).up = true
    ∧ (dueGaz (gaz fit []) OP.gzDefine = some fit ∧ descFail { words := fit.descWords } (nblocks (gaz fit [])) [] = none ∧ (live fit []).length < 3)
    ∧ (dueGaz (gaz bad []) OP.gzDefine = some bad ∧ descFail { words := bad.descWords } (nblocks (gaz bad [])) [] ≠ none)
    ∧ 3 ≤ (live fit others).length
    ∧ (dueGaz (gaz sw [desc 1]) OP.gzSwitch = some sw ∧ (live sw [desc 1]).find? (fun d => d.version == sw.version && d.state == 1) = some (desc 1)
      ∧ max sw.step (queue (gaz sw [desc 1]) 1).maxStep < sw.effStep ∧ (live sw [desc 1]).any (fun d => d.state == 3) = false)
    ∧ (dueGaz (gaz sw []) OP.gzSwitch = some sw ∧ (live sw []).find? (fun d => d.version == sw.version && d.state == 1) = none)
    ∧ (dueGaz (gaz dr [desc 1]) OP.gzDrop = some dr ∧ (live dr [desc 1]).find? (fun d => d.version == dr.version) = some (desc 1) ∧ (desc 1).rowmode = false ∧ (desc 1).state = 1)
    ∧ ((live dr [desc 2]).find? (fun d => d.version == dr.version) = some (desc 2) ∧ (desc 2).state = 2 ∧ boundLater (effectDone 1 0 (gaz dr [desc 2])) 1 5 7 dr.step = false)
    ∧ ((live dr [desc 3]).find? (fun d => d.version == dr.version) = some (desc 3) ∧ (desc 3).state = 3 ∧ (live dr []).find? (fun d => d.version == dr.version) = none)
    ∧ (dueGaz (gaz ro [desc 1]) OP.gzRowmode = some ro ∧ ro.flag28 = false ∧ findDesc (effectDone 1 0 (gaz ro [desc 1])) 1 5 7 = some (desc 1))
    ∧ (dueGaz (gaz r1 [desc 2]) OP.gzRowmode = some r1 ∧ r1.flag28 = true ∧ findDesc (effectDone 1 0 (gaz r1 [desc 2])) 1 5 7 = some (desc 2)
      ∧ writerInFlight (effectDone 1 0 (gaz r1 [desc 2])) 1 5 7 = false)
    ∧ (findDesc (effectDone 1 0 (gaz ro [])) 1 5 7 = none ∧ findDesc (effectDone 1 0 (gaz ro [desc 3])) 1 5 7 = some (desc 3)) := by decide

theorem witness_RefusedSwitchChangesNoVersion :
    let early := gzOp OP.gzSwitch 0 0 []
    let sw := gzOp OP.gzSwitch 0 9 []
    let live := fun (o : Op) (ds : List Desc) => liveDescs (effectDone 1 0 (gaz o ds)) 1 5
    let three := [desc 1, (desc 3).setW 0 12 16 8]
    (gaz sw []).up = true
    ∧ (dueGaz (gaz sw []) OP.gzSwitch = some sw ∧ (live sw []).find? (fun d => d.version == sw.version && d.state == 1) = none)
    ∧ (dueGaz (gaz early [desc 1]) OP.gzSwitch = some early ∧ (live early [desc 1]).find? (fun d => d.version == early.version && d.state == 1) = some (desc 1)
      ∧ early.effStep ≤ max early.step (queue (effectDone 1 0 (gaz early [desc 1])) 1).maxStep)
    ∧ (dueGaz (gaz sw three) OP.gzSwitch = some sw ∧ (live sw three).find? (fun d => d.version == sw.version && d.state == 1) = some (desc 1)
      ∧ max sw.step (queue (effectDone 1 0 (gaz sw three)) 1).maxStep < sw.effStep ∧ (live sw three).any (fun d => d.state == 3) = true
      ∧ findOp (effectDone 1 0 (gaz sw three)) 1 0 = some { sw with effectDue := false }) := by decide

/-- A packet of an unordered class, of any kind of it, has come for this block. -/
theorem free (cls kind : Nat) (h : forHere kind 0 (packet cls kind) linked = true) (b : badPacket (leaveBuffer 0 (packet cls kind) linked) (packet cls kind) = false)
    (o : ordered cls = false) : FreePacket kind 0 (packet cls kind) linked := ⟨⟨by decide, by decide, h, by decide, b⟩, o⟩

/-- A window access of 64 bytes. -/
def winPacket (kind n : Nat) : Packet := { packet CL.req kind with bodyBytes := 16 + n, body := leBytes 8 0 ++ leBytes 8 64 ++ List.replicate n 0 }

theorem witness_UnorderedPacketsActAtDestination_windows :
    FreePacket K.winRead 0 (winPacket K.winRead 0) linked ∧ FreePacket K.winWrite 0 (winPacket K.winWrite 64) linked :=
  ⟨⟨⟨by decide, by decide, by decide, by decide, by decide⟩, by decide⟩, ⟨⟨by decide, by decide, by decide, by decide, by decide⟩, by decide⟩⟩

theorem witness_UnorderedPacketsActAtDestination :
    (∀ k ∈ [K.rowReq, K.partReq, K.migData], FreePacket k 0 (packet CL.req k) linked)
    ∧ (∀ k ∈ [K.rowRsp, K.partRsp, K.error, K.winData, K.winAck, K.ack, K.migAck], FreePacket k 0 (packet CL.rsp k) linked)
    ∧ (∀ k ∈ [K.gradRec, K.mark1, K.mark2], FreePacket k 0 (packet CL.grad k) linked) := by
  simp only [List.forall_mem_cons, List.not_mem_nil, false_implies, implies_true, and_true]
  refine ⟨⟨?_, ?_, ?_⟩, ⟨?_, ?_, ?_, ?_, ?_, ?_, ?_⟩, ?_, ?_, ?_⟩ <;> exact free _ _ (by decide) (by decide) (by decide)

theorem in_order (kind : Nat) (p : Packet) (h : forHere kind 0 p linked = true) (b : badPacket (leaveBuffer 0 p linked) p = false) (o : ordered p.cls = true)
    (n : p.eseq = (ostream (leaveBuffer 0 p linked) p.src p.cls).rx % 2 ^ 32) : NextPacket kind 0 p linked := ⟨⟨by decide, by decide, h, by decide, b⟩, o, n⟩

/-- A RESTART packet of a phase. -/
def restartOf (phase : Nat) : Packet := { packet CL.sync K.restart with bodyBytes := 8, body := leBytes 8 phase }

theorem witness_OrderedPacketsActInTheirOrder :
    (∀ k ∈ [K.refresh, K.refreshMark, K.withdraw, K.purge, K.release, K.handoff, K.migReady], NextPacket k 0 (packet CL.sync k) linked)
    ∧ (∀ k ∈ [K.regRead, K.regWrite, K.regRsp, K.event], NextPacket k 0 (packet CL.ctrl k) linked)
    ∧ (∀ n ∈ [RS.query, RS.reply, RS.set], NextPacket K.restart 0 (restartOf n) linked ∧ bits (leAt (restartOf n).body 0 8) 0 2 = n)
    ∧ 2 ≤ (counted 0 (packet CL.ctrl K.regRead) linked).stage := by
  simp only [List.forall_mem_cons, List.not_mem_nil, false_implies, implies_true, and_true]
  refine ⟨⟨?_, ?_, ?_, ?_, ?_, ?_, ?_⟩, ⟨?_, ?_, ?_, ?_⟩, ⟨⟨?_, ?_⟩, ⟨?_, ?_⟩, ?_, ?_⟩, by decide⟩
  all_goals first
    | exact in_order _ _ (by decide) (by decide) (by decide) (by decide)
    | decide

theorem witness_OrderedStreamHoldsEarlyAndDropsOld :
    let d := fun (e rx : Nat) => (e + 2 ^ 32 - rx % 2 ^ 32) % 2 ^ 32
    let two := { linked with ostreams := mput (1 * 8 + CL.sync) { rx := 2 } linked.ostreams }
    ((1 : Nat) < 2 ^ 32 ∧ (1 : Nat) ≠ 0 ∧ (ostream two 1 CL.sync).rx = 2 ∧ 2 ^ 31 ≤ d 1 2)
    ∧ (d 3 2 ≠ 0 ∧ d 3 2 < 2 ^ 31 ∧ d (2 ^ 31 + 1) 2 < 2 ^ 31) ∧ (ostream two 1 CL.sync).rx % 2 ^ 32 = 2
    ∧ ((packet CL.sync K.refresh).eseq = 0 ∧ (ostream two 1 CL.sync).rx % 2 ^ 32 ≠ 0) := by decide

theorem witness_ForwardingAndTimersOfPackets :
    let p := { packet CL.req K.rowReq with dest := 1 }
    let rec_ : GRec := { jobId := 3, table := 5, version := 7, digest := 0, step := 0, epoch := 0, target := 0, count := 1, combine := false, blocks := [] }
    let held := { linked with holds := [{ port := 0, dest := 1, p := p, r := rec_ }] }
    let owed := { linked with ostreams := mput (1 * 8 + CL.sync) { owed := 1 } linked.ostreams }
    let resets := { linked with scopes := [{ partition := true, index := portPart 0 }] }
    (resets.up = true ∧ resets.pmode = 0 ∧ partReset resets (portPart 0) = true ∧ p.dest ≠ self resets ∧ forHere K.rowReq 0 (packet CL.req K.rowReq) resets = true)
    ∧ linked.up = true ∧ 0 < 6 ∧ p.dest ≠ self linked ∧ partReset linked (portPart 0) = false ∧ badPacket (leaveBuffer 0 p linked) p = false
    ∧ badPacket (leaveBuffer 0 { p with bodyBytes := 1 } linked) { p with bodyBytes := 1 } = true ∧ held.holds.find? (fun h => h.port == 0) ≠ none
    ∧ ordered CL.sync = true ∧ 0 < (ostream owed 1 CL.sync).owed := by decide

theorem witness_GradientRecordAddsToRowTotal :
    0 < base.jobs.length ∧ (List.replicate (desc 2).width (0 : Int)).length = (desc 2).width ∧ ∀ x ∈ (job base 0).totals, x.is 5 7 0 0 = true → x.vals.length = (desc 2).width := by decide

theorem witness_RecordOrderDoesNotChangeTotals :
    let d := (desc 2).setW 0 28 3 2
    0 < base.jobs.length ∧ (List.replicate d.width (2 ^ 125 : Int)).length = d.width ∧ (∀ t ∈ (job base 0).totals, t.is d.tableId d.version 0 0 = false)
    ∧ ∀ x ∈ List.replicate d.width (2 ^ 125 : Int), -(2 ^ 125 : Int) ≤ x ∧ x ≤ 2 ^ 125 := by decide

/-- Job slot 1 with a meridian of step 0. -/
def meridian (phase : Nat) (sent : Bool) (j : Job) : State :=
  { slot1 with jobs := slot1.jobs.set 1 { j with mer := some { step := 0, phase := phase, todo := [], cond := 0, marksSent := sent, redo := false, resume := false } } }

theorem witness_MeridianPhasesEndOnMarkersAndCounts :
    let mine := { src := 0, step := 0, count := 0 : Marker }
    let m := fun ph sent => ({ step := 0, phase := ph, todo := [], cond := 0, marksSent := sent, redo := false, resume := false } : Mer)
    let s1 := meridian 1 false { mark1 := [mine] }
    let s0 := meridian 1 false { mark1 := [{ mine with count := 1 }] }
    let s2 := meridian 2 false { mark2 := [mine] }
    let s3 := meridian 3 true {}
    (s1.up = true ∧ jobHeld s1 1 = false ∧ (job s1 1).mer = some (m 1 false) ∧ phaseDone s1 (job s1 1).mark1 (job s1 1).recv 0 = true)
    ∧ (jobHeld s0 1 = false ∧ (job s0 1).mer = some (m 1 false) ∧ phaseDone s0 (job s0 1).mark1 (job s0 1).recv 0 = false)
    ∧ (jobHeld s2 1 = false ∧ (job s2 1).mer = some (m 2 false) ∧ exporting s2 1 0 = false ∧ phaseDone s2 (job s2 1).mark2 (job s2 1).fwdRecv 0 = true)
    ∧ (jobHeld s3 1 = false ∧ (job s3 1).mer = some (m 3 true) ∧ merRows s3 1 (m 3 true) = false ∧ refreshedAll s3 1 0 = true ∧ s3.mig = none ∧ (admissionPass 1 0 s3).1 = .done)
    ∧ (let w := { m 3 true with pass := some { sheets := [], waits := true } }
      let s4 := { slot1 with jobs := slot1.jobs.set 1 { mer := some w } }
      jobHeld s4 1 = false ∧ (job s4 1).mer = some w ∧ w.phase = 3 ∧ w.marksSent = true ∧ merRows s4 1 w = false ∧ refreshedAll s4 1 0 = true ∧ s4.mig = none ∧ (admissionPass 1 0 s4).1 = .wait)
    ∧ (let r := { m 2 false with redo := true }
      let s5 := { slot1 with jobs := slot1.jobs.set 1 { mer := some r, mark1 := [mine], mark2 := [mine] } }
      (job s5 1).mer = some r ∧ r.redo = true ∧ phaseDone s5 (job s5 1).mark1 (job s5 1).recv 0 = true ∧ exporting s5 1 0 = false ∧ phaseDone s5 (job s5 1).mark2 (job s5 1).fwdRecv 0 = true) := by decide

/-- An update in flight whose unit of a stage is being written. -/
def flight (stage : Nat) : Flight :=
  { ledger := 0, stage := stage, entry := { row := 0, table := 5, state := 1, bucket := false, slot := 1, step := 0, version := 7, engine := 0, widthCode := 0, rule := 0, addrs := [], keys := [], payload := [], check := 0 }, job := 1, state := [], weight := [],
    copy := none, core := none, satur := false, nanw := false, desc := desc 2 }

theorem witness_UpdateUnitsAreWrittenInOrder :
    let s := fun n => { slot1 with flights := [(0, flight n)] }
    let ok := fun n => (s n).up = true ∧ mfind 0 (s n).flights = some (flight n) ∧ (flight n).stage = n
    ok 0 ∧ ok 1 ∧ ok 2 ∧ ok 3 := by decide

theorem witness_ReleaseWaitsForLastStepAndReaders :
    let s := gaz (opDue OP.nop .running) [desc 3]
    let t := { s with jobs := s.jobs.set 1 { closedAny := true } }
    (s.up = true ∧ slotOn s 1 = true ∧ findDesc s 1 5 7 = some (desc 3) ∧ mayRelease s 1 (desc 3) = false)
    ∧ (t.up = true ∧ slotOn t 1 = true ∧ findDesc t 1 5 7 = some (desc 3) ∧ mayRelease t 1 (desc 3) = true) := by decide

/-! ### Tags, fills, translation -/

/-- A fetch of far memory by nobody in particular. -/
def fetch (tag : Nat) (dest : Dest) (repeated : Bool) : Fetch :=
  { tag := tag, pool := .own, epoch := 0, src := .far, dest := dest, slot := 1, table := 5, version := 7, row := 0, step := 0, lines := [(64, 1)], stale := false, repeated := repeated }

theorem witness_TagsAreGrantedAndFarReadsReturn :
    let s := { base with tagWait := [(.own, .tile 0 0), (.service, .serve 0 0)] }
    let w := withOp OP.lkPool .running
    let first := fun (b : Bool) => s.tagWait.find? fun x => isService x.1 == b && !(s.spillWait.contains x.2 && (tripped s || spillShut s))
    s.up = true ∧ first false = some (.own, .tile 0 0) ∧ tagFree .own s = true ∧ first true = some (.service, .serve 0 0) ∧ tagFree .service s = true
    ∧ (w.up = true ∧ running w = some (opDue OP.lkPool .running) ∧ tripped w = false ∧ jobHeld w 1 = false ∧ (opDue OP.lkPool .running).endNow = false) := by decide

/-- The block with a number of tags of its own out. -/
def tagsOut (n : Nat) : State := { base with tagWait := [(.own, .tile 0 0)], fetches := List.replicate n (fetch 0 .nobody false) }

theorem own_tags_out (n : Nat) : ownOut (tagsOut n) = n := by simp [ownOut, tagsOut, fetch, isService]

/-- No tag is left where 229,376 are out. -/
theorem witness_TagsAreGrantedAndFarReadsReturn_full (n : Nat) (h : n = 229376) : (tagsOut n).up = true ∧ (tagsOut n).tagWait.find? (fun x => isService x.1 == false && !((tagsOut n).spillWait.contains x.2 && (tripped (tagsOut n) || spillShut (tagsOut n)))) = some (.own, .tile 0 0) ∧ tagFree .own (tagsOut n) = false :=
  ⟨rfl, rfl, by simp [tagFree, own_tags_out, ownTags, isService, h]⟩

/-- A vault whose set 2048 holds a copy of one line in its first data line. -/
def cached : State :=
  { base with pos := core0
              near := [{ slot := 1, table := 5, version := 7, row := 0, kind := 0, lock := false, key := 1, data := List.replicate 64 1, content := 0, expiry := 0, pieces := [{ vault := 0, set := 2048, first := 0, lines := 1 }] }] }

theorem witness_TagsAreGrantedAndFarReadsReturn_parity :
    cached.up = true ∧ enabled cached 0 = true ∧ (posOf cached 0).isolated = false ∧ 1023 < 1024 ∧ firstCacheSet cached ≤ 2048 ∧ 4 ≤ 4
    ∧ (lineHolder cached 0 2048 0).isSome = true ∧ erredBefore cached 0 2048 4 = false ∧ erredBefore (noteErr 0 2048 4 cached) 0 2048 4 = true
    ∧ (lineHolder (noteErr 0 2048 4 cached) 0 2048 0).isSome = true := by decide

/-- The same vault, with a banded region of one slot in its first line and no copy in its sets from 2049 on. -/
def banded : State :=
  fset R.NM_PIN_SETS F.NM_PIN_SETS_PIN_SETS 1 (fset (R.NM_PINk_A 0) F.NM_PINk_A_COUNT 1 (setPinState 0 1 { cached with pinPlan := [(0, 0, 1)] }))

theorem witness_TagsAreGrantedAndFarReadsReturn_bands :
    let e : PfEntry := { queue := 1, seq := 0, slot := 1, table := 5, version := 7, row := 0, m := 1, data := [], usable := true, used := false }
    let p := { base with prefetched := [e] }
    (banded.up = true ∧ enabled banded 0 = true ∧ (posOf banded 0).isolated = false)
    ∧ (1024 ≤ 1024 ∧ 1024 < 2048 ∧ 2048 ≤ 2048 ∧ 2048 < firstCacheSet banded)
    ∧ (pinSlotAt banded 0 0 = some (0, 0) ∧ pinSlotAt banded 0 1 = none ∧ erredBefore (replayed (pinDrop 0 0 (stalePin 0 0 banded))) 0 2048 0 = false
      ∧ erredBefore (replayed (pinDrop 0 0 (stalePin 0 0 (noteErr 0 2048 0 banded)))) 0 2048 0 = true ∧ pinSlotAt (noteErr 0 2048 0 banded) 0 0 = some (0, 0))
    ∧ (firstCacheSet cached ≤ 2048 ∧ 3 < 4 ∧ (vset cached 0 2048).dead = false ∧ (vset (retireSet 0 2048 cached) 0 2048).dead = true
      ∧ erredBefore (replayed (each (cached.near.filter fun e => hasPiece e 0 2048) replayEntry cached)) 0 2048 3 = false
      ∧ erredBefore (replayed (each ((noteErr 0 2048 3 cached).near.filter fun e => hasPiece e 0 2048) replayEntry (noteErr 0 2048 3 cached))) 0 2048 3 = true)
    ∧ lineHolder cached 0 2049 0 = none
    ∧ (p.up = true ∧ p.prefetched[0]? = some e ∧ e.usable = true ∧ { cached with victim := cached.near.map fun e => (0, e) }.up = true ∧ 0 < { cached with victim := cached.near.map fun e => (0, e) }.victim.length)
    ∧ (ReadsNothingWrong cached (.near 0 0 0 0) .good ∧ ReadsNothingWrong cached (.victim 0) .uncorrectable ∧ ReadsNothingWrong cached (.prefetch 0) .uncorrectable) := by
  refine ⟨by decide, by decide, by decide, by decide, by decide, by decide, .inl (by decide), .inr (by decide), .inr fun p h => ?_⟩
  cases h

theorem witness_TagsAreGrantedAndFarReadsReturn_spill :
    let s := { base with tagWait := [(.own, .tile 0 0), (.own, .tile 1 0)], spillWait := [.tile 0 0], spillAt := 1 }
    let t := fset R.NM_TEMP F.NM_TEMP_TRIP 1 { s with spillAt := 0 }
    let first := fun (s : State) => s.tagWait.find? fun x => isService x.1 == false && !(s.spillWait.contains x.2 && (tripped s || spillShut s))
    (s.up = true ∧ spillShut s = true ∧ first s = some (.own, .tile 1 0) ∧ tagFree .own s = true)
    ∧ (t.up = true ∧ tripped t = true ∧ spillShut t = false ∧ first t = some (.own, .tile 1 0) ∧ tagFree .own t = true) := by decide

theorem witness_TagsAreGrantedAndFarReadsReturn_reads :
    let f := fetch 9 (.tile 0 0) false
    let s := { base with fetches := [f] }
    let r := { base with fetches := [fetch 9 (.tile 0 0) true] }
    s.up = true ∧ findFetch s 9 = some f ∧ f.src = .far ∧ f.dest ≠ .nobody ∧ f.repeated = false ∧ findFetch { base with fetches := [{ f with src := .host }] } 9 = some { f with src := .host }
    ∧ findFetch r 9 = some (fetch 9 (.tile 0 0) true) ∧ (fetch 9 (.tile 0 0) true).repeated = true ∧ r.ueLines.contains (firstFar (fetch 9 (.tile 0 0) true)) = false
    ∧ findFetch base 9 = none := by decide

/-- A translation of one page of context 3, and a hole. -/
def page (typ : Nat) : TEnt := { ctx := 3, lo := 0, hi := 4096, typ := typ, rd := true, wr := true, acct := false, key := 1, target := 0, fatal := false }

theorem witness_TranslationHitsOrRaisesFault :
    let hit := { base with regs := (rset R.TLB_KEY_LOADED 2 base).regs, l1 := [(0, [page 1])] }
    let hole := { base with l2 := [page 0] }
    (hit.up = true ∧ 3 < 64 ∧ 0 < vaEnd ∧ 4095 < vaEnd ∧ hit.parked = [] ∧ (l1Of hit 0).find? (fun e => e.has 3 0) = some (page 1)
      ∧ (l1Of hit 0).find? (fun e => e.has 3 4095) = some (page 1) ∧ checkEnt hit true (page 1) = none ∧ (page 1).acct = false)
    ∧ (hole.up = true ∧ 0 ≠ CLI.winRecv ∧ (l1Of hole 0).find? (fun e => e.has 3 0) = none ∧ lstate hole ≠ LS.lost ∧ hole.fq = []
      ∧ hole.l2.find? (fun e => e.has 3 0) = some (page 0) ∧ (page 0).typ = 0 ∧ (page 0).fatal = false ∧ (page 0).ctx = 3)
    ∧ (let bare := rset R.TLB_FAR_LIMIT 4096 (rset R.TLB_KEY_LOADED 2 base)
      let missed := bump1 R.CNT_TLB_WALK (bump1 R.CNT_TLB_L2_MISS (bump1 R.CNT_TLB_L1_MISS bare))
      bare.up = true ∧ bare.parked = [] ∧ (l1Of bare 0).find? (fun e => e.has 3 0) = none ∧ bare.l2.find? (fun e => e.has 3 0) = none ∧ bare.fq = [] ∧ lstate bare ≠ LS.lost
      ∧ walk missed 3 0 = .hole 0 vaEnd ∧ (l1Of bare 0).find? (fun e => e.has 0 0) = none ∧ bare.l2.find? (fun e => e.has 0 0) = none
      ∧ ∃ e, walk missed 0 0 = .entry e ∧ e.typ ≠ 0 ∧ e.acct = false ∧ checkEnt bare true e = none) :=
  ⟨by decide, by decide, by decide, by decide, by decide, by decide, by decide, by decide, by decide, by decide, by decide, _, rfl, by decide, by decide, by decide⟩

/-- A pending fault of a context, generation 1. -/
def pend (ctx : Nat) : FqSlot := { gen := 1, kind := 1, ctx := ctx, write := false, source := 0, merged := 0, addr := 0, lo := 0, hi := 4096, order := 0, waiters := [] }

/-- The block with a fault pending in slot 0, its identity map covered by selector 1. -/
def faulty (ctx : Nat) : State := rset R.TLB_FAR_LIMIT 4096 <| rset R.TLB_KEY_LOADED 2 { base with fq := [(0, pend ctx)] }

theorem witness_FaultAnswersNameTheirGeneration :
    let off := fset R.TLB_CFG F.TLB_CFG_FAULT_TIMEOUT 0 (faulty 3)
    ((faulty 0).up = true ∧ ready (faulty 0) = true ∧ pendingFault (faulty 0) 0 2 = none ∧ pendingFault (faulty 0) 0 1 = some (pend 0))
    ∧ (rewalk (countRewalk (pend 0) (faulty 0)) (pend 0) = .inl { ctx := 0, lo := 0, hi := farLimit (faulty 0), typ := 1, rd := true, wr := true, acct := false, key := 1, target := 0, fatal := false })
    ∧ (pendingFault (faulty 3) 0 1 = some (pend 3) ∧ rewalk (countRewalk (pend 3) (faulty 3)) (pend 3) = .inr (1, 0, vaEnd))
    ∧ (let on := fset R.TLB_CFG F.TLB_CFG_FAULT_TIMEOUT 1 (faulty 3); on.up = true ∧ mfind 0 on.fq = some (pend 3) ∧ fget on R.TLB_CFG F.TLB_CFG_FAULT_TIMEOUT ≠ 0)
    ∧ (off.up = true ∧ mfind 0 off.fq = some (pend 3) ∧ fget off R.TLB_CFG F.TLB_CFG_FAULT_TIMEOUT = 0) := by decide

theorem witness_InvalidationsStartAndComplete :
    let v : Inval := { range := false, all := false, ctx := 3, lo := 0, hi := vaEnd, seq := 1 }
    let busy := { base with inval := some v }
    let wide := { base with straps := { base.straps with xd := 4, yd := 4, zd := 2 } }
    (busy.up = true ∧ ready busy = true ∧ busy.inval.isSome = true)
    ∧ (wide.up = true ∧ ready wide = true ∧ wide.inval = none ∧ 16 < nblocks wide)
    ∧ (base.up = true ∧ ready base = true ∧ base.inval = none ∧ nblocks base ≤ 16)
    ∧ (busy.inval = some v ∧ busy.awaits.any (fun a => a.what == 1) = false ∧ v.ctx < 64 ∧ ctxBusy busy v = false ∧ busy.fq = []) := by decide

/-- A block whose key registers hold a key of two halves for a selector. -/
def keyed (sel : Nat) : State := fset R.TLB_KEY_SEL F.TLB_KEY_SEL_SEL sel { base with keyData := [1, 0, 0, 0, 2, 0, 0, 0] }

theorem witness_RootsKeysHotCountsAndPins :
    let loaded := rset R.TLB_KEY_LOADED 8 (keyed 3)
    (base.up = true ∧ ready base = true ∧ 63 < 64 ∧ 15 < 16 ∧ 2 ≤ base.stage ∧ key1 (keyInput base) = key2 (keyInput base))
    ∧ ((keyed 3).up = true ∧ 2 ≤ (keyed 3).stage ∧ key1 (keyInput (keyed 3)) ≠ key2 (keyInput (keyed 3)) ∧ (keyed 3).keyPend = [] ∧ keyBusy (keyed 3) (keySel (keyed 3)) = false)
    ∧ (loaded.up = true ∧ keyLoaded loaded (keySel loaded) = true ∧ loaded.keyPend = [] ∧ keyBusy loaded (keySel loaded) = false)
    ∧ keyLoaded (keyed 3) (keySel (keyed 3)) = false ∧ ({ base with stage := 8, keyWait := true, startMode := 2 } : State).up = true := by decide

/-- A descriptor whose rows need no legend. -/
def plain : Desc := (desc 2).setW 0 40 4 4

/-- Pinned region 2 of table 5, version 7 of job slot 1, entries 0 to 3, which waits to be filled. -/
def pinned : State := setPinState 2 1 (rset (R.NM_PINk_A 2) (word (field F.NM_PINk_A_SLOT 1 + field F.NM_PINk_A_TABLE_ID 5 + field F.NM_PINk_A_VERSION 7 + field F.NM_PINk_A_COUNT 4))
  (putDesc 1 plain slot1))
where field (f : Fld) (v : Nat) : Nat := fld f.lo f.n v

theorem witness_RootsKeysHotCountsAndPins_pins :
    base.up = true ∧ pinned.up = true ∧ pinState pinned 2 = 1 ∧ tripped pinned = false
    ∧ findDesc pinned (pinA pinned 2 F.NM_PINk_A_SLOT) (pinA pinned 2 F.NM_PINk_A_TABLE_ID) (pinA pinned 2 F.NM_PINk_A_VERSION) = some plain
    ∧ plain.sheetOf (self pinned) = some 0 ∧ plain.usesLegend = false ∧ pinA pinned 2 F.NM_PINk_A_COUNT = 4
    ∧ (let quick := putDesc 1 (desc 2) pinned
      findDesc quick (pinA quick 2 F.NM_PINk_A_SLOT) (pinA quick 2 F.NM_PINk_A_TABLE_ID) (pinA quick 2 F.NM_PINk_A_VERSION) = some (desc 2) ∧ (desc 2).sheetOf (self quick) = some 0
      ∧ (quietLegend 1 (desc 2) quick).1 = none) := by decide

theorem witness_FarWriteReadsBack :
    Memory.wf base.far = true ∧ hbmFailed base (stackOf 0) = false ∧ hbmFailed base (stackOf 127) = false
    ∧ 0 < (List.replicate 64 (1 : Byte)).length ∧ 64 % 64 + (List.replicate 64 (1 : Byte)).length ≤ 64 ∧ 127 % 64 + [(1 : Byte)].length ≤ 64
    ∧ base.ueLines.contains (127 / 64) = false := by decide

/-! ### The host port, the compute port -/

/-- The host port in service, in a torus of two. -/
def hostPair : State := setLstate LS.up { pair with straps := { pair.straps with host := true } }

theorem serves_hostPair : HostServes hostPair ∧ HostServes (fset R.LNK_CFG F.LNK_CFG_ROOT_BLOCK 1 hostPair) := by unfold HostServes; decide

theorem witness_HostRequestsAreServedOrRefused :
    let q := fun (b off : Nat) (write : Bool) => ({ tc := 0, write := write, addr := b * 2 ^ 26 + off, len := 8, data := if write then leBytes 8 0 else [] } : HostReq)
    let leaf := fset R.LNK_CFG F.LNK_CFG_ROOT_BLOCK 1 hostPair
    (self hostPair = 0 ∧ 0 + 8 ≤ 2 ^ 26 ∧ 2 ^ 26 - 8 + 8 ≤ 2 ^ 26 ∧ 1 ≤ 8 ∧ hostBlocked hostPair (q 0 0 false) = false ∧ hostBlocked hostPair (q 0 (2 ^ 26 - 8) true) = false)
    ∧ (1 < nblocks hostPair ∧ rootBlock hostPair = self hostPair ∧ accessOk 0 8 = true ∧ hostBlocked hostPair (q 1 0 false) = false ∧ hostBlocked hostPair (q 1 0 true) = false)
    ∧ (nblocks hostPair ≤ 2 ∧ nblocks hostPair ≤ 63 ∧ self hostPair < nblocks hostPair ∧ hostBlocked hostPair (q 2 0 false) = false ∧ hostBlocked hostPair (q 63 0 false) = false)
    ∧ (1 < nblocks leaf ∧ rootBlock leaf ≠ self leaf ∧ hostBlocked leaf (q 1 0 false) = false)
    ∧ (let r := setLstate LS.retrain hostPair; r.up = true ∧ r.pmode = 0 ∧ lstate r = LS.retrain ∧ r.hostHeld = [] ∧ partReset r hostPart = false) := by decide

theorem witness_HostWindowServesOrFails :
    let q := fun (write : Bool) (off len : Nat) => ({ tc := 0, write := write, addr := 2 ^ 32 + off, len := len, data := if write then List.replicate len 0 else [] } : HostReq)
    let s := { hosted with fetches := [{ fetch 9 (.window 0 0) false with src := .window 1 }] }
    let bad := rset R.HST_WIN_FAULT (word (2 ^ 37)) hosted
    let open_ := fset R.HST_WIN_CFG F.HST_WIN_CFG_CTX 3 (fset R.HST_WIN_CFG F.HST_WIN_CFG_ENABLE 1 hosted)
    (hosted.up = true ∧ hosted.pmode = 0 ∧ lstate hosted = LS.up ∧ hosted.hostHeld = [] ∧ partReset hosted hostPart = false ∧ ready hosted = true)
    ∧ (0 + 1 ≤ 2 ^ 32 ∧ 2 ^ 32 - 1 + 1 ≤ 2 ^ 32 ∧ hostBlocked hosted (q false 0 1) = false ∧ hostBlocked hosted (q true (2 ^ 32 - 1) 1) = false ∧ 512 < 513 ∧ hostBlocked hosted (q true 0 513) = false)
    ∧ (fbit hosted R.HST_WIN_CFG F.HST_WIN_CFG_ENABLE = false ∧ fbit open_ R.HST_WIN_CFG F.HST_WIN_CFG_ENABLE = true ∧ open_.up = true ∧ lstate open_ = LS.up
      ∧ (winLines (fget open_ R.HST_WIN_CFG F.HST_WIN_CFG_BASE * 4096) false (spanLines 0 1) (lineOf 0) [] (bump1 R.CNT_HST_WIN_RD open_)).1.2.isSome = true)
    ∧ fbit hosted R.HST_WIN_FAULT F.HST_WIN_FAULT_VALID = false ∧ fbit bad R.HST_WIN_FAULT F.HST_WIN_FAULT_VALID = true ∧ lstate bad = LS.up
    ∧ findFetch s 9 = some { fetch 9 (.window 0 0) false with src := .window 1 } := by decide

/-- An issued read of host memory of one byte. -/
def hread (flush : Bool) : HRead := { tag := 4, path := 0, addr := 0, len := 1, dest := .nobody, opq := 1, opseq := 0, flush := flush, issued := true, got := none, seq := 0 }

theorem witness_HostReadsEndByCompletionOrTimeout :
    let s := { hosted with hreads := [hread false] }
    let f := { hosted with hreads := [hread true] }
    (let r := setLstate LS.retrain hosted; r.up = true ∧ lstate r = LS.retrain)
    ∧ s.up = true ∧ lstate s = LS.up ∧ partReset s hostPart = false ∧ findRead s 4 = some (hread false) ∧ ([7] : Bytes).length = (hread false).len ∧ ([] : Bytes).length ≠ (hread false).len
    ∧ (hread false).flush = false ∧ findRead f 4 = some (hread true) ∧ (hread true).flush = true ∧ CplStatus.unsupported ≠ CplStatus.success ∧ findRead hosted 4 = none := by decide

theorem witness_HostPortRetrainsIsLostAndResumes :
    let at_ := fun (n : Nat) => setLstate n hosted
    let w : HWrite := { path := 0, addr := 0, ctx := 0, va := 0, key := 1, data := [1], opq := 1, opseq := 0, sent := true, seq := 0 }
    let replay := { at_ LS.retrain with hwrites := [w] }
    let pinned := { at_ LS.lost with hstRst := true }
    (hosted.up = true ∧ lstate hosted = LS.up ∧ ready hosted = true ∧ HostLossCause.linkDisable ≠ HostLossCause.resetPin ∧ HostLossCause.linkDisable ≠ HostLossCause.untrained ∧ hosted.straps.host = true)
    ∧ ((at_ LS.retrain).up = true ∧ lstate (at_ LS.retrain) = LS.retrain ∧ (at_ LS.retrain).hwrites = [])
    ∧ (replay.up = true ∧ lstate replay = LS.retrain ∧ replay.hwrites = [w] ∧ w.sent = true ∧ replay.hreads = [] ∧ replay.hostCpls = [] ∧ replay.hstHeld = false ∧ replay.crossing = [] ∧ partReset replay hostPart = false)
    ∧ ((at_ LS.held).up = true ∧ lstate (at_ LS.held) = LS.held ∧ lstate (at_ LS.held) ≠ LS.up ∧ ready (at_ LS.held) = true)
    ∧ (pinned.up = true ∧ pinned.straps.host = true ∧ 2 ≤ pinned.stage ∧ wbit (word pinned.clocksBad) 16 = false ∧ lstate pinned = LS.lost)
    ∧ ((at_ LS.training).up = true ∧ hostMayTrain (at_ LS.training) = true ∧ lstate (at_ LS.training) = LS.training ∧ (at_ LS.training).straps.host = true
      ∧ rget (at_ LS.training) R.CNT_HST_LOST = 0 ∧ rget (bump1 R.CNT_HST_LOST (at_ LS.training)) R.CNT_HST_LOST ≠ 0 ∧ lstate (bump1 R.CNT_HST_LOST (at_ LS.training)) = LS.training)
    ∧ (lstate (at_ LS.down) = LS.down ∧ (at_ LS.down).straps.host = true) := by decide

theorem witness_ComputeModulesAndPartner :
    let m := fun (n : Nat) => setMod 7 n base
    (∀ k ∈ [0, 7], k < 8) ∧ base.up = true ∧ base.cptMods.length = 8 ∧ pstate base ≠ 2 ∧ modsUp base = 0 ∧ pstate (setPstate 1 base) = 1 ∧ modsUp (setPstate 1 base) = 0
    ∧ (modState (m CM.down) 7 = CM.down ∧ (m CM.down).cptPrst = false ∧ 2 ≤ (m CM.down).stage ∧ wbit (word (m CM.down).clocksBad) 15 = false)
    ∧ (modState (m CM.training) 7 = CM.training ∧ (m CM.training).cptPrst = false ∧ (m CM.training).up = true ∧ (m CM.training).cptMods.length = 8 ∧ (m CM.training).crossing = [] ∧ (m CM.training).cptHeld = [])
    ∧ (modState (m CM.again) 7 = CM.again ∧ (m CM.again).cptPrst = false ∧ modState (m CM.up) 7 = CM.up ∧ modsUp (m CM.up) ≠ 0)
    ∧ (modState (m CM.excluded) 7 = CM.excluded ∧ ready (m CM.excluded) = true ∧ (m CM.excluded).up = true) := by decide

/-! ### Peer links, migration -/

/-- 116 bytes of zeros, and an idle flit's header of no acknowledgement. -/
def zeros : Bytes := List.replicate 116 0

theorem witness_FlitsAreTakenInSequence :
    let s := linked
    let owing := updPort 0 (fun q => { q with owed := 1 }) linked
    let crc := crc32 (leBytes 8 (3 : Word).toNat ++ zeros)
    (s.up = true ∧ 0 < 6 ∧ portState s 0 = PS.up ∧ zeros.length = 116)
    ∧ (crc32 (leBytes 8 (3 : Word).toNat ++ zeros) = crc ∧ crc32 (leBytes 8 (3 : Word).toNat ++ zeros) ≠ crc + 1 ∧ wbits 3 0 2 ≠ 0 ∧ wbits (0 : Word) 0 2 = 0
      ∧ portState (flitCredit 0 3 (flitAck 0 3 s)) 0 = PS.up)
    ∧ (0 < (port owing 0).owed ∧ portState s 1 ≠ PS.up) := by decide

/-- A field of a header. -/
def fld' (lo v : Nat) : Word := word (fld lo 3 v)

theorem witness_OnlyNextFlitIsAccepted :
    let d := fun (hdr : Word) => (wbits hdr 7 12 + 4096 - (port linked 0).rxSeq % 4096) % 4096
    let seq := fun (n : Nat) => word (3 + fld 7 12 n)
    5 < 6 ∧ linked.ports.length = 6 ∧ (d (seq 2048) ≠ 0 ∧ 2048 ≤ d (seq 2048)) ∧ 2048 ≤ d (seq 4095) ∧ (d (seq 1) ≠ 0 ∧ d (seq 2047) < 2048) ∧ (d (seq 0) = 0 ∧ wbits (seq 0) 0 2 = 3)
    ∧ (let full := updPort 0 (fun q => { q with part := [(0, List.replicate (vcCap 0) [])] }) linked
      d 1 = 0 ∧ wbits (1 : Word) 0 2 ≠ 3 ∧ wbits (1 : Word) 2 3 < 5 ∧ wbits (1 : Word) 5 2 ≠ 3 ∧ occupancy linked 0 0 < vcCap 0 ∧ vcCap 0 ≤ occupancy full 0 0)
    ∧ (d (1 + fld' 2 5) = 0 ∧ 5 ≤ wbits (1 + fld' 2 5) 2 3 ∧ wbits (1 + fld' 5 3) 5 2 = 3)
    ∧ ((port linked 0).nakSent = none ∧ (let asked := updPort 0 (fun q => { q with nakSent := some (0, 0) }) linked
      (port asked 0).nakSent = some ((port asked 0).rxSeq, 0) ∧ asked.aon < 0 + 500 ∧ 0 + 500 ≤ { asked with aon := 500 }.aon)) := by decide

/-- Port 0 in training at a step. -/
def training (n : Nat) : State := updPort 0 (fun q => { q with step := n }) (setPortState 0 PS.training pair)

/-- What block 1 says of itself through its port 1. -/
def partner (port : Nat) : PartnerId :=
  { family := fget base R.MG_IDENT F.MG_IDENT_FAMILY, major := fget base R.MG_IDENT F.MG_IDENT_MAJOR, xd := 2, yd := pair.straps.yd, zd := pair.straps.zd, xc := 1, yc := 0, zc := 0, port := port, block := 1, txGood := 511, rxGood := 255 }

theorem witness_PortsTrainRetrainAndLeave :
    let tries := fun (n : Nat) => setTries 0 n (training 4)
    let at_ := fun (n : Nat) => setPortState 0 n pair
    let handing := updPort 0 (fun q => { q with handoff := true }) pair
    (clockBad (training 1) (11 + 0) = false ∧ (let bad := { training 1 with clocksBad := maskSet 0 (clockBit 11) }; clockBad bad (11 + 0) = true ∧ portState bad 0 = PS.training ∧ (port bad 0).step = 1))
    ∧ ((training 1).up = true ∧ 0 < 6 ∧ portState (training 1) 0 = PS.training ∧ (port (training 1) 0).step = 1 ∧ (port (training 3) 0).step = 3)
    ∧ ((port (tries 1) 0).step = 4 ∧ fget (tries 1) (R.LNK_Pk_STATUS 0) F.LNK_Pk_STATUS_TRIES < 2 ∧ 2 ≤ fget (tries 2) (R.LNK_Pk_STATUS 0) F.LNK_Pk_STATUS_TRIES
      ∧ portState (tries 2) 0 = PS.training)
    ∧ ((port (training 5) 0).step = 5 ∧ identityOk (training 5) 0 (partner 0) = false ∧ identityOk (training 5) 0 (partner 1) = true)
    ∧ ((port (training 7) 0).step = 7 ∧ portState (training 7) 0 = PS.training)
    ∧ ((port (training 4) 0).step ≤ 4 ∧ (port (training 6) 0).step = 6 ∧ portState (training 6) 0 = PS.training)
    ∧ (linked.up = true ∧ ready linked = true ∧ portState linked 0 = PS.up)
    ∧ (portState (at_ PS.retrain) 0 = PS.retrain ∧ widthOf 1 ≠ 0 ∧ widthOf 511 ≠ 0 ∧ widthOf 0 = 0)
    ∧ (fbit (fset R.LNK_CFG F.LNK_CFG_BG_RETRAIN 1 (at_ PS.dead)) R.LNK_CFG F.LNK_CFG_BG_RETRAIN = true ∧ portState (at_ PS.dead) 0 = PS.dead ∧ (at_ PS.dead).pmode ≠ 3 ∧ (at_ PS.dead).pmode ≠ 5
      ∧ ready (at_ PS.dead) = true ∧ portState (at_ PS.mismatch) 0 = PS.mismatch ∧ portState (at_ PS.disabled) 0 = PS.disabled)
    ∧ ((port handing 0).handoff = true ∧ neighbour handing.straps (self handing) 0 = some 1 ∧ 1 ≠ self handing ∧ handing.unreach.contains 1 = false)
    ∧ (port { handing with unreach := [1] } 0).handoff = true ∧ { handing with unreach := [1] }.unreach.contains 1 = true ∧ (port pair 0).handoff = false ∧ portWired base 0 = false := by decide

theorem witness_LinkStatesCompassAndLostBlocks :
    let due := { fset R.LNK_COMPASS_GEN F.LNK_COMPASS_GEN_PENDING 1 pair with unreach := [1] }
    let c := computeCompass due.straps due.linkMap (self due)
    (linked.up = true ∧ 0 < 6 ∧ portState linked 0 = PS.up ∧ 1 < nblocks linked ∧ 5 < 6 ∧ 1 ≠ self linked ∧ ((mfind (1 * 8 + 5) linked.linkMap).map (·.version)).getD 0 < 1
      ∧ 0 ≤ ((mfind (1 * 8 + 5) linked.linkMap).map (·.version)).getD 0)
    ∧ (due.up = true ∧ fget due R.LNK_COMPASS_GEN F.LNK_COMPASS_GEN_PENDING ≠ 0 ∧ (∀ k < 6, (port due k).owes = false)
      ∧ (∀ x ∈ c.2, x.2.esc = 7 → x.1 = self due ∨ due.unreach.contains x.1 = true)
      ∧ (c.2.map fun x => (x.1, x.2.esc)) = ((List.range (nblocks due)).map fun d => (d, (compassOf { due with compass := c.2 } d).esc)))
    ∧ (({ pair with unreach := [1] } : State).unreach.contains 1 = true ∧ ({ pair with unreach := [1] } : State).lost.contains 1 = false) := by decide

/-- Job slot 1 of a torus of two with a version that serves, and its migration of sheet 0 to block 1 after step 0. -/
def migrating : State := rset R.MG_MIG_B 1 (rset R.MG_MIG_A (word (fld 0 4 1 + fld 4 12 5 + fld 16 16 7 + fld 32 6 0 + fld 38 6 1))
  (putDesc 1 (desc 2) { slot1 with straps := pair.straps, jobs := slot1.jobs }))

/-- A migration under way. -/
def mig0 : Mig := { slot := 1, table := 5, version := 7, sheet := 0, owner := 0, dest := 1, step := 1, next := 0, dirNext := 0, again := [], againDir := [], notBefore := 0, out := 0, last := false, withdrawn := false, cut := false }

theorem witness_MigrationsStartFailAndCancel :
    let a := (stagedReg migrating R.MG_MIG_A).toNat
    let b := (stagedReg migrating R.MG_MIG_B).toNat
    let why := fun (s : State) => migRefusal s (bits a 0 4) (bits a 4 12) (bits a 16 16) (bits a 32 6) (bits a 38 6) (bits b 0 48)
    let ended := { migrating with mig := some mig0, jobs := migrating.jobs.set 1 { closedAny := true } }
    migrating.up = true ∧ ready migrating = true ∧ why base = some 1 ∧ why migrating = none
    ∧ findDesc migrating (bits a 0 4) (bits a 4 12) (bits a 16 16) = some (desc 2)
    ∧ merBegun { migrating with mig := some mig0 } mig0.slot (mig0.step - 1) = false ∧ merBegun ended mig0.slot (mig0.step - 1) = true := by decide

/-! ### Fences, bring-up, registers -/

theorem witness_FencesAndScopeResets :
    let one := { base with pos := base.pos.set 5 { mark := 1, logical := 0, fenced := false, isolated := false } }
    let f : Fence := { core := 1, cause := 5, spare := 2 }
    let busy := { one with fence := some f }
    (one.up = true ∧ enabled one 5 = true ∧ inScope one 5 = false ∧ one.fence = none ∧ one.fenceQ = [] ∧ 4 ≤ one.stage ∧ ready one = true)
    ∧ (let early := { base with stage := 3 }; early.up = true ∧ early.stage = 3 ∧ early.factory.getD 0 0 ≠ 0 ∧ (posOf early 0).fenced = false)
    ∧ pageValid (writePage false 0 0 one) = true
    ∧ base.fence = none ∧ (busy.up = true ∧ busy.fence = some f ∧ enabled busy 5 = true ∧ inScope busy 5 = false ∧ f.core ≠ 5 ∧ busy.fenceQ.any (fun x => x.1 == 5) = false)
    ∧ (15 < 16 ∧ 3 < 4 ∧ base.scopes.contains { partition := false, index := 15 } = false ∧ base.scopes.contains { partition := true, index := 3 } = false)
    ∧ ({ base with scopes := [{ partition := true, index := 3 }] } : State).scopes = { partition := true, index := 3 } :: [] := by decide

/-- What a stage reports where nothing is amiss. -/
def good : StageResult :=
  { elapsedUs := 0, supplyOk := 2 ^ 14 - 1, vinMv := 48000, hbm := List.replicate 8 { capacity := 72, bin := 80, faulty := [], faultyCmd := [], at80 := true, at64 := true }, stackIds := [], selfTestFailed := [],
    farMiscompare := 0, farMiscompares := 0, nearRetired := [], nearDead := [] }

theorem witness_StartGoesThroughItsStages :
    let at_ := fun (n mode : Nat) => { base with stage := n, startMode := mode }
    ((at_ 1 0).up = true ∧ (at_ 1 0).stage = 1 ∧ good.supplyOk % 2 ^ 14 = 2 ^ 14 - 1 ∧ (0 : Nat) % 2 ^ 14 ≠ 2 ^ 14 - 1)
    ∧ (bootSlot { base with stage := 1, fwSlots := [] } = none ∧ hbmOk (at_ 2 0) { good with hbm := [] } 7 = false ∧ (at_ 0 0).stage = 0 ∧ 9 ≤ (at_ 9 0).stage)
    ∧ ((at_ 5 2).stage = 5 ∧ warmStart (at_ 5 2) = true) ∧ ((at_ 8 1).stage = 8 ∧ (at_ 8 1).keyWait = false ∧ (at_ 8 1).startMode = 1 ∧ (at_ 8 1).ledgerGone = false)
    ∧ fbit (at_ 8 1) R.PWR_STATE F.PWR_STATE_WOKE = false ∧ ({ base with stage := 8, keyWait := true } : State).up = true
    ∧ ready base = true ∧ (List.range 16).any (slotOn base) = false ∧ ready (at_ 8 0) = false ∧ (List.range 16).any (slotOn slot1) = true := by decide

/-- An image whose signature and version are good boots; which images are so is free. -/
theorem witness_StartGoesThroughItsStages_boots (img : Bytes) (h : imageOk img = true) :
    let s := { base with stage := 1, fwSlots := [{ whole := true, image := img }], fwPref := 0 }
    s.up = true ∧ s.stage = 1 ∧ bootSlot s ≠ none ∧ fwValid s s.fwPref = true := by
  have v : fwValid { base with stage := 1, fwSlots := [{ whole := true, image := img }], fwPref := 0 } 0 = true := by simp [fwValid, fwSlot, h]
  exact ⟨rfl, rfl, by simp [bootSlot, v], v⟩

theorem witness_FullNextMakesTheNextStartFull :
    let two := writePage true 0 0 { base with stage := 2 }
    let eight := { two with stage := 8, startMode := 1 }
    (base.up = true ∧ ready base = true ∧ pageValid (writePage false 0 0 base) = true)
    ∧ (ready two = false ∧ two.up = true ∧ two.stage = 2 ∧ pageFull two = true ∧ ∀ k < 8, hbmOk two good k = true)
    ∧ (eight.up = true ∧ eight.stage = 8 ∧ eight.keyWait = false ∧ eight.startMode = 1) := by decide

/-- Registers that pass the check: bases of the reset values, and a staged CMD_Q0_CFG and CMD_GS_J0_CFG of job slot 0. -/
def staging (cfg gs : Nat) : State := { base with staged := [(R.CMD_Qj_CFG 0, word cfg), (R.CMD_GS_Jj_CFG 0, word gs)] }

theorem witness_ConfigurationAndFirmwareAreChecked :
    let bad := staging (fld 0 1 1 + fld 1 6 3 + fld 15 6 3) 0
    let waiting := setPending true base
    let asked := rset R.MG_FW_SRC (word (fld F.MG_FW_SRC_PAGES.lo F.MG_FW_SRC_PAGES.n 1)) base
    (base.up = true ∧ 2 ≤ base.stage ∧ base.pmode = 0 ∧ pendingApply base = false ∧ ready base = true ∧ ready { base with stage := 2 } = false)
    ∧ (firstFail base = none ∧ firstFail bad ≠ none ∧ firstFail waiting = none ∧ firstFail { bad with regs := waiting.regs } ≠ none)
    ∧ (pendingApply waiting = true ∧ running waiting = none ∧ fenceBusy waiting = false ∧ farLimit waiting ≤ farLimit (commitStaged waiting))
    ∧ (running (setPending true (withOp OP.nop .running)) ≠ none ∧ fenceBusy { waiting with scopes := [{ partition := false, index := 0 }] } = true)
    ∧ (base.fwBusy = false ∧ (List.range 16).any (slotOn base) = false ∧ (List.range 16).any (slotOn slot1) = true ∧ fwSourceOk base = false ∧ fwSourceOk asked = true)
    ∧ ({ base with fwBusy := true } : State).fwBusy = true := by decide

/-- An apply that disables slot 1 lowers a TLB_FAR_LIMIT above every store, and a fetch reaches beyond. -/
def lowering : State := { rset R.TLB_FAR_LIMIT (word (2 ^ 40 - 4096)) (setPending true slot1) with
  staged := [(R.CMD_Qj_CFG 1, 0)], fetches := [{ fetch 9 (.tile 0 0) false with lines := [(8 * farLim, 1)] }] }

theorem witness_ConfigurationAndFirmwareAreChecked_lowers :
    lowering.up = true ∧ 2 ≤ lowering.stage ∧ lowering.pmode = 0 ∧ pendingApply lowering = true ∧ running lowering = none ∧ fenceBusy lowering = false ∧ firstFail lowering = none
    ∧ farLimit (commitStaged lowering) < farLimit lowering ∧ farBusy lowering (farLimit (commitStaged lowering)) (farLimit lowering) = true
    ∧ farBusy { lowering with fetches := [] } (farLimit (commitStaged { lowering with fetches := [] })) (farLimit lowering) = false := by decide

theorem witness_CheckNamesFirstFailingField : checkAll (staging (fld 0 1 1 + fld 1 6 3 + fld 15 6 3) 0) ≠ [] ∧ checkAll base = [] := by decide

theorem witness_SnapshotsCountersAndDebugView :
    let free := fset R.MG_TEST_CFG F.MG_TEST_CFG_TAP_UNLOCK 1 base
    let on := fset R.DBG_CTRL F.DBG_CTRL_DEBUG_EN 1 { base with pos := core0 }
    let none_ := fset R.DBG_SEL F.DBG_SEL_KIND 3 on
    let busy := { on with capBusy := true }
    (base.up = true ∧ ready base = true ∧ base.snapBusy = false ∧ ({ base with snapBusy := true } : State).snapBusy = true ∧ 7 < 8)
    ∧ (fbit free R.MG_TEST_CFG F.MG_TEST_CFG_TAP_UNLOCK = true ∧ ready free = true ∧ fbit base R.MG_TEST_CFG F.MG_TEST_CFG_TAP_UNLOCK = false)
    ∧ (on.up = true ∧ ready on = true ∧ debugOn on = true ∧ on.capBusy = false ∧ captureBad on = false ∧ captureBad none_ = true ∧ debugOn none_ = true)
    ∧ (busy.capBusy = true ∧ badSel busy.capSel busy = false ∧ captured busy.capSel busy = (none, busy) ∧ busy.nmDue = none ∧ { busy with nmDue := some 0 }.nmDue = some 0)
    ∧ badSel (rget none_ R.DBG_SEL) none_ = true
    ∧ (enabled on (fget on R.DBG_NM_SEL F.DBG_NM_SEL_CORE) = true ∧ (posOf on (fget on R.DBG_NM_SEL F.DBG_NM_SEL_CORE)).isolated = false)
    ∧ ({ on with pos := [] }.up = true ∧ ready { on with pos := [] } = true ∧ debugOn { on with pos := [] } = true ∧ enabled { on with pos := [] } (fget { on with pos := [] } R.DBG_NM_SEL F.DBG_NM_SEL_CORE) = false)
    ∧ (ready { base with stage := 2 } = false ∧ debugOn base = false ∧ ready busy = true)
    ∧ isCounter R.CNT_FQ_TIMEOUT = true ∧ outstanding.all (fun x => x.1 != R.CNT_FQ_TIMEOUT) = true := by decide

/-- A lookup of two bags on core 0: one has been pooled and waits for the tile, the other is open. -/
def watched (kind bag : Nat) : State :=
  let seg := fun (b : Nat) => ({ bag := b, table := 5, count := 1, seg := 0, nseg := 1, entries := [] } : BagSeg)
  let o := { opDue OP.lkPool .running with
    words := [word OP.lkPool, 0, word (5 + fld 12 13 1), 0, 0, 0, 0, 0]
    bound := [(5, 7)]
    descs := [(5, desc 2)]
    lines := [(0, List.replicate 64 0)]
    tiles := [{ newTile 0 0 [seg 0, seg 1] with kept := [(0, { accs := [({} : ColAcc).accept 12 1] })] }] }
  { slot1 with ops := [o], capBusy := true, capSel := word (fld F.DBG_SEL_KIND.lo F.DBG_SEL_KIND.n kind + fld F.DBG_SEL_BAG.lo F.DBG_SEL_BAG.n bag) }

/-- A lane that pools a column of an open bag shows one. -/
theorem captured_of_picks (w : Word) (s : State) (k : wfield w F.DBG_SEL_KIND = 0) (h : lanePicks s (wfield w F.DBG_SEL_CORE) (wfield w F.DBG_SEL_INDEX) ≠ []) :
    ∃ c u, captured w s = (some c, u) := by
  cases e : lanePicks s (wfield w F.DBG_SEL_CORE) (wfield w F.DBG_SEL_INDEX) with
  | nil => exact absurd e h
  | cons c cs =>
    have l : (Config.freeValue s.fresh) % (c :: cs).length < (c :: cs).length := Nat.mod_lt _ (by simp)
    refine ⟨(c :: cs)[Config.freeValue s.fresh % (c :: cs).length], (freeNat s).2, ?_⟩
    simp only [captured, k, e, freeNat, List.getElem?_eq_getElem l, beq_self_eq_true, if_true]

theorem witness_SnapshotsCountersAndDebugView_capture :
    (let w := watched 1 0;
      w.up = true ∧ w.capBusy = true ∧ badSel w.capSel w = false ∧ wfield w.capSel F.DBG_SEL_KIND ≠ 0 ∧ ∃ c u, captured w.capSel w = (some c, u) ∧ (c.acc.stage, c.acc.steps) = (12, 1))
    ∧ (let w := watched 0 0;
      w.up = true ∧ w.capBusy = true ∧ badSel w.capSel w = false ∧ wfield w.capSel F.DBG_SEL_KIND = 0 ∧ ∃ c u, captured w.capSel w = (some c, u)) :=
  ⟨⟨by decide, by decide, by decide, by decide, _, _, rfl, by decide⟩, by decide, by decide, by decide, by decide, captured_of_picks _ _ (by decide) (by decide)⟩

theorem witness_RegisterAccessesReadAndWrite :
    let src := Source.host 0
    base.up = true ∧ 2 ≤ base.stage ∧ R.PWR_LATENCY % 8 = 0 ∧ accessOk 4 8 = false ∧ accessOk 0 2 = false ∧ findRow (2 ^ 26 - 8) = none
    ∧ ∃ r, findRow R.MG_VLOG_SEL = some r ∧ writable (dropLatch src base) R.MG_VLOG_SEL r = true ∧ regActs R.MG_VLOG_SEL base = false
      ∧ writeAction R.MG_VLOG_SEL r (2 ^ 64 - 1) (1 : Word).toNat (dropLatch src base) = none := by
  refine ⟨by decide, by decide, by decide, by decide, by decide, by decide, _, rfl, by decide, by decide, by decide⟩

theorem witness_WriteTakesEachBitByItsAccess :
    ∃ r, findRow R.TLB_STATUS = some r ∧ r.st = 0 ∧ r.mn = 0 ∧ r.rw &&& r.w1c = 0 ∧ r.rw < 2 ^ 64 ∧ r.w1c < 2 ^ 64 ∧ 0 < 64 ∧ 63 < 64 :=
  ⟨_, rfl, by decide⟩

theorem witness_CounterHalvesAreOfOneInstant :
    R.CNT_HST_LOST % 8 = 0 ∧ isCounter R.CNT_HST_LOST = true ∧ (findRow R.CNT_HST_LOST).isSome = true
    ∧ (R.PWR_LATENCY + 4) % 4 = 0 ∧ isCounter ((R.PWR_LATENCY + 4) / 8 * 8) = false ∧ mfind (sourceKey (.host 3)) base.halves = none ∧ isCounter (R.PWR_LATENCY) = false
    ∧ (let s := (accessRead (.host 3) R.CNT_HST_LOST 4 base).2; mgetD (sourceKey (.host 3)) 0 s.lastAcc ≠ R.PWR_LATENCY) := by decide

theorem witness_InstrumentsActUnderTheirCondition :
    let dead := setPortState 0 PS.dead pair
    dead.up = true ∧ instrumentActs dead .prbs (.peer 0) 0 = true ∧ onLanes .prbs = true ∧ instrumentActs linked .prbs (.peer 0) 0 = false ∧ Instrument.tempRead = .tempRead := by decide

theorem witness_ToGridRoundsToNearestEven : (0 : Nat) ≠ 2 ∧ (0 : Nat) ≠ 3 ∧ (toGrid (.num (2 ^ 79 - 1) 0) 0).1.natAbs < 2 ^ 79
    ∧ ({} : ColAcc).steps ≤ 15 ∧ ({} : ColAcc).stage.toInt.natAbs ≤ 0 ∧ ({} : ColAcc).sum = 0
    ∧ ([(1, -1), (3, -1), (-1, -1), (5, -1)] : List (Int × Int)).map (fun x => (toGrid (.num x.1 x.2) 0).1) = [0, 2, 0, 2] := by decide

theorem witness_PoolingDoesNotDependOnOrder : let e : List (List Val) × Nat := ([[.num 1 0]], 1)
    (0 : Nat) ≠ 2 ∧ (0 : Nat) ≠ 3 ∧ (∀ a ∈ [({} : ColAcc)], a.InStep) ∧ [e, ([[.nan]], 2)].Perm [([[.nan]], 2), e] :=
  ⟨by decide, by decide, by simp [ColAcc.InStep], List.Perm.swap _ _ _⟩

/-! ### Results that the manual works out -/

/-- 00, worked example: MG_IDENT reads 0x0000_EDA7_0200_0201. -/
theorem test_ident_reads : next (exec (.registerRead (.host 0) 0 8) base) (fun t => t.out == [.regValue 0xEDA702000201]) = true := by decide

/-- 15, example of R407: CART_LOG2 = 3, CTX = 3 and ENABLE = 1 fail for CART_LOG2, and CTX = 0 fails first. -/
theorem test_check_names_first_field :
    let fails := fun (ctx : Nat) => firstFail (staging (fld 0 1 1 + fld 1 6 ctx + fld 15 6 3) 0)
    (fails 3, fails 0) = (some (0x100000, 15), some (0x100000, 1)) := by decide

/-- 02, worked example: the item table of 2^33 rows of 128 elements over 64 blocks. -/
def item : Desc := ((((List.range 64).foldl (fun d i => d.setW (2 + i / 8) (8 * (i % 8)) 6 i) ({ words := List.replicate 32 0 } : Desc)).setW 1 0 40 (2 ^ 33 - 1)).setW 1 40 5 15
  |>.setW 1 45 7 64).setW 0 32 8 31 |>.setW 10 0 57 0x10000000000

theorem test_owner_of_an_item_row :
    (item.owner 0x4C1B2207, item.localIndex 0x4C1B2207, item.mstride, item.masterAddr 0x4C1B2207, item.rowOf 54 0x1302207) = (54, 0x1302207, 576, 0x102AC4C8FC0, 0x4C1B2207) := by decide

/-- 02: 64 signed INT8 elements with two wide columns take an 80-byte copy. -/
theorem test_copy_length : ((((desc 1).setW 0 32 8 15).setW 0 40 4 1).setW 0 46 5 2).copyLen = 80 := by decide

/-- 04: a bag of seven packed identifiers takes 48 bytes, and 72 with FP32 weights. -/
theorem test_bag_sizes : (bagSize 0 0 7, bagSize 0 2 7) = (48, 72) := by decide

/-- 04, Table 4.7: weight 0.75 and code 5, on the grid -4 with coarse exponent -3, is 8 units; -1.5 and -7 is 21; 0.75 and 3 is 4. -/
theorem test_weighted_terms :
    ([(0x3F40, 5), (0xBFC0, -7), (0x3F40, 3)] : List (Nat × Int)).map (fun x => (toGrid ((weightVal 1 x.1).mul (.num x.2 (-3))) (-4)).1) = [8, 21, 4] := by decide

/-- 05, Table 5.3: column 3 of seventeen entries sums to -48,128 units; BF16 0xC03C, and 0xBE31 inexact as a mean. -/
def column3 : ColAcc := (((([12, -40, 7, 100, -3, 55, -128, 21, 90, -66, 4, 33, -17, 120, -9, 61] : List Int).map fun c => Val.num c (-7)) ++ [Val.num (-77) (-4)]).foldl
  (fun a v => (a.add 0 (-14) v 1).1) {})

theorem test_column_pools : (column3.sum, (column3.deliver 0 1 false (-14) (-14) 17).conv.code, (column3.deliver 0 1 false (-14) (-14) 17).conv.flags.inx) = (-48128, 0xC03C, false) := by decide

/-- 17, Table 17.7: after ten terms staging holds 0x1800; once the column has ended, acc and the carry count hold -48,128. -/
theorem test_column_captures :
    let ten := ([12, -40, 7, 100, -3, 55, -128, 21, 90, -66] : List Int).foldl (fun a c => (ColAcc.add 0 (-14) a (.num c (-7)) 1).1) {}
    (ten.stage, ten.steps, column3.promote.acc.toNat % 2 ^ 64, column3.promote.carry) = (0x1800, 10, 0xFFFFFFFFFFFF4400, 0xFFFFFFFF) := by decide

theorem test_column_mean : ((column3.deliver 1 1 false (-14) (-14) 17).conv.code, (column3.deliver 1 1 false (-14) (-14) 17).conv.flags.inx) = (0xBE31, true) := by decide

/-- 05, Table 5.5: on pass 0 the first term overflows; on pass 1 the pair is 0x5440_0000 and 0xBF33_0000. -/
def tooFine (g : Int) : ColAcc := [0x5440, 0x3E9A, 0xBF80].foldl (fun a c => (a.add 0 g (bf16.dec c) 1).1) {}

theorem test_replay_of_a_fine_grid : let c := ((tooFine (-32)).deliver 0 4 false (-32) (-40) 3).conv
    ((tooFine (-40)).tooBig, (tooFine (-32)).tooBig, c.code, c.low, c.flags.inx) = (true, false, 0x54400000, 0xBF330000, false) := by decide

/-- 05, example of R144: 1 + 2^-30 is the pair 0x3F80_0000, 0x3080_0000. -/
theorem test_pair : let c := convertQ 4 false (-40) (2 ^ 40 + 2 ^ 10) 1 (-40); (c.code, c.low) = (0x3F800000, 0x30800000) := by decide

/-- 06, Table 6.5: the codes and residuals of the three senders. -/
theorem test_gradient_codes : ([3125228, -6291456, 2101152] : List Int).map (fun v => let b := encodeBlock (-30) [v]; (b.1.s, b.1.codes, b.2)) =
    [(-15, [95], [12268]), (-14, [-96], [0]), (-15, [64], [4000])] := by decide

/-- 06, Table 6.6: the records of blocks 9 and 41 merge into -97 at s = -15. -/
theorem test_adder_merges : (mergeBlocks (-30) (encodeBlock (-30) [3125228]).1 (encodeBlock (-30) [-6291456]).1).map (fun b => (b.s, b.codes)) = some (-15, [-97]) := by decide

/-- 09, worked example: the words of entry E. -/
theorem test_range_entry : let e := rawEnt (leBytes 8 0x0000011000000031 ++ leBytes 8 0x0000A0000017FFFF ++ leBytes 8 0x0000002000000000 ++ leBytes 8 0)
    (e.typ, e.rd, e.wr, e.start, e.stop, e.key, targetOf e) = (1, true, true, 0x11000000000, 0x11180000000, 5, 0x2000000000) := by decide

/-- 09, Table 9.8: the words of the fault in slot 26. -/
theorem test_fault_words :
    let s := { base with fq := [(26, { gen := 7, kind := 1, ctx := 3, write := false, source := 0, merged := 36, addr := 0x11180000000, lo := 0x11180000000, hi := 0x11800000000, order := 0, waiters := [] })] }
    (fqWord s 26 0, fqWord s 26 1, fqWord s 26 3) = (0x000900031000701A, 0x0000011180000000, 0x0000011800000000) := by decide

/-- 01: block (2, 1, 3) of a torus of 4 × 4 × 4 is block 54. -/
theorem test_block_number : self { base with straps := { base.straps with xc := 2, yc := 1, zc := 3, xd := 4, yd := 4, zd := 4 } } = 54 := by decide

/-- 16, Table 16.12: a scatter that asks WGRAD of bags without weights ends with VIOLATION, QWORD 2, bit 47. -/
theorem test_refused_scatter : next (exec .opIssue { slot1 with queues := slot1.queues.modify 1 fun q => { q with staged := [{ cmd 3 with seq := 40119, words := [word (OP.gsScatter + fld 8 3 1), 0, 0x800000001005, 0, 0, 0, 0, 0] }] } })
    (fun t => t.vlog.map (fun x => (x.2.w0, x.2.w1)) == [(0x9CB71011, 0xBC2)]) = true := by decide

end Sys2Proof.Tests
end

section
/-! The refusals of GZ_SWITCH (02 R46; 16 R421): what the command answers for each reason, that no version changes, and the operation whose status is already fixed, which a refusal cannot end. -/

namespace Sys2Proof.Machine

variable {s : State}

/-! ### An operation found after a change of it -/

/-- A change that keeps an operation's queue and SEQ is seen by the search for it. -/
theorem findOp_updOp {q seq : Nat} {f : Op → Op} (keeps : ∀ o : Op, (f o).is q seq = o.is q seq) (s : State) :
    findOp (updOp q seq f s) q seq = (findOp s q seq).map f := by
  have same : (fun o : Op => o.is q seq) ∘ (fun o => if o.is q seq then f o else o) = fun o => o.is q seq := by
    funext o
    by_cases h : o.is q seq = true <;> simp [h, keeps]
  simp only [findOp, updOp_ops, updWhere, List.find?_map, same]
  refine Option.map_congr fun o found => ?_
  rw [if_pos (List.find?_some found)]

/-- What opEnd does to an operation: one whose status is fixed stays as it is. -/
theorem findOp_opEnd (q seq code : Nat) (s : State) : findOp (opEnd q seq code s) q seq =
    (findOp s q seq).map fun o => if o.fixed then o else { o with cond := maskSet o.cond code, endNow := true } :=
  findOp_updOp (fun o => by cases h : o.fixed <;> simp [Op.is]) s

theorem findOp_opEnd_of_not_fixed {q seq : Nat} {x : Op} (code : Nat) (found : findOp s q seq = some x) (open_ : x.fixed = false) :
    findOp (opEnd q seq code s) q seq = some { x with cond := maskSet x.cond code, endNow := true } := by
  simp [findOp_opEnd, found, open_]

theorem findOp_opEnd_of_fixed {q seq : Nat} {x : Op} (code : Nat) (found : findOp s q seq = some x) (fixed : x.fixed = true) :
    findOp (opEnd q seq code s) q seq = some x := by
  simp [findOp_opEnd, found, fixed]

/-! ### Ends and log entries leave the gazetteer -/

@[simp] theorem effectDone_gaz (q seq : Nat) (s : State) : (effectDone q seq s).gaz = s.gaz := rfl

@[simp] theorem opEnd_gaz (q seq code : Nat) (s : State) : (opEnd q seq code s).gaz = s.gaz := rfl

@[simp] theorem vlog_gaz (kind source q seq w1 w2 : Nat) (s : State) : (vlog kind source q seq w1 w2 s).gaz = s.gaz := by
  simp only [vlog]
  split <;> simp [setBit]

@[simp] theorem opViolation_gaz (q seq kind source w1 w2 : Nat) (s : State) : (opViolation q seq kind source w1 w2 s).gaz = s.gaz := by
  simp [opViolation, opVlog]

/-! ### What GZ_SWITCH does for each reason to refuse it -/

theorem switchTable_not_ready {o : Op} (none_ : (liveDescs s o.queue o.tableId).find? (fun d => d.version == o.version && d.state == 1) = none) :
    switchTable o s = tableState o.queue o.seq o.tableId o.version s := by
  simp only [switchTable, none_]

theorem switchTable_early {o : Op} {d : Desc} (ready : (liveDescs s o.queue o.tableId).find? (fun d => d.version == o.version && d.state == 1) = some d)
    (early : o.effStep ≤ max o.step (queue s o.queue).maxStep) :
    switchTable o s = tableState o.queue o.seq o.tableId o.version s := by
  simp only [switchTable, ready, if_pos early]

theorem switchTable_draining {o : Op} {d : Desc} (ready : (liveDescs s o.queue o.tableId).find? (fun d => d.version == o.version && d.state == 1) = some d)
    (later : max o.step (queue s o.queue).maxStep < o.effStep) (drains : (liveDescs s o.queue o.tableId).any (fun d => d.state == 3) = true) :
    switchTable o s = opEnd o.queue o.seq SC.capacity s := by
  simp only [switchTable, ready, if_neg (Nat.not_le.mpr later), if_pos drains]

/-- A GZ_SWITCH that is due has its effect, once, and what follows of it. -/
theorem exec_gzSwitch_due {o : Op} (up : s.up = true) (due : dueGaz s OP.gzSwitch = some o) :
    exec .gzSwitch s = .next (after s (switchTable o (effectDone o.queue o.seq s))) := by
  change act s (gazEffect OP.gzSwitch switchTable) = _
  rw [act_up s _ up]
  simp only [gazEffect, due, after]

/-- The refusals of GZ_SWITCH where the status of its operation is not yet fixed: the clauses of the obligation, with the premise that its clause on CAPACITY lacks. -/
theorem gzSwitch_refused_of_not_fixed {o : Op} (up : s.up = true) (due : dueGaz s OP.gzSwitch = some o)
    (open_ : ∀ x, findOp (effectDone o.queue o.seq s) o.queue o.seq = some x → x.fixed = false) :
    let t := effectDone o.queue o.seq s
    let ds := liveDescs t o.queue o.tableId
    let entry := tableState o.queue o.seq o.tableId o.version t
    let full := opEnd o.queue o.seq SC.capacity t
    (ds.find? (fun d => d.version == o.version && d.state == 1) = none → exec .gzSwitch s = .next (after s entry))
    ∧ (∀ d, ds.find? (fun d => d.version == o.version && d.state == 1) = some d → o.effStep ≤ max o.step (queue t o.queue).maxStep →
      exec .gzSwitch s = .next (after s entry))
    ∧ (∀ d, ds.find? (fun d => d.version == o.version && d.state == 1) = some d → max o.step (queue t o.queue).maxStep < o.effStep →
      ds.any (fun d => d.state == 3) = true → exec .gzSwitch s = .next (after s full))
    ∧ entry.gaz = s.gaz ∧ full.gaz = s.gaz
    ∧ (∀ x, findOp t o.queue o.seq = some x → findOp full o.queue o.seq = some { x with cond := maskSet x.cond SC.capacity, endNow := true })
    ∧ entry = opViolation o.queue o.seq VK.tableState 3 (fld 0 12 o.tableId + fld 12 16 o.version) 0 t := by
  intro t ds entry full
  have runs : exec .gzSwitch s = .next (after s (switchTable o t)) := exec_gzSwitch_due up due
  refine ⟨fun none_ => ?_, fun d ready early => ?_, fun d ready later drains => ?_, ?_, ?_, fun x found => ?_, rfl⟩
  · rw [runs, switchTable_not_ready none_]
  · rw [runs, switchTable_early ready early]
  · rw [runs, switchTable_draining ready later drains]
  · simp [entry, tableState, t]
  · simp [full, t]
  · exact findOp_opEnd_of_not_fixed _ found (open_ x found)

/-! ### A GZ_SWITCH whose status is already fixed -/

/-- GZ_SWITCH of table 5 to its version 7 from step 9 on, of queue 1, in the ISSUED place at a phase. -/
def switchAt (phase : OpPhase) : Op :=
  { newOp 1 { seq := 1, words := [word OP.gzSwitch, 0, word (5 + fld 12 16 7), word 9, 0, 0, 0, 0], aborted := false, violated := false, vlogs := 0, firstVlog := 0 } with
    phase := phase }

/-- Version v of table 5, in a state. -/
def version5 (v state : Nat) : Desc := (((({ words := List.replicate 32 0 } : Desc).setW 0 0 12 5).setW 0 12 16 v).setState state)

/-- A block out of reset in which that switch is issued, to a READY version of a table whose version 8 is DRAINING. -/
def switchWhileDraining (phase : OpPhase) : State :=
  putDesc 1 (version5 7 1) (putDesc 1 (version5 8 3) { State.reset with blkRst := false, ops := [switchAt phase] })

/-- In that state the switch is due and to be refused with CAPACITY, whatever its phase; and the state is sound. -/
theorem switchWhileDraining_refused (phase : OpPhase) :
    let s := switchWhileDraining phase
    let o := switchAt phase
    let t := effectDone 1 1 s
    (Sound s ∧ s.up = true ∧ dueGaz s OP.gzSwitch = some o ∧ findOp t 1 1 = some { o with effectDue := false })
    ∧ (liveDescs t 1 5).find? (fun d => d.version == o.version && d.state == 1) = some (version5 7 1)
    ∧ max o.step (queue t 1).maxStep < o.effStep ∧ (liveDescs t 1 5).any (fun d => d.state == 3) = true := by
  have sound : Sound (switchWhileDraining phase) :=
    ⟨fun _ waits => (nomatch waits), ⟨fun _ => ⟨rfl, rfl⟩, fun off => (nomatch off)⟩, show Placed State.reset by unfold Placed; decide, fun reset => (nomatch reset)⟩
  refine ⟨⟨sound, rfl, rfl, rfl⟩, ?_⟩
  cases phase <;> decide

/-- At its issue the switch meets the premise of gzSwitch_refused_of_not_fixed. -/
theorem switchWhileDraining_fresh_not_fixed :
    ∀ x, findOp (effectDone 1 1 (switchWhileDraining .fresh)) 1 1 = some x → x.fixed = false := by
  rintro _ ⟨⟩
  rfl

/-- Refutes O23: its clause on CAPACITY says that opEnd ends the operation in every state, but it leaves one whose status is fixed as it is (03 R66, log 65). In a sound state whose GZ_SWITCH is issued in phase publish, a DRAINING version refuses the switch, and the operation gets neither CAPACITY nor endNow (Sound admits that state; no run is shown to reach it). The other clauses hold (gzSwitch_refused_of_not_fixed). -/
theorem not_refusedSwitchChangesNoVersion : ¬ Obligations.RefusedSwitchChangesNoVersion := by
  unfold Obligations.RefusedSwitchChangesNoVersion
  intro h
  obtain ⟨⟨-, up, due, found⟩, -⟩ := switchWhileDraining_refused .publish
  obtain ⟨-, -, -, -, -, ends, -⟩ := h _ _ up due
  have kept := findOp_opEnd_of_fixed SC.capacity found rfl
  have ended := ends _ found
  exact absurd (kept.symm.trans ended) (by decide)

end Sys2Proof.Machine
end

section
/-! The arithmetic of a pool (05 R127, R129, R130): what to_grid rounds to and the flags it sets, and the exact sum that the accumulators of a column hold. -/

namespace Sys2Proof.Machine

/-! ### Rounding to the nearest integer, ties to even -/

/-- Every choice of rneDiv is the floor of n / d or the integer above it, on the side where the remainder is the smaller. -/
theorem rneDiv_nearest_even (n : Int) {d : Nat} (pos : 0 < d) :
    2 * (n - rneDiv n d * d).natAbs ≤ d ∧ (2 * (n - rneDiv n d * d).natAbs = d → rneDiv n d % 2 = 0) := by
  have parts : n / (d : Int) * d + n % d = n := Int.ediv_mul_add_emod n d
  have nonneg : 0 ≤ n % (d : Int) := Int.emod_nonneg n (by omega)
  have less : n % (d : Int) < d := Int.emod_lt_of_pos n (by omega)
  have above : (n / (d : Int) + 1) * d = n / (d : Int) * d + d := by ring
  simp only [rneDiv]
  split_ifs with below beyond even
  · omega
  · omega
  · have := of_decide_eq_true even
    omega
  · have : n / (d : Int) % 2 ≠ 0 := fun zero => even (by simp [zero])
    omega

/-- x × 2^-G as a fraction, and what to_grid answers of it. -/
theorem toGrid_num (m e G : Int) :
    let n : Int := m * 2 ^ (e - G).toNat
    let d : Nat := 2 ^ (G - e).toNat
    toGrid (.num m e) G = (rneDiv n d, { inx := rneDiv n d * d != n, unf := rneDiv n d == 0 && m != 0 }) := by
  have fraction : shl2 m (e - G) = (m * 2 ^ (e - G).toNat, 2 ^ (G - e).toNat) := by
    by_cases coarse : 0 ≤ e - G
    · have : (G - e).toNat = 0 := by omega
      simp only [shl2, if_pos coarse, this]
      simp
    · have : (e - G).toNat = 0 := by omega
      simp only [shl2, if_neg coarse, this, neg_sub]
      simp
  simp only [toGrid, rneScaled, fraction, one_mul]
  rfl

/-- to_grid and its flags (05 R127). -/
theorem toGrid_nearest_even (m e G : Int) :
    let q := (toGrid (.num m e) G).1
    let f := (toGrid (.num m e) G).2
    let n : Int := m * 2 ^ (e - G).toNat
    let d : Nat := 2 ^ (G - e).toNat
    2 * (n - q * d).natAbs ≤ d ∧ (2 * (n - q * d).natAbs = d → q % 2 = 0)
    ∧ (f.inx = true ↔ q * d ≠ n) ∧ (f.unf = true ↔ m ≠ 0 ∧ q = 0) ∧ f.ovf = false ∧ f.inv = false := by
  obtain ⟨near, even⟩ := rneDiv_nearest_even (m * 2 ^ (e - G).toNat) (Nat.two_pow_pos (G - e).toNat)
  rw [toGrid_num]
  refine ⟨near, even, ?_, ?_, rfl, rfl⟩
  · exact bne_iff_ne
  · simp [and_comm]

/-! ### The exact sum of a column -/

namespace ColAcc

variable (a : ColAcc)

/-- S with what staging holds, as the 128-bit integer it is: exact modulo 2^128, so that a run of additions needs no bound on its way. -/
def total : BitVec 128 := a.grid + a.stage.signExtend 128

theorem sum_eq_total_toInt : a.sum = a.total.toInt := rfl

/-- acc and the carry count together take the addition whole (05 R130). -/
@[simp] theorem addGrid_grid (x : BitVec 128) : (a.addGrid x).grid = a.grid + x :=
  BitVec.extractLsb'_append_extractLsb' (w := 32) (len := 96)

theorem addGrid_total (x : BitVec 128) : (a.addGrid x).total = a.total + x := by
  change (a.addGrid x).grid + a.stage.signExtend 128 = a.grid + a.stage.signExtend 128 + x
  rw [addGrid_grid, BitVec.add_assoc, BitVec.add_comm x, BitVec.add_assoc]

@[simp] theorem promote_stage : a.promote.stage = 0 := rfl

@[simp] theorem promote_steps : a.promote.steps = 0 := rfl

/-- Promotion moves what staging holds into S. -/
theorem promote_total : a.promote.total = a.total := by
  change (a.addGrid (a.stage.signExtend 128)).grid + (0 : BitVec 20).signExtend 128 = a.total
  simp [total]

theorem promote_inStep : a.promote.InStep := by
  simp [InStep]

theorem promote_sum : a.promote.sum = a.sum := congrArg BitVec.toInt a.promote_total

/-! ### One term into staging -/

variable {a} {t : Int}

theorem stages_iff : stages t = true ↔ -(2 ^ 15) ≤ t ∧ t ≤ 2 ^ 15 - 1 := by
  simp [stages]

/-- The sixteenth term of 16 bits still fits in the 20 bits of staging (05 R129). -/
theorem stage_add_toInt (inStep : a.InStep) (fits : stages t = true) : (a.stage + BitVec.ofInt 20 t).toInt = a.stage.toInt + t := by
  obtain ⟨steps, bound⟩ := inStep
  obtain ⟨low, high⟩ := stages_iff.mp fits
  rw [BitVec.toInt_add, BitVec.toInt_ofInt, Int.add_bmod_bmod]
  exact Int.bmod_eq_of_le (by omega) (by omega)

theorem stageTerm_inStep (inStep : a.InStep) (fits : stages t = true) : (stageTerm t a).InStep := by
  have added := stage_add_toInt inStep fits
  obtain ⟨steps, bound⟩ := inStep
  obtain ⟨low, high⟩ := stages_iff.mp fits
  simp only [stageTerm]
  split_ifs with sixteenth
  · exact promote_inStep _
  · have : a.steps + 1 ≠ 16 := by simpa using sixteenth
    exact ⟨by change a.steps + 1 ≤ 15; omega, by
      change (a.stage + BitVec.ofInt 20 t).toInt.natAbs ≤ (a.steps + 1) * 2 ^ 15
      omega⟩

theorem stageTerm_total (inStep : a.InStep) (fits : stages t = true) : (stageTerm t a).total = a.total + BitVec.ofInt 128 t := by
  have staged : total { a with stage := a.stage + BitVec.ofInt 20 t, steps := a.steps + 1 } = a.total + BitVec.ofInt 128 t := by
    change a.grid + BitVec.ofInt 128 (a.stage + BitVec.ofInt 20 t).toInt = a.grid + BitVec.ofInt 128 a.stage.toInt + BitVec.ofInt 128 t
    rw [stage_add_toInt inStep fits, BitVec.ofInt_add, BitVec.add_assoc]
  simp only [stageTerm]
  split_ifs
  · rw [promote_total, staged]
  · exact staged

/-! ### A term added k times -/

/-- Staging or bypass, k terms keep staging within its bound and add k × t to the sum (05 R129, R130). -/
theorem accept_inStep_and_total (inStep : a.InStep) (t : Int) (k : Nat) :
    (a.accept t k).InStep ∧ (a.accept t k).total = a.total + BitVec.ofInt 128 (k * t) := by
  by_cases fits : stages t = true
  · rw [accept, if_pos fits]
    induction k with
    | zero => exact ⟨inStep, by simp [Nat.repeat]⟩
    | succ k ih =>
      obtain ⟨kept, sum⟩ := ih
      refine ⟨stageTerm_inStep kept fits, ?_⟩
      rw [Nat.repeat, stageTerm_total kept fits, sum, BitVec.add_assoc, ← BitVec.ofInt_add]
      congr 2
      push_cast
      ring
  · rw [accept, if_neg fits]
    exact ⟨inStep, addGrid_total a _⟩

/-- A finite term within the term limit goes to accept as to_grid gives it (05 R127, R131). -/
theorem add_num {mode k : Nat} (counted : k ≠ 0) (notMax : mode ≠ 2) (notMin : mode ≠ 3) {m e G : Int}
    (small : (toGrid (.num m e) G).1.natAbs < 2 ^ 79) :
    (a.add mode G (.num m e) k).1 =
      { ({ a with n := a.n + k } : ColAcc).accept (toGrid (.num m e) G).1 k with clamp := a.clamp + k * (toGrid (.num m e) G).1 } := by
  have within : ¬ termLimit ≤ ((toGrid (.num m e) G).1.natAbs : Int) := by
    simp only [termLimit]
    omega
  have sums : (mode == 2 || mode == 3) = false := by simp [notMax, notMin]
  simp only [add, beq_iff_eq, counted, sums, Bool.false_eq_true, if_false, if_neg within]

theorem add_num_total {mode : Nat} (notMax : mode ≠ 2) (notMin : mode ≠ 3) {m e G : Int} (inStep : a.InStep)
    (small : (toGrid (.num m e) G).1.natAbs < 2 ^ 79) (k : Nat) :
    (a.add mode G (.num m e) k).1.total = a.total + BitVec.ofInt 128 (k * (toGrid (.num m e) G).1) := by
  by_cases nothing : k = 0
  · simp [nothing, add]
  · have kept : ({ a with n := a.n + k } : ColAcc).InStep := inStep
    rw [add_num nothing notMax notMin small]
    exact (accept_inStep_and_total kept _ k).2

/-- Adding a term keeps the bound of staging, whatever the term and the mode: of the branches of add only the last reaches staging. -/
theorem add_inStep (inStep : a.InStep) (mode : Nat) (G : Int) (v : Val) (k : Nat) : (a.add mode G v k).1.InStep := by
  have kept : ({ a with n := a.n + k } : ColAcc).InStep := inStep
  simp only [add]
  split_ifs with nothing extreme
  · exact inStep
  · exact inStep
  · split
    case h_1 | h_2 => exact inStep
    case h_3 => split <;> exact inStep
    case h_4 =>
      split
      · exact inStep
      · exact (accept_inStep_and_total kept _ k).1

/-- The sum is exact as long as it fits in 128 bits; its intermediate values need not. -/
theorem add_num_sum {mode : Nat} (notMax : mode ≠ 2) (notMin : mode ≠ 3) {m e G : Int} (inStep : a.InStep)
    (small : (toGrid (.num m e) G).1.natAbs < 2 ^ 79) {k : Nat}
    (low : -(2 ^ 127 : Int) ≤ a.sum + k * (toGrid (.num m e) G).1) (high : a.sum + k * (toGrid (.num m e) G).1 < 2 ^ 127) :
    (a.add mode G (.num m e) k).1.sum = a.sum + k * (toGrid (.num m e) G).1 := by
  rw [sum_eq_total_toInt, add_num_total notMax notMin inStep small, BitVec.toInt_add, BitVec.toInt_ofInt, Int.add_bmod_bmod, ← sum_eq_total_toInt]
  exact Int.bmod_eq_of_le (by omega) (by omega)

end ColAcc

/-- Settles O59: to_grid rounds to nearest even with its flags, and a term within the limit is added exactly, because the total of a column modulo 2^128 takes k × t on every path and staging never wraps. -/
theorem toGridRoundsToNearestEven : Obligations.ToGridRoundsToNearestEven := by
  unfold Obligations.ToGridRoundsToNearestEven
  refine ⟨toGrid_nearest_even, ?_, ?_, ?_, fun a => ⟨a.promote_sum, a.promote_stage, a.promote_steps⟩⟩
  · intro mode k m e G a notMax notMin inStep small low high
    exact ColAcc.add_num_sum notMax notMin inStep small low high
  · simp [ColAcc.InStep]
  · intro mode k G v a inStep
    exact ColAcc.add_inStep inStep mode G v k

end Sys2Proof.Machine
end

section
/-! EVENT for the root (10 R291; 17 R437, Table 17.2): the packet that a rise of the management interrupt puts on the CTRL stream, its repeat, and the root's own source PEER_EVENT. -/

namespace Sys2Proof.Machine

variable {s t : State}

/-! ### One bit of a register -/

theorem wbit_eq_testBit (w : Word) (i : Nat) : wbit w i = w.toNat.testBit i := by
  rw [Bool.eq_iff_iff]
  simp [wbit, wbits, bits, Nat.testBit_eq_decide_div_mod_eq, Nat.shiftRight_eq_div_pow]

/-- Without its bit i, a word is a multiple of 2^(i+1) and a remainder below 2^i, so the one that wset adds carries into no other bit. -/
theorem wbit_wset_one (w : Word) {i : Nat} (fits : i < 64) : wbit (wset w i 1 1) i = true := by
  have bit : bits w.toNat i 1 = w.toNat / 2 ^ i % 2 := by simp [bits, Nat.shiftRight_eq_div_pow]
  have parts : 2 ^ i * (w.toNat / 2 ^ i) + w.toNat % 2 ^ i = w.toNat := Nat.div_add_mod _ _
  have halves : 2 * (w.toNat / 2 ^ i / 2) + w.toNat / 2 ^ i % 2 = w.toNat / 2 ^ i := Nat.div_add_mod _ _
  have sum : w.toNat - (bits w.toNat i 1) <<< i + (1 % 2 ^ 1) <<< i = w.toNat % 2 ^ i + 2 ^ i * (2 * (w.toNat / 2 ^ i / 2) + 1) := by
    have : 2 ^ i * (w.toNat / 2 ^ i) = 2 ^ i * (2 * (w.toNat / 2 ^ i / 2)) + 2 ^ i * (w.toNat / 2 ^ i % 2) := by rw [← Nat.mul_add, halves]
    simp only [bit, Nat.shiftLeft_eq, Nat.mul_comm _ (2 ^ i), Nat.mul_add]
    omega
  rw [wbit_eq_testBit, wset, sum, BitVec.toNat_ofNat, Nat.testBit_mod_two_pow, Nat.testBit_eq_decide_div_mod_eq,
    Nat.add_mul_div_left _ _ (Nat.two_pow_pos i), Nat.div_eq_of_lt (Nat.mod_lt _ (Nat.two_pow_pos i))]
  simp [fits]

/-! ### The sources of the management interrupt -/

/-- A sum of the powers of the sources that are pending, from bit n up, holds each source as its own bit. -/
theorem testBit_sourceSum (l : List Bool) : ∀ {n a : Nat}, a < 2 ^ n → ∀ j,
    ((l.zipIdx n).foldl (fun a x => if x.1 then a + 2 ^ x.2 else a) a).testBit j = if j < n then a.testBit j else l.getD (j - n) false := by
  induction l with
  | nil =>
    intro n a small j
    split
    · rfl
    · exact Nat.testBit_lt_two_pow (Nat.lt_of_lt_of_le small (Nat.pow_le_pow_right (by omega) (by omega)))
  | cons b l ih =>
    intro n a small j
    have grown : (if b then a + 2 ^ n else a) < 2 ^ (n + 1) := by split <;> omega
    rw [List.zipIdx_cons, List.foldl_cons, ih grown]
    rcases Nat.lt_trichotomy j n with below | here | above
    · have same : (if b then a + 2 ^ n else a).testBit j = a.testBit j := by
        split
        · rw [Nat.add_comm, Nat.testBit_two_pow_add_gt below]
        · rfl
      rw [if_pos (by omega), if_pos below, same]
    · subst here
      have own : (if b then a + 2 ^ j else a).testBit j = b := by
        cases b <;> simp [Nat.add_comm a, Nat.testBit_two_pow_add_eq, Nat.testBit_lt_two_pow small]
      simp [own]
    · rw [if_neg (by omega), if_neg (by omega), show j - n = j - (n + 1) + 1 by omega, List.getD_cons_succ]

/-- Bit i of MG_INT_STATUS is source i of Table 17.2. -/
theorem intStatus_testBit (s : State) (i : Nat) : (intStatus s).testBit i = (intSources s).getD i false := by
  simpa [intStatus] using testBit_sourceSum (intSources s) (n := 0) (a := 0) (by decide) i

/-- The interrupt is raised exactly where a pending source is enabled (17 R437). -/
theorem interrupt_iff (s : State) : interrupt s = true ↔ ∃ i, (intSources s).getD i false = true ∧ wbit (rget s R.MG_INT_MASK) i = true := by
  simp only [interrupt, bne_iff_ne, ← intStatus_testBit, wbit_eq_testBit, ← Bool.and_eq_true, ← Nat.testBit_and]
  exact ⟨Nat.exists_testBit_of_ne_zero, fun ⟨i, pending⟩ zero => by simp [zero] at pending⟩

/-! ### The block that reports -/

theorem reports_iff (s : State) : reports s = true ↔ fbit s R.LNK_CFG F.LNK_CFG_FWD_EVENTS = true ∧ rootBlock s ≠ self s := by
  simp [reports]

@[simp] theorem ostream_setOStream_self (peer cls : Nat) (o : OStream) (s : State) : ostream (setOStream peer cls o s) peer cls = o := by
  simp [ostream]

/-- The EVENT packet that follows what a block has sent its root on the CTRL stream. -/
def eventPacket (s : State) : Packet :=
  { mkPacket s (rootBlock s) CL.ctrl K.event 0 [] with eseq := (ostream s (rootBlock s) CL.ctrl).tx % 2 ^ 32 }

/-- The CTRL stream toward the root with that EVENT on it: sent where no packet waits and it fits, otherwise the last that waits (10 R285, item 3). -/
def eventStream (s : State) : OStream :=
  let o := ostream s (rootBlock s) CL.ctrl
  if o.waiting.isEmpty && streamRoom o (eventPacket s) then { o with tx := o.tx + 1, unacked := o.unacked ++ [(o.tx, eventPacket s)] }
  else { o with tx := o.tx + 1, waiting := o.waiting ++ [(o.tx, eventPacket s)] }

theorem eventStream_tx (s : State) : (eventStream s).tx = (ostream s (rootBlock s) CL.ctrl).tx + 1 := by
  simp only [eventStream]
  split <;> rfl

theorem queueEvent_ostreams (s : State) : (queueEvent s).ostreams = mput (rootBlock s * 8 + CL.ctrl) (eventStream s) s.ostreams :=
  (apply_ite State.ostreams _ _ _).trans (apply_ite (mput (rootBlock s * 8 + CL.ctrl) · s.ostreams) _ _ _).symm

theorem ostream_queueEvent (s : State) : ostream (queueEvent s) (rootBlock s) CL.ctrl = eventStream s := by
  simp [ostream, queueEvent_ostreams]

/-- Where the interrupt of a reporting block rises, EVENT is queued. -/
theorem raiseEvent_rise (up : s.up = true) (upAfter : t.up = true) (rep : reports t = true) (low : interrupt s = false) (high : interrupt t = true) :
    raiseEvent s t = queueEvent t := by
  simp [raiseEvent, up, upAfter, rep, low, high]

theorem eventAgain_raised (rep : reports s = true) (high : interrupt s = true) :
    eventAgain s = sendPacket (rootBlock s) CL.ctrl K.event 0 [] s := by
  simp [eventAgain, rep, high]

theorem eventAgain_idle (h : reports s = false ∨ interrupt s = false) : eventAgain s = s := by
  rcases h with h | h <;> simp [eventAgain, h]

/-- The repeat has its effect in the common frame. -/
theorem exec_eventRepeat_up (up : s.up = true) : exec .eventRepeat s = .next (outcome s (eventAgain s)) :=
  act_up s eventAgain up

/-! ### The root -/

theorem recvEvent_root (p : Packet) (root : rootBlock s = self s) :
    recvEvent p s = rset R.LNK_EVENT_BLOCKS (wset (rget s R.LNK_EVENT_BLOCKS) p.src 1 1) s := by
  simp [recvEvent, root]

theorem recvEvent_sets_sender (p : Packet) (root : rootBlock s = self s) (fits : p.src < 64) :
    wbit (rget (recvEvent p s) R.LNK_EVENT_BLOCKS) p.src = true := by
  rw [recvEvent_root p root, rget_rset_self, wbit_wset_one _ fits]

theorem recvEvent_rget_other (p : Packet) (root : rootBlock s = self s) {o : Nat} (other : o ≠ R.LNK_EVENT_BLOCKS) :
    rget (recvEvent p s) o = rget s o := by
  rw [recvEvent_root p root, rget_rset_other _ _ other]

/-- A block's bit in LNK_EVENT_BLOCKS makes source 6, PEER_EVENT, pending. -/
theorem peerEvent_pending {i : Nat} (marked : wbit (rget s R.LNK_EVENT_BLOCKS) i = true) : (intSources s).getD 6 false = true := by
  have : rget s R.LNK_EVENT_BLOCKS ≠ 0 := fun zero => by simp [zero, wbit_eq_testBit] at marked
  simpa [intSources] using this

theorem recvEvent_interrupt (p : Packet) (root : rootBlock s = self s) (fits : p.src < 64) (enabled : wbit (rget s R.MG_INT_MASK) 6 = true) :
    interrupt (recvEvent p s) = true := by
  have mask : rget (recvEvent p s) R.MG_INT_MASK = rget s R.MG_INT_MASK := recvEvent_rget_other p root (by decide)
  exact (interrupt_iff _).mpr ⟨6, peerEvent_pending (recvEvent_sets_sender p root fits), mask ▸ enabled⟩

/-- Settles O8: a rise of the interrupt puts EVENT on the CTRL stream and changes nothing else of the effect, the repeat sends it again while the interrupt stays raised, and the sender's bit at the root is source 6 of its own interrupt. -/
theorem eventsReachTheRoot : Obligations.EventsReachTheRoot := by
  unfold Obligations.EventsReachTheRoot
  refine ⟨fun s t up upAfter => ⟨fun rep low high => ?_, fun none_ => ?_⟩, reports_iff, ?_, ?_, ?_⟩
  · have rise := raiseEvent_rise up upAfter rep low high
    refine ⟨rise, congrArg (holdInputs s) rise, ?_, ?_, ⟨eventPacket t, rfl, rfl, rfl, rfl, rfl, rfl, ?_⟩, by simp, by simp, by simp⟩
    · rw [rise, ostream_queueEvent, queueEvent_ostreams]
    · rw [rise, ostream_queueEvent, eventStream_tx]
    · rw [rise, ostream_queueEvent]
      rfl
  · exact congrArg (holdInputs s) (raiseEvent_none s t none_)
  · intro s up rep high
    rw [exec_eventRepeat_up up, eventAgain_raised rep high]
  · intro s up idle
    rw [exec_eventRepeat_up up, eventAgain_idle idle]
  · intro s p root fits
    exact ⟨recvEvent_sets_sender p root fits, recvEvent_interrupt p root fits, fun o other => recvEvent_rget_other p root other⟩

end Sys2Proof.Machine
end

section
/-! FULL_NEXT (15 R390, R391): a page that is written reads back valid with the values it was written with, whoever wrote it; a request found at stage 2 makes the start FULL; stage 8 writes the page anew without one. -/

namespace Sys2Proof.Machine

variable {s t : State}

/-! ### Little-endian words of a byte string -/

@[simp] theorem length_leBytes (n v : Nat) : (leBytes n v).length = n := by
  induction n generalizing v with
  | zero => rfl
  | succ n ih => simp [leBytes, ih]

theorem leNat_leBytes (n v : Nat) : leNat (leBytes n v) = v % 256 ^ n := by
  induction n generalizing v with
  | zero => simp [leBytes, leNat, Nat.mod_one]
  | succ n ih =>
    have digits : v % 256 ^ (n + 1) = v % 256 + 256 * (v / 256 % 256 ^ n) := by rw [Nat.pow_succ', Nat.mod_mul]
    rw [leBytes, leNat, ih, BitVec.toNat_ofNat, digits]

/-- What stands between two other strings is cut out by its place and length. -/
theorem slice_append (a b c : Bytes) : slice (a ++ (b ++ c)) a.length b.length = b := by
  simp [slice]

/-! ### CRC-32 -/

theorem crcBit_lt {c : Nat} (small : c < 2 ^ 32) : crcBit c < 2 ^ 32 := by
  have half : c / 2 < 2 ^ 32 := by omega
  unfold crcBit
  split
  · exact Nat.xor_lt_two_pow half (by decide)
  · exact half

theorem crcByte_lt {c : Nat} (small : c < 2 ^ 32) (b : Byte) : crcByte c b < 2 ^ 32 := by
  have byte : b.toNat < 2 ^ 32 := Nat.lt_trans b.isLt (by decide)
  unfold crcByte
  iterate 8 apply crcBit_lt
  exact Nat.xor_lt_two_pow small byte

theorem foldl_crcByte_lt (b : Bytes) : ∀ {c : Nat}, c < 2 ^ 32 → b.foldl crcByte c < 2 ^ 32 := by
  induction b with
  | nil => exact fun small => small
  | cons x b ih => exact fun small => ih (crcByte_lt small x)

theorem crc32_lt (b : Bytes) : crc32 b < 2 ^ 32 :=
  Nat.xor_lt_two_pow (foldl_crcByte_lt b (by decide)) (by decide)

/-! ### Lines 0 and 1 read back (15 R390) -/

/-- Line 0 up to its CHECK. -/
def pageHead (w0 kcv place : Nat) : Bytes := leBytes 8 w0 ++ leBytes 8 kcv ++ leBytes 8 place ++ zeros 32

theorem length_pageHead (w0 kcv place : Nat) : (pageHead w0 kcv place).length = 56 := by
  simp [pageHead, zeros]

theorem pageLines_eq (w0 kcv place : Nat) (ids : Bytes) :
    pageLines w0 kcv place ids = pageHead w0 kcv place ++ (leBytes 8 (crc32 (pageHead w0 kcv place ++ ids)) ++ ids) :=
  List.append_assoc _ _ _

theorem pageLines_words (w0 kcv place : Nat) (ids : Bytes) : pageLines w0 kcv place ids =
    leBytes 8 w0 ++ (leBytes 8 kcv ++ (leBytes 8 place ++ (zeros 32 ++ (leBytes 8 (crc32 (pageHead w0 kcv place ++ ids)) ++ ids)))) := by
  rw [pageLines_eq]
  simp only [pageHead, List.append_assoc]

/-- Word i of a page whose first i words take 8 × i bytes. -/
theorem pageWord_of_page {a c : Bytes} {i v : Nat} (page : s.page = a ++ (leBytes 8 v ++ c)) (place : a.length = 8 * i) :
    pageWord s i = v % 256 ^ 8 := by
  have cut := slice_append a (leBytes 8 v) c
  rw [length_leBytes, place, ← page] at cut
  rw [pageWord, leAt, cut, leNat_leBytes]

section Lines

variable {w0 kcv place : Nat} {ids : Bytes} (lines : s.page = pageLines w0 kcv place ids)
include lines

theorem pageWord_zero_of_lines : pageWord s 0 = w0 % 256 ^ 8 :=
  pageWord_of_page (a := []) (lines.trans (pageLines_words ..)) rfl

theorem pageWord_one_of_lines : pageWord s 1 = kcv % 256 ^ 8 :=
  pageWord_of_page (lines.trans (pageLines_words ..)) (length_leBytes 8 w0)

theorem pageWord_two_of_lines : pageWord s 2 = place % 256 ^ 8 :=
  pageWord_of_page (lines.trans ((pageLines_words ..).trans (List.append_assoc (leBytes 8 w0) (leBytes 8 kcv) _).symm)) (by simp)

/-- The word of CHECK holds the CRC whole, since a CRC has 32 bits. -/
theorem pageWord_seven_of_lines : pageWord s 7 = crc32 (pageHead w0 kcv place ++ ids) := by
  rw [pageWord_of_page (lines.trans (pageLines_eq ..)) (length_pageHead ..)]
  exact Nat.mod_eq_of_lt (Nat.lt_trans (crc32_lt _) (by decide))

/-- What CHECK is computed over when the page is read is what it was computed over when it was written. -/
theorem slice_page_of_lines (one : ids.length = 64) : slice s.page 0 56 ++ slice s.page 64 64 = pageHead w0 kcv place ++ ids := by
  have head : slice s.page 0 56 = pageHead w0 kcv place := by
    rw [lines, pageLines_eq, ← length_pageHead w0 kcv place]
    exact slice_append [] _ _
  have tail : slice s.page 64 64 = ids := by
    have cut := slice_append (pageHead w0 kcv place ++ leBytes 8 (crc32 (pageHead w0 kcv place ++ ids))) ids []
    rw [List.length_append, length_pageHead, length_leBytes, one, List.append_nil, List.append_assoc, ← pageLines_eq, ← lines] at cut
    exact cut
  rw [head, tail]

/-- A page of FORMAT 1 with its CHECK is valid. -/
theorem pageValid_of_lines (one : ids.length = 64) (format : bits w0 0 8 = 1) : pageValid s = true := by
  have first : bits (pageWord s 0) 0 8 = 1 := by
    rw [pageWord_zero_of_lines lines, ← format]
    simp only [bits, Nat.shiftRight_zero]
    omega
  simp [pageValid, first, pageWord_seven_of_lines lines, slice_page_of_lines lines one]

end Lines

/-! ### A page that the block writes -/

theorem pageValid_congr (page : t.page = s.page) : pageValid t = pageValid s := by
  simp only [pageValid, pageWord, page]

theorem pageFull_congr (page : t.page = s.page) : pageFull t = pageFull s := by
  simp only [pageFull, pageWord, page]

/-- The first word that the block writes. -/
def pageFlags (full : Bool) (s : State) : Nat :=
  fld 0 8 1 + fld 8 1 (natOfBool full) + fld 16 8 (identMajor s) + fld 24 8 (identMinor s)

/-- The stack identities as line 1 holds them. -/
def pageIds (s : State) : Bytes := (List.range 8).flatMap fun k => leBytes 8 (s.stackId.getD k 0).toNat

theorem length_pageIds (s : State) : (pageIds s).length = 64 := by
  simp [pageIds]

theorem writePage_page (full : Bool) (kcv place : Nat) (s : State) :
    (writePage full kcv place s).page = pageLines (pageFlags full s) (fld 0 32 kcv) (fld 0 32 place) (pageIds s) := rfl

theorem bits_pageFlags_format (full : Bool) (s : State) : bits (pageFlags full s) 0 8 = 1 := by
  simp only [bits, pageFlags, fld, Nat.shiftLeft_eq, Nat.shiftRight_eq_div_pow]
  omega

theorem bits_pageFlags_full (full : Bool) (s : State) : bits (pageFlags full s % 256 ^ 8) 8 1 = natOfBool full := by
  have bit : natOfBool full < 2 := by cases full <;> decide
  simp only [bits, pageFlags, fld, Nat.shiftLeft_eq, Nat.shiftRight_eq_div_pow]
  omega

theorem bits_fld_word (v : Nat) : bits (fld 0 32 v % 256 ^ 8) 0 32 = v % 2 ^ 32 := by
  simp only [bits, fld, Nat.shiftLeft_zero, Nat.shiftRight_zero]
  omega

@[simp] theorem pageValid_writePage (full : Bool) (kcv place : Nat) (s : State) : pageValid (writePage full kcv place s) = true :=
  pageValid_of_lines (writePage_page full kcv place s) (length_pageIds s) (bits_pageFlags_format full s)

@[simp] theorem pageFull_writePage (full : Bool) (kcv place : Nat) (s : State) : pageFull (writePage full kcv place s) = full := by
  rw [pageFull, pageWord_zero_of_lines (writePage_page full kcv place s), bits_pageFlags_full]
  cases full <;> rfl

theorem pageKcv_writePage (full : Bool) (kcv place : Nat) (s : State) : pageKcv (writePage full kcv place s) = kcv % 2 ^ 32 := by
  rw [pageKcv, pageWord_one_of_lines (writePage_page full kcv place s), bits_fld_word]

theorem pagePlace_writePage (full : Bool) (kcv place : Nat) (s : State) : pagePlace (writePage full kcv place s) = place % 2 ^ 32 := by
  rw [pagePlace, pageWord_two_of_lines (writePage_page full kcv place s), bits_fld_word]

/-- KCV0 and PLACE that a page holds fit their fields, so writing them again keeps them. -/
theorem pageKcv_writePage_self (full : Bool) (place : Nat) (s : State) : pageKcv (writePage full (pageKcv s) place s) = pageKcv s := by
  rw [pageKcv_writePage]
  exact Nat.mod_mod _ _

theorem pagePlace_writePage_self (full : Bool) (kcv : Nat) (s : State) : pagePlace (writePage full kcv (pagePlace s) s) = pagePlace s := by
  rw [pagePlace_writePage]
  exact Nat.mod_mod _ _

/-! ### FULL_NEXT -/

theorem rewritePage_valid (full : Bool) (kcv place : Nat) (valid : pageValid s = true) : rewritePage full kcv place s = writePage full kcv place s :=
  if_pos valid

/-- Writing the page again changes the page alone. -/
theorem rewritePage_eq (full : Bool) (kcv place : Nat) (s : State) :
    rewritePage full kcv place s = { s with page := (rewritePage full kcv place s).page } := by
  unfold rewritePage
  split <;> rfl

theorem exec_fullNext_up (up : s.up = true) : exec .fullNext s = .next (outcome s (fullNext s)) := act_up s fullNext up

theorem fullNext_ready (isReady : ready s = true) : fullNext s = rewritePage true (pageKcv s) (pagePlace s) s := if_pos isReady

theorem fullNext_not_ready (early : ready s = false) : fullNext s = s := by
  simp [fullNext, early]

/-! ### What keeps the page -/

/-- What every change keeps, the changes for a list keep. -/
theorem each_keeps {α β : Type} (g : State → β) {f : α → State → State} (keeps : ∀ x s, g (f x s) = g s) (l : List α) (s : State) :
    g (each l f s) = g s := by
  induction l generalizing s with
  | nil => rfl
  | cons x l ih => exact (ih (f x s)).trans (keeps x s)

/-- The end of a stage writes registers and, where the stage fails, the stage; the rest is what goes on after it. -/
theorem endStage_keeps {β : Type} (g : State → β) (ofRset : ∀ off w s, g (rset off w s) = g s) (ofStage : ∀ k (s : State), g { s with stage := k } = g s)
    {next : State → State} (ofNext : ∀ s, g (next s) = g s) (r : StageResult) (skipped : Bool) (fails degr : List (Nat × Bool)) (words : List Nat) (s : State) :
    g (endStage r skipped fails degr words next s) = g s := by
  have survey : ∀ l : List (Nat × Nat), ∀ k s, g (each l (fun x s => rset (R.SRV_REPORTk_Ww k (2 + x.2)) (word x.1) s) s) = g s :=
    fun l k => each_keeps g (fun _ _ => ofRset _ _ _) l
  simp only [endStage, errBit, setBit, fset]
  simp only [apply_ite g, ofNext, ofRset, ofStage, survey, ite_self]

@[simp] theorem beginStage_page (k : Nat) (s : State) : (beginStage k s).page = s.page := rfl

@[simp] theorem beginStage_startMode (k : Nat) (s : State) : (beginStage k s).startMode = s.startMode := rfl

theorem outcome_page (s t : State) : (outcome s t).page = t.page := by simp [outcome]

theorem outcome_startMode (s t : State) : (outcome s t).startMode = t.startMode := by simp [outcome]

/-! ### Stage 2 (15 R389) -/

theorem trainHbm_page (r : StageResult) (k : Nat) (s : State) : (trainHbm r k s).page = s.page := by
  simp only [trainHbm]
  split <;> split <;> rfl

/-- A request for a full start, or a page that cannot be read, gives a reason against a warm one. -/
theorem modeReason_ne_zero_of_full (full : pageFull s = true) (ids : List Word) : modeReason s ids ≠ 0 := by
  by_cases valid : pageValid s = true <;> simp [modeReason, valid, full]

theorem decideMode_full {ids : List Word} (reason : modeReason s ids ≠ 0) : (decideMode ids s).startMode = 1 ∧ (decideMode ids s).page = s.page := by
  have cold : (modeReason s ids == 0) = false := by simpa using reason
  simp only [decideMode, cold]
  exact ⟨rfl, rfl⟩

/-- Where all stacks train and the page asks for a full start, stage 2 makes it one, and the request stays. -/
theorem farStage_full {r : StageResult} (full : pageFull s = true) (trained : ∀ k < 8, hbmOk s r k = true) :
    (farStage r s).startMode = 1 ∧ (farStage r s).page = s.page := by
  have all : (List.range 8).all (fun k => hbmOk s r k) = true := by simpa using trained
  have kept : (each (List.range 8) (trainHbm r) s).page = s.page := each_keeps State.page (trainHbm_page r) _ s
  obtain ⟨mode, page⟩ := decideMode_full (modeReason_ne_zero_of_full ((pageFull_congr kept).trans full) ((List.range 8).map fun k => r.stackIds.getD k 0))
  simp only [farStage, all, if_true]
  constructor
  · exact (endStage_keeps State.startMode (fun _ _ _ => rfl) (fun _ _ => rfl) (beginStage_startMode 3) ..).trans mode
  · exact (endStage_keeps State.page (fun _ _ _ => rfl) (fun _ _ => rfl) (beginStage_page 3) ..).trans (page.trans kept)

theorem stageEnd_two (r : StageResult) (here : s.stage = 2) : stageEnd r s = farStage r s := by
  simp [stageEnd, here]

/-! ### Sending keeps the page (10 R283 to R285) -/

theorem pmc_page (ev : Nat) (part port job : Option Nat) (n : Nat) (s : State) : (pmc ev part port job n s).page = s.page :=
  each_keeps State.page (fun _ _ => by split <;> rfl) _ s

theorem pushFlit_page {k i : Nat} (sent : pushFlit k i s = some t) : t.page = s.page := by
  unfold pushFlit at sent
  split at sent
  · cases sent
  · obtain ⟨-, sent⟩ := Option.ite_none_left_eq_some.mp sent
    cases sent
    simp only [emitFlit, emit_frame, updPort_frame, pmc_page]

theorem pushFlits_page (k i n : Nat) (s : State) : (pushFlits k i n s).page = s.page := by
  induction n generalizing s with
  | zero => rfl
  | succ n ih =>
    unfold pushFlits
    split
    next sent => rw [ih, pushFlit_page sent]
    next => rfl

theorem pumpPort_page (k : Nat) (s : State) : (pumpPort k s).page = s.page := by
  unfold pumpPort
  split
  · rfl
  · exact each_keeps State.page (fun _ _ => pushFlits_page _ _ _ _) _ s

theorem transmit_page (k vc : Nat) (p : Packet) (s : State) : (transmit k vc p s).page = s.page := by
  simp only [transmit, pumpPort_page, updPort_frame]

theorem pickPort_page (l : List Nat) (s : State) : (pickPort l s).2.page = s.page := by
  unfold pickPort
  split <;> rfl

theorem tryRoute_page {a : Option Nat} {p : Packet} (sent : tryRoute a p s = some t) : t.page = s.page := by
  rcases ite_eq_iff.mp sent with ⟨-, sent⟩ | ⟨-, sent⟩
  · cases sent
    exact (transmit_page ..).trans (pickPort_page _ s)
  · split at sent
    · cases sent
    · obtain ⟨-, sent⟩ := Option.ite_none_right_eq_some.mp sent
      cases sent
      rw [transmit_page]
      split <;> rfl

theorem routePacket_page (a : Option Nat) (p : Packet) (s : State) : (routePacket a p s).page = s.page := by
  unfold routePacket
  split
  next sent => exact tryRoute_page sent
  next => rfl

theorem sendPacket_page (dest cls kind jobId : Nat) (body : Bytes) (s : State) : (sendPacket dest cls kind jobId body s).page = s.page := by
  simp only [sendPacket]
  split
  · split
    · rw [routePacket_page]
      rfl
    · rfl
  · exact routePacket_page _ _ s

theorem sendAwaited_page (kind what : Nat) (blocks : List Nat) (jobId : Nat) (body : Bytes) (s : State) :
    (sendAwaited kind what blocks jobId body s).page = s.page := by
  unfold sendAwaited
  split
  · rfl
  · exact each_keeps State.page (fun _ _ => sendPacket_page _ _ _ _ _ _) _ _

theorem sendPurge_page (s : State) : (sendPurge s).page = s.page := by
  unfold sendPurge
  split
  · rfl
  · exact sendAwaited_page _ _ _ _ _ _

/-! ### Stage 8 (15 R390, R398) -/

theorem becomeReady_page (s : State) : (becomeReady s).page = s.page := by
  simp only [becomeReady]
  split
  · rw [sendPurge_page]
    rfl
  · rfl

/-- Once the keys are there, the end of stage 8 leaves the page as it writes it, whether the stage fails or makes the block ready. -/
theorem ledgerStage_page (r : StageResult) (keys : s.keyWait = false) : (ledgerStage r s).page = (writeJournal (ledgerWork (privSync s))).page := by
  simp only [ledgerStage, keys, Bool.false_eq_true, if_false]
  exact endStage_keeps State.page (fun _ _ _ => rfl) (fun _ _ => rfl) becomeReady_page _ _ _ _ _ _

theorem stageEnd_eight (r : StageResult) (here : s.stage = 8) : stageEnd r s = ledgerStage r s := by
  simp [stageEnd, here]

theorem exec_stageEnd_up (r : StageResult) (up : s.up = true) : exec (.stageEnd r) s = .next (outcome s (stageEnd r s)) := act_up s (stageEnd r) up

/-- Settles O51: FULL_NEXT writes the page again with FULL_REQ, KCV0 and PLACE reading back as they were; stage 2 finds in FULL_REQ a reason against a warm start; and every page that stage 8 writes is valid and has FULL_REQ clear. -/
theorem fullNextMakesTheNextStartFull : Obligations.FullNextMakesTheNextStartFull := by
  unfold Obligations.FullNextMakesTheNextStartFull
  intro s up
  refine ⟨fun isReady => ?_, fun valid => ?_, fun early => ?_, fun r here full trained => ?_, fun r here keys _ => ?_⟩
  · rw [exec_fullNext_up up, fullNext_ready isReady, ← rewritePage_eq]
  · rw [rewritePage_valid _ _ _ valid]
    exact ⟨pageValid_writePage .., pageFull_writePage .., pageKcv_writePage_self .., pagePlace_writePage_self ..⟩
  · rw [exec_fullNext_up up, fullNext_not_ready early]
  · refine ⟨_, exec_stageEnd_up r up, ?_⟩
    rw [stageEnd_two r here]
    change (outcome s (farStage r s)).startMode = 1 ∧ (outcome s (farStage r s)).page = s.page
    rw [outcome_startMode, outcome_page]
    exact farStage_full full trained
  · refine ⟨_, exec_stageEnd_up r up, ?_⟩
    have page : (outcome s (stageEnd r s)).page = (writeJournal (ledgerWork (privSync s))).page := by
      rw [outcome_page, stageEnd_eight r here, ledgerStage_page r keys]
    exact ⟨(pageValid_congr page).trans (pageValid_writePage ..), (pageFull_congr page).trans (pageFull_writePage ..)⟩

end Sys2Proof.Machine
end

section
/-! Accesses of a source (17 R436): what a read gives and leaves, by the half it names, and how long the latch of a counter's high half lasts. -/

namespace Sys2Proof.Machine

/-! ### The latch of a source -/

theorem mfind_filter_ne_self {α : Type} (k : Nat) : ∀ m : List (Nat × α), mfind k (m.filter fun x => x.1 != k) = none
  | [] => rfl
  | (j, v) :: m => by
    by_cases same : j = k
    · simpa [same] using mfind_filter_ne_self k m
    · simp [same, mfind, mfind_filter_ne_self k m]

@[simp] theorem mfind_halves_dropLatch (src : Source) (s : State) : mfind (sourceKey src) (dropLatch src s).halves = none :=
  mfind_filter_ne_self _ _

/-- Dropping a latch changes no value that a register shows: the latches are no part of any register. -/
@[simp] theorem readReg_dropLatch (src : Source) (s : State) (off : Nat) : readReg (dropLatch src s) off = readReg s off := rfl

@[simp] theorem vlog_latches (kind source q seq w1 w2 : Nat) (s : State) :
    (vlog kind source q seq w1 w2 s).halves = s.halves ∧ (vlog kind source q seq w1 w2 s).lastAcc = s.lastAcc := by
  unfold vlog
  dsimp only
  split <;> exact ⟨rfl, rfl⟩

theorem badAccess_latches (src : Source) (off : Nat) (s : State) :
    (badAccess src off s).halves = s.halves ∧ (badAccess src off s).lastAcc = s.lastAcc := by
  cases src <;> simp [badAccess, hostVlog, freeNat]

/-- The high half that is latched for a source, where the source's last access read the low half of the counter at off. -/
def latchedHigh (src : Source) (off : Nat) (s : State) : Option Word :=
  if mgetD (sourceKey src) 0 s.lastAcc = off then mfind (sourceKey src) s.halves else none

/-- The source's last access is a read of the low half of the counter at off, and high is latched for it. -/
def latchHigh (src : Source) (off : Nat) (high : Word) (s : State) : State :=
  { s with lastAcc := mput (sourceKey src) off s.lastAcc, halves := mput (sourceKey src) high s.halves }

theorem latchedHigh_congr {s u : State} (lastAcc : u.lastAcc = s.lastAcc) (halves : u.halves = s.halves) (src : Source) (off : Nat) :
    latchedHigh src off u = latchedHigh src off s := by
  simp only [latchedHigh, lastAcc, halves]

@[simp] theorem latchedHigh_latchHigh (src : Source) (off : Nat) (high : Word) (s : State) : latchedHigh src off (latchHigh src off high s) = some high := by
  simp [latchedHigh, latchHigh, mgetD]

theorem latchedHigh_eq_none {src : Source} {off : Nat} {s : State}
    (unlatched : mfind (sourceKey src) s.halves = none ∨ mgetD (sourceKey src) 0 s.lastAcc ≠ off) : latchedHigh src off s = none := by
  rcases unlatched with none_ | other
  · simp [latchedHigh, none_]
  · exact if_neg other

/-! ### A read, by the bits it names -/

section Reads

variable (src : Source) (s : State) {off : Nat}

theorem accessRead_refused {width : Nat} (bad : accessOk off width = false) : accessRead src off width s = (0, badAccess src off (dropLatch src s)) := by
  simp [accessRead, bad]

theorem accessRead_whole (aligned : off % 8 = 0) : accessRead src off 8 s = (readReg s off, dropLatch src s) := by
  have place : off / 8 * 8 = off := by omega
  simp [accessRead, accessOk, aligned, place]

theorem accessRead_low (aligned : off % 8 = 0) : accessRead src off 4 s = (word (wbits (readReg s off) 0 32),
    if isCounter off && (findRow off).isSome then latchHigh src off (word (wbits (readReg s off) 32 32)) (dropLatch src s) else dropLatch src s) := by
  have place : off / 8 * 8 = off := by omega
  have quarter : off % 4 = 0 := by omega
  simp [accessRead, accessOk, latchHigh, aligned, quarter, place]

theorem accessRead_high (aligned : off % 8 = 0) :
    accessRead src (off + 4) 4 s = ((latchedHigh src off s).getD (word (wbits (readReg s off) 32 32)), dropLatch src s) := by
  have place : (off + 4) / 8 * 8 = off := by omega
  have half : (off + 4) % 8 = 4 := by omega
  have quarter : (off + 4) % 4 = 0 := by omega
  simp [accessRead, accessOk, latchedHigh, half, quarter, place]

theorem accessRead_low_value (aligned : off % 8 = 0) : (accessRead src off 4 s).1 = word (wbits (readReg s off) 0 32) := by
  rw [accessRead_low src s aligned]

/-- A read of the low half of a counter latches its high half. -/
theorem accessRead_low_counter (aligned : off % 8 = 0) (counter : isCounter off = true) (row : (findRow off).isSome = true) :
    (accessRead src off 4 s).2 = latchHigh src off (word (wbits (readReg s off) 32 32)) (dropLatch src s) := by
  simp [accessRead_low src s aligned, counter, row]

/-- An aligned access names a whole register, its low half or its high half. -/
theorem accessOk_cases {width : Nat} (ok : accessOk off width = true) :
    (width = 8 ∧ off % 8 = 0) ∨ (width = 4 ∧ off % 8 = 0) ∨ (width = 4 ∧ ∃ o, o % 8 = 0 ∧ off = o + 4) := by
  simp only [accessOk, Bool.or_eq_true, Bool.and_eq_true, beq_iff_eq] at ok
  rcases ok with whole | ⟨four, quarter⟩
  · exact .inl whole
  · rcases (by omega : off % 8 = 0 ∨ off % 8 = 4) with low | high
    · exact .inr (.inl ⟨four, low⟩)
    · exact .inr (.inr ⟨four, off - 4, by omega, by omega⟩)

/-- Every read but that of a counter's low half leaves the source without a latch, and no other latch changed. -/
theorem accessRead_latches {width : Nat} (notLow : width = 4 → off % 8 = 0 → isCounter off = false) :
    (accessRead src off width s).2.halves = (dropLatch src s).halves ∧ (accessRead src off width s).2.lastAcc = (dropLatch src s).lastAcc := by
  cases ok : accessOk off width with
  | false =>
    rw [accessRead_refused src s ok]
    exact badAccess_latches src off _
  | true =>
    obtain ⟨rfl, aligned⟩ | ⟨rfl, aligned⟩ | ⟨rfl, o, aligned, rfl⟩ := accessOk_cases ok
    · simp [accessRead_whole src s aligned]
    · simp [accessRead_low src s aligned, notLow rfl aligned]
    · simp [accessRead_high src s aligned]

theorem accessWrite_eq (width : Nat) (v : Word) : accessWrite src off width v s =
    if accessOk off width then writeReg (off / 8 * 8) (accessMask off width) (v.toNat * 2 ^ (8 * (off % 8))) (dropLatch src s)
    else badAccess src off (dropLatch src s) := by
  cases ok : accessOk off width <;> simp [accessWrite, ok]

/-- A half of a register that no latch of the source holds is read at the instant of the read. -/
theorem accessRead_half_unlatched (quarter : off % 4 = 0)
    (unlatched : mfind (sourceKey src) s.halves = none ∨ mgetD (sourceKey src) 0 s.lastAcc ≠ off / 8 * 8) :
    (accessRead src off 4 s).1 = word (wbits (readReg s (off / 8 * 8)) (8 * (off % 8)) 32) := by
  have ok : accessOk off 4 = true := by simp [accessOk, quarter]
  obtain ⟨eight, -⟩ | ⟨-, aligned⟩ | ⟨-, o, aligned, rfl⟩ := accessOk_cases ok
  · exact absurd eight (by decide)
  · have place : off / 8 * 8 = off := by omega
    rw [accessRead_low_value src s aligned, place, aligned]
  · have place : (o + 4) / 8 * 8 = o := by omega
    have half : (o + 4) % 8 = 4 := by omega
    rw [place] at unlatched
    rw [accessRead_high src s aligned, latchedHigh_eq_none unlatched, place, half]
    rfl

/-- The high half of a counter read after its low half is that of the instant of the first read, whatever has come about in between but an access of the source. -/
theorem accessRead_high_after_low (aligned : off % 8 = 0) (counter : isCounter off = true) (row : (findRow off).isSome = true) {u : State}
    (lastAcc : u.lastAcc = (accessRead src off 4 s).2.lastAcc) (halves : u.halves = (accessRead src off 4 s).2.halves) :
    (accessRead src (off + 4) 4 u).1 = word (wbits (readReg s off) 32 32) := by
  have latched : latchedHigh src off u = some (word (wbits (readReg s off) 32 32)) := by
    rw [latchedHigh_congr lastAcc halves, accessRead_low_counter src s aligned counter row, latchedHigh_latchHigh]
  rw [accessRead_high src u aligned, latched]
  rfl

end Reads

/-- Settles O57: a read of a counter's low half latches its high half for the source, every other access of the source leaves it without a latch, and a half that is not latched is read when it is asked for. -/
theorem counterHalvesAreOfOneInstant : Obligations.CounterHalvesAreOfOneInstant := by
  unfold Obligations.CounterHalvesAreOfOneInstant
  refine ⟨fun s src off aligned => ?_, fun s u src off aligned counter row => ⟨fun lastAcc halves => ?_, fun o w notLow => ?_, ?_, ?_⟩,
    fun s src off quarter _ unlatched => accessRead_half_unlatched src s quarter unlatched⟩
  · rw [accessRead_whole src s aligned]
  · exact ⟨accessRead_low_value src s aligned, accessRead_high_after_low src s aligned counter row lastAcc halves⟩
  · obtain ⟨halves, lastAcc⟩ := accessRead_latches src (accessRead src off 4 s).2 notLow
    exact ⟨halves, lastAcc, by rw [halves, mfind_halves_dropLatch]⟩
  · exact mfind_halves_dropLatch src
  · exact fun o w v => accessWrite_eq src _ w v

end Sys2Proof.Machine
end

section
/-! Sound states and block reset (12 R326, R329, R331; 13 R349, R362; 14 R376, R377, R387): the frame of a command, what block reset and a shutdown clear and keep, and the statements about supplies, reset and the empty queue that rest on it. -/

namespace Sys2Proof.Machine
variable {s t : State}

/-! ### The frame of a command -/

theorem act_eq (s : State) (f : State → State) : act s f = .next (if s.up then outcome s (f s) else s) := rfl

/-- The inputs of a block, which its work leaves alone: the queue, the supplies, block reset and the straps. -/
structure SameInputs (s t : State) : Prop where
  pending : t.pending = s.pending
  vin : t.vin = s.vin
  pwrGood : t.pwrGood = s.pwrGood
  powered : t.powered = s.powered
  blkRst : t.blkRst = s.blkRst
  straps : t.straps = s.straps

theorem SameInputs.refl (s : State) : SameInputs s s := ⟨rfl, rfl, rfl, rfl, rfl, rfl⟩

theorem SameInputs.trans {u : State} (a : SameInputs s t) (b : SameInputs t u) : SameInputs s u :=
  ⟨b.pending.trans a.pending, b.vin.trans a.vin, b.pwrGood.trans a.pwrGood, b.powered.trans a.powered, b.blkRst.trans a.blkRst, b.straps.trans a.straps⟩

theorem sameInputs_rset (off : Nat) (w : Word) (s : State) : SameInputs s (rset off w s) := ⟨rfl, rfl, rfl, rfl, rfl, rfl⟩

theorem sameInputs_holdInputs (s t : State) : SameInputs s (holdInputs s t) := ⟨rfl, rfl, rfl, rfl, rfl, rfl⟩

theorem sameInputs_elog (cls unit index detail w1 w2 : Nat) (s : State) : SameInputs s (elog cls unit index detail w1 w2 s) := by
  unfold elog
  dsimp only
  split <;> exact ⟨rfl, rfl, rfl, rfl, rfl, rfl⟩

theorem act_sameInputs {f : State → State} (h : act s f = .next t) : SameInputs s t := by
  rw [act_eq] at h
  split at h <;> cases h
  · obtain ⟨pending, vin, pwrGood, powered, blkRst, straps⟩ := outcome_inputs s (f s)
    exact ⟨pending, vin, pwrGood, powered, blkRst, straps⟩
  · exact .refl s

theorem up_iff : s.up = true ↔ s.powered = true ∧ s.blkRst = false ∧ s.pmode ≠ 2 := by
  simp [State.up, and_assoc]

theorem up_false_of_reset (reset : s.blkRst = true) : s.up = false := by simp [State.up, reset]

/-! ### A block that block reset has cleared -/

/-- A change that concerns only what outlives block reset leaves a cleared block cleared. -/
theorem Cleared.update {f : State → State} (h : Cleared s) (commutes : f (bare s) = bare (f s))
    (regs : ∀ x ∈ (f s).regs, x ∈ s.regs ∨ x.1 ∈ islandRegs ∨ x.1 = R.NM_TEMP) : Cleared (f s) where
  regs x mem := (regs x mem).elim (h.regs x) id
  rest := (congrArg f h.rest).trans commutes

theorem Cleared.rset (h : Cleared s) {off : Nat} (w : Word) (island : off ∈ islandRegs ∨ off = R.NM_TEMP) : Cleared (rset off w s) :=
  h.update (f := Machine.rset off w) rfl fun x mem => (mem_mput mem).elim (fun e => .inr (by simpa [e] using island)) .inl

theorem cleared_resetState (s : State) : Cleared (resetState s) where
  regs x mem := .inl (by simpa using (List.mem_filter.1 mem).2)
  rest := rfl

/-- What the sensors' outputs do: THERM_WARN_N is set, or left. -/
theorem warnCheck_cases (s : State) : warnCheck s = s ∨ ∃ w, warnCheck s = rset R.MG_PIN_STATUS w s := by
  unfold warnCheck
  dsimp only
  split
  · exact .inr ⟨_, rfl⟩
  · split
    · exact .inr ⟨_, rfl⟩
    · exact .inl rfl

theorem tripInReset_cases (s : State) : tripInReset s = s ∨ ∃ w, tripInReset s = rset R.NM_TEMP w s := by
  unfold tripInReset
  split
  · exact .inl rfl
  · split
    · exact .inr ⟨_, rfl⟩
    · split
      · exact .inr ⟨_, rfl⟩
      · exact .inl rfl

theorem warnCheck_keeps {β : Type} (g : State → β) (ofRset : ∀ off w s, g (rset off w s) = g s) (s : State) : g (warnCheck s) = g s := by
  obtain e | ⟨w, e⟩ := warnCheck_cases s <;> rw [e]
  exact ofRset _ w s

theorem tripInReset_keeps {β : Type} (g : State → β) (ofRset : ∀ off w s, g (rset off w s) = g s) (s : State) : g (tripInReset s) = g s := by
  obtain e | ⟨w, e⟩ := tripInReset_cases s <;> rw [e]
  exact ofRset _ w s

theorem Cleared.warnCheck (h : Cleared s) : Cleared (warnCheck s) := by
  obtain e | ⟨w, e⟩ := warnCheck_cases s <;> rw [e]
  · exact h
  · exact h.rset w (.inl (by decide))

theorem Cleared.tripInReset (h : Cleared s) : Cleared (tripInReset s) := by
  obtain e | ⟨w, e⟩ := tripInReset_cases s <;> rw [e]
  · exact h
  · exact h.rset w (.inr rfl)

theorem cleared_toReset (s : State) : Cleared (toReset s) := by
  unfold toReset
  dsimp only
  split
  · exact ((cleared_resetState s).rset _ (.inr rfl)).warnCheck
  · exact (cleared_resetState s).warnCheck

theorem cleared_blockReset (cause : Nat) (s : State) : Cleared (blockReset cause s) :=
  (cleared_toReset (elog 0x04 EU.block 0 cause 0 0 s)).update (f := fun t => { t with blkRst := true }) rfl fun _ mem => .inl mem

/-! ### What reset leaves alone -/

theorem elog_keeps {β : Type} (g : State → β) (ofRset : ∀ off w s, g (rset off w s) = g s) (ofLog : ∀ l (s : State), g { s with elog := l } = g s)
    (cls unit index detail w1 w2 : Nat) (s : State) : g (elog cls unit index detail w1 w2 s) = g s := by
  unfold elog
  dsimp only
  split
  · exact (ofRset _ _ _).trans ((ofRset _ _ _).trans (ofLog _ s))
  · exact (ofRset _ _ _).trans (ofLog _ s)

theorem toReset_keeps {β : Type} (g : State → β) (ofRset : ∀ off w s, g (rset off w s) = g s) (ofReset : ∀ s, g (resetState s) = g s) (s : State) :
    g (toReset s) = g s := by
  unfold toReset
  dsimp only
  rw [warnCheck_keeps g ofRset]
  split
  · exact (ofRset _ _ _).trans (ofReset s)
  · exact ofReset s

/-- What outlives block reset, as one value. -/
def lasting (s : State) :=
  (s.far, s.farGen, s.lineKey, s.ueLines, s.ledger, s.gaz, s.stores, s.journal, s.page, s.factory, s.fieldRepair, s.repairList, s.privKey, s.aon)

/-- The inputs that block reset itself leaves as they are. -/
def supplyInputs (s : State) := (s.pending, s.vin, s.pwrGood, s.powered, s.straps)

theorem outlives_iff : Outlives s t ↔ lasting t = lasting s := by simp [Outlives, lasting]

theorem lasting_blockReset (cause : Nat) (s : State) : lasting (blockReset cause s) = lasting s :=
  (toReset_keeps lasting (fun _ _ _ => rfl) (fun _ => rfl) _).trans (elog_keeps lasting (fun _ _ _ => rfl) (fun _ _ => rfl) _ _ _ _ _ _ s)

theorem supplyInputs_blockReset (cause : Nat) (s : State) : supplyInputs (blockReset cause s) = supplyInputs s :=
  (toReset_keeps supplyInputs (fun _ _ _ => rfl) (fun _ => rfl) _).trans (elog_keeps supplyInputs (fun _ _ _ => rfl) (fun _ _ => rfl) _ _ _ _ _ _ s)

theorem blockReset_blkRst (cause : Nat) (s : State) : (blockReset cause s).blkRst = true := rfl

theorem blockReset_pmode (cause : Nat) (s : State) : (blockReset cause s).pmode = 0 := by
  show (toReset (elog 0x04 EU.block 0 cause 0 0 s)).pmode = 0
  unfold toReset
  dsimp only
  rw [warnCheck_keeps State.pmode (fun _ _ _ => rfl)]
  split <;> rfl


/-! ### The shutdown -/

/-- A shutdown of a powered block: reset where it was not, then no power; a firmware image that was being written is lost. -/
def shutDown (s : State) : State :=
  { s with powered := false, pmode := 0, released := none, tap := .testLogicReset }

def loseImage (s : State) : State :=
  { s with fwSlots := s.fwSlots.modify (1 - s.fwRun) fun _ => { whole := false, image := [] } }

theorem powerFall_unpowered (off : s.powered = false) : powerFall s = s := by simp [powerFall, off]

theorem powerFall_powered (on : s.powered = true) :
    powerFall s = (fun r => if s.fwBusy then loseImage (shutDown r) else shutDown r) (if s.blkRst then s else blockReset 3 s) := by
  unfold powerFall
  rw [if_neg (by simp [on])]
  rfl

/-- A shutdown of a powered block keeps what the state it shuts down keeps. -/
theorem powerFall_keeps {β : Type} (g : State → β) (ofShutDown : ∀ s, g (shutDown s) = g s) (ofImage : ∀ s, g (loseImage s) = g s)
    (ofReset : g (blockReset 3 s) = g s) : g (powerFall s) = g s := by
  cases on : s.powered with
  | false => rw [powerFall_unpowered on]
  | true =>
    have inner : g (if s.blkRst then s else blockReset 3 s) = g s := by
      split
      · rfl
      · exact ofReset
    rw [powerFall_powered on]
    dsimp only
    split
    · rw [ofImage, ofShutDown, inner]
    · rw [ofShutDown, inner]

theorem lasting_powerFall (s : State) : lasting (powerFall s) = lasting s :=
  powerFall_keeps lasting (fun _ => rfl) (fun _ => rfl) (lasting_blockReset 3 s)

/-- The queue, VIN, PWR_GOOD and the straps. -/
def pinInputs (s : State) := (s.pending, s.vin, s.pwrGood, s.straps)

theorem pinInputs_blockReset (cause : Nat) (s : State) : pinInputs (blockReset cause s) = pinInputs s :=
  (toReset_keeps pinInputs (fun _ _ _ => rfl) (fun _ => rfl) _).trans (elog_keeps pinInputs (fun _ _ _ => rfl) (fun _ _ => rfl) _ _ _ _ _ _ s)

theorem pinInputs_powerFall (s : State) : pinInputs (powerFall s) = pinInputs s :=
  powerFall_keeps pinInputs (fun _ => rfl) (fun _ => rfl) (pinInputs_blockReset 3 s)

theorem powerFall_off (s : State) : (powerFall s).powered = false := by
  cases on : s.powered with
  | false => rwa [powerFall_unpowered on]
  | true =>
    rw [powerFall_powered on]
    dsimp only
    split <;> rfl

/-- After a shutdown the block is without power, cleared and in block reset. -/
theorem powerFall_powered_after (on : s.powered = true) (cleared : s.blkRst = true → Cleared s) :
    (powerFall s).blkRst = true ∧ (powerFall s).pmode = 0 ∧ Cleared (powerFall s) := by
  have inner : (if s.blkRst then s else blockReset 3 s).blkRst = true ∧ Cleared (if s.blkRst then s else blockReset 3 s) := by
    split
    · exact ⟨‹_›, cleared ‹_›⟩
    · exact ⟨rfl, cleared_blockReset 3 s⟩
  have shut : Cleared (shutDown (if s.blkRst then s else blockReset 3 s)) := inner.2.update rfl fun _ mem => .inl mem
  rw [powerFall_powered on]
  dsimp only
  split
  · exact ⟨inner.1, rfl, shut.update rfl fun _ mem => .inl mem⟩
  · exact ⟨inner.1, rfl, shut⟩

/-! ### Sound states -/

/-- A change that keeps the inputs, and block reset cleared, keeps a state sound. -/
theorem Sound.sameInputs (h : Sound s) (same : SameInputs s t) (reset : t.blkRst = true → Cleared t ∧ t.pmode = 0) : Sound t := by
  obtain ⟨pending, vin, pwrGood, powered, blkRst, straps⟩ := same
  constructor
  · simpa [PendingFits, pending] using h.pending
  · simpa [Supplied, vin, pwrGood, powered, blkRst] using h.supplied
  · simpa [Placed, straps] using h.placed
  · exact reset

/-- An effect that keeps the inputs and, in block reset, everything but what outlives it. -/
structure KeepsReset (s t : State) : Prop where
  same : SameInputs s t
  reset : s.blkRst = true → Cleared s → Cleared t ∧ t.pmode = s.pmode

theorem KeepsReset.refl (s : State) : KeepsReset s s := ⟨.refl s, fun _ c => ⟨c, rfl⟩⟩

theorem KeepsReset.update (f : State → State) (same : SameInputs s (f s)) (commutes : f (bare s) = bare (f s)) (regs : (f s).regs = s.regs)
    (pmode : (f s).pmode = s.pmode) : KeepsReset s (f s) :=
  ⟨same, fun _ c => ⟨c.update commutes fun _ mem => .inl (regs ▸ mem), pmode⟩⟩

theorem KeepsReset.sound (k : KeepsReset s t) (h : Sound s) : Sound t :=
  h.sameInputs k.same fun reset => by
    have before : s.blkRst = true := k.same.blkRst ▸ reset
    obtain ⟨cleared, mode⟩ := h.reset before
    obtain ⟨cleared', mode'⟩ := k.reset before cleared
    exact ⟨cleared', mode'.trans mode⟩

/-- What an input that always acts adds to its effect, an EVENT of a block that is up, keeps a state sound. -/
theorem sound_actAlways {f : State → State} (pending : PendingFits s) (hf : Sound (f s)) (h : actAlways s f = .next t) : Sound t := by
  cases h
  refine ⟨pending, by simpa [Supplied] using hf.supplied, by simpa [Placed] using hf.placed, fun reset => ?_⟩
  have down : (f s).blkRst = true := by simpa using reset
  obtain ⟨cleared, mode⟩ := hf.reset down
  rw [raiseEvent_down _ _ (up_false_of_reset down)]
  exact ⟨cleared.update (f := fun u => { u with pending := s.pending }) rfl fun _ mem => .inl mem, mode⟩

theorem sound_act {f : State → State} (hs : Sound s) (h : act s f = .next t) : Sound t := by
  have same := act_sameInputs h
  refine hs.sameInputs same fun reset => ?_
  have before : s.blkRst = true := same.blkRst ▸ reset
  rw [act_down s f (up_false_of_reset before)] at h
  cases h
  exact hs.reset before

/-! ### The commands that reach a block in reset -/

theorem warnCheck_sameInputs (s : State) : SameInputs s (warnCheck s) := by
  obtain e | ⟨w, e⟩ := warnCheck_cases s <;> rw [e]
  · exact .refl s
  · exact sameInputs_rset _ w s

theorem tripInReset_keepsReset (s : State) : KeepsReset s (tripInReset s) := by
  refine ⟨?_, fun _ c => ⟨c.tripInReset, tripInReset_keeps State.pmode (fun _ _ _ => rfl) s⟩⟩
  obtain e | ⟨w, e⟩ := tripInReset_cases s <;> rw [e]
  · exact .refl s
  · exact sameInputs_rset _ w s

theorem KeepsReset.trans {u : State} (a : KeepsReset s t) (b : KeepsReset t u) : KeepsReset s u where
  same := a.same.trans b.same
  reset r c := by
    obtain ⟨c', m'⟩ := a.reset r c
    obtain ⟨c'', m''⟩ := b.reset (a.same.blkRst.trans r) c'
    exact ⟨c'', m''.trans m'⟩

theorem warnCheck_keepsReset (s : State) : KeepsReset s (warnCheck s) :=
  ⟨warnCheck_sameInputs s, fun _ c => ⟨c.warnCheck, warnCheck_keeps State.pmode (fun _ _ _ => rfl) s⟩⟩

theorem temperatureInReset_keepsReset (n : Nat) (c : Int) (s : State) : KeepsReset s (temperatureInReset n c s) := by
  refine .trans (t := temperature n c s) ?_ (tripInReset_keepsReset _)
  unfold temperature
  split
  · exact .refl s
  · exact .trans (.update (fun s => { s with temps := mput n c s.temps }) ⟨rfl, rfl, rfl, rfl, rfl, rfl⟩ rfl rfl rfl) (warnCheck_keepsReset _)

theorem clockGone_keepsReset (c : Nat) (s : State) : KeepsReset s (clockGone c s) := by
  unfold clockGone
  split
  · exact .refl s
  · exact .update (fun s => { s with clocksBad := maskSet s.clocksBad (clockBit c) }) ⟨rfl, rfl, rfl, rfl, rfl, rfl⟩ rfl rfl rfl

theorem clockBack_keepsReset (c : Nat) (s : State) : KeepsReset s (clockBack c s) := by
  unfold clockBack
  split
  · exact .refl s
  · exact .update (fun s => { s with clocksBad := maskClear s.clocksBad (clockBit c) }) ⟨rfl, rfl, rfl, rfl, rfl, rfl⟩ rfl rfl rfl

theorem emit_keepsReset (o : Out) (s : State) : KeepsReset s (emit o s) := .update (emit o) ⟨rfl, rfl, rfl, rfl, rfl, rfl⟩ rfl rfl rfl

theorem instrumentIdle_keepsReset (i : Instrument) (p : PortName) (pos : Nat) (s : State) : KeepsReset s (instrumentIdle i p pos s) := by
  have access : KeepsReset s (afterAccess s) := .update afterAccess ⟨rfl, rfl, rfl, rfl, rfl, rfl⟩ rfl rfl rfl
  unfold instrumentIdle
  split
  · exact .refl s
  · dsimp only
    split
    · exact access.trans (emit_keepsReset _ _)
    · exact access.trans (emit_keepsReset _ _)

/-- A comparator fires only on a block in DEEP, which is not in block reset. -/
theorem deepWake_keepsReset (c : Nat) (s : State) : KeepsReset s (deepWake c s) := by
  unfold deepWake
  dsimp only
  split
  · exact .refl s
  · rename_i guard
    have awake : s.blkRst = false := by
      simp only [Bool.or_eq_true, not_or, Bool.not_eq_true] at guard
      exact guard.1.1.2
    refine ⟨?_, fun r => absurd r (by simp [awake])⟩
    split
    · exact ⟨rfl, rfl, rfl, rfl, rfl, rfl⟩
    · split <;> exact ⟨rfl, rfl, rfl, rfl, rfl, rfl⟩

/-- What a command that leaves the supplies alone does: its effect in the common frame, or an effect that block reset does not notice. -/
theorem exec_cases (c : Instr) (s : State) (fixed : changesSupplies c = false) :
    (∃ f, exec c s = act s f) ∨ ∃ f, exec c s = actAlways s f ∧ KeepsReset s (f s) := by
  have ofInput : ∀ (up down : State → State), KeepsReset s (down s) →
      (∃ f, actInput s up down = act s f) ∨ ∃ f, actInput s up down = actAlways s f ∧ KeepsReset s (f s) := fun up down k => by
    unfold actInput
    split
    · exact .inl ⟨up, rfl⟩
    · exact .inr ⟨down, rfl, k⟩
  cases reaches : reachesReset c with
  | false => exact .inl (exec_act c s reaches)
  | true =>
    cases c <;> try contradiction
    case hostLost cause =>
      refine ofInput _ _ ?_
      split
      · exact .update (fun s => { s with hstRst := true }) ⟨rfl, rfl, rfl, rfl, rfl, rfl⟩ rfl rfl rfl
      · exact .refl s
    case hstRstRelease => exact ofInput _ _ (.update (fun s => { s with hstRst := false }) ⟨rfl, rfl, rfl, rfl, rfl, rfl⟩ rfl rfl rfl)
    case cptPartnerLost cause =>
      refine ofInput _ _ ?_
      cases cause with
      | resetPin => exact .update (fun s => { s with cptPrst := true }) ⟨rfl, rfl, rfl, rfl, rfl, rfl⟩ rfl rfl rfl
      | noModule => exact .refl s
    case cptPrstRelease => exact ofInput _ _ (.update (fun s => { s with cptPrst := false }) ⟨rfl, rfl, rfl, rfl, rfl, rfl⟩ rfl rfl rfl)
    case clockLoss k => exact ofInput _ _ (clockGone_keepsReset k s)
    case clockRecover k => exact ofInput _ _ (clockBack_keepsReset k s)
    case thermalTrip => exact ofInput _ _ (tripInReset_keepsReset s)
    case thermalTripExit => exact ofInput _ _ (tripInReset_keepsReset s)
    case deepWake k => exact .inr ⟨_, rfl, deepWake_keepsReset k s⟩
    case temperatureReading n t => exact ofInput _ _ (temperatureInReset_keepsReset n t s)
    case instrumentAccess i p pos l => exact ofInput _ _ (instrumentIdle_keepsReset i p pos s)

/-- Every command is an effect in one of two frames, and both keep the queue. -/
theorem exec_act_or_actAlways (c : Instr) (s : State) : (∃ f, exec c s = act s f) ∨ ∃ f, exec c s = actAlways s f := by
  cases fixed : changesSupplies c with
  | false => exact (exec_cases c s fixed).imp id fun ⟨f, eq, _⟩ => ⟨f, eq⟩
  | true =>
    cases c <;> try contradiction
    case railFault k =>
      show (∃ f, execRailFault k s = act s f) ∨ ∃ f, execRailFault k s = actAlways s f
      unfold execRailFault
      split
      · exact .inl ⟨_, rfl⟩
      · exact .inr ⟨_, rfl⟩
    all_goals
      simp only [exec, execPwrGoodFall, execPwrGoodRise, execBlkRstAssert, execBlkRstRelease, execVinRise, execVinRemoval]
      exact .inr ⟨_, rfl⟩

/-- Settles O3: both frames of a command give back the queue. -/
theorem everyCommandAnswersAndKeepsQueue : Obligations.EveryCommandAnswersAndKeepsQueue := by
  intro c s
  obtain ⟨f, eq⟩ | ⟨f, eq⟩ := exec_act_or_actAlways c s
  · exact ⟨_, eq, (act_sameInputs rfl).pending⟩
  · exact ⟨_, eq, rfl⟩

/-- Settles O4: every other command runs in the common frame, or is an input whose effect keeps the supplies. -/
theorem onlySupplyCommandsChangeSupplies : Obligations.OnlySupplyCommandsChangeSupplies := by
  intro c s t fixed h
  obtain ⟨f, eq⟩ | ⟨f, eq, keeps⟩ := exec_cases c s fixed <;> rw [eq] at h
  · have same := act_sameInputs h
    exact ⟨same.vin, same.pwrGood, same.powered, same.blkRst, same.straps⟩
  · cases h
    have same := keeps.same
    simp [same.vin, same.pwrGood, same.powered, same.blkRst, same.straps]

/-- Settles O5: a command that does not reach reset runs in the common frame. -/
theorem blockThatIsDownIgnoresCommands : Obligations.BlockThatIsDownIgnoresCommands := by
  intro c s deaf down
  obtain ⟨f, eq⟩ := exec_act c s deaf
  rw [eq, act_down s f down]

/-! ### The commands of the supplies and of block reset -/

/-- A block after a shutdown is sound, whatever the supply was. -/
theorem sound_powerFall (pending : PendingFits s) (placed : Placed s) (off : s.powered = false → s.blkRst = true)
    (reset : s.blkRst = true → Cleared s ∧ s.pmode = 0) : Sound (powerFall s) := by
  have pins := pinInputs_powerFall s
  simp only [pinInputs, Prod.mk.injEq] at pins
  obtain ⟨samePending, -, -, sameStraps⟩ := pins
  have down : (powerFall s).blkRst = true ∧ (powerFall s).pmode = 0 ∧ Cleared (powerFall s) := by
    cases on : s.powered with
    | true => exact powerFall_powered_after on fun r => (reset r).1
    | false =>
      rw [powerFall_unpowered on]
      exact ⟨off on, (reset (off on)).2, (reset (off on)).1⟩
  obtain ⟨blkRst, mode, cleared⟩ := down
  exact ⟨by simpa [PendingFits, samePending] using pending, by simp [Supplied, blkRst, powerFall_off], by simpa [Placed, sameStraps] using placed,
    fun _ => ⟨cleared, mode⟩⟩

theorem sound_blockReset (cause : Nat) (pending : PendingFits s) (placed : Placed s) (on : s.powered = true → s.vin = true ∧ s.pwrGood = true) :
    Sound (blockReset cause s) := by
  have same := supplyInputs_blockReset cause s
  simp only [supplyInputs, Prod.mk.injEq] at same
  obtain ⟨samePending, vin, pwrGood, powered, straps⟩ := same
  exact ⟨by simpa [PendingFits, samePending] using pending, by simpa [Supplied, vin, pwrGood, powered, blockReset_blkRst] using on,
    by simpa [Placed, straps] using placed, fun _ => ⟨cleared_blockReset cause s, blockReset_pmode cause s⟩⟩

theorem placed_sampleStraps (st : Straps) (s : State) : Placed { s with straps := sampleStraps st } := by
  simp only [Placed, sampleStraps]
  omega

/-- A release samples straps in range and ends block reset. -/
theorem sound_leaveReset (st : Straps) (h : Sound s) (on : s.powered = true) : Sound (leaveReset st s) where
  pending := h.pending
  supplied := ⟨h.supplied.1, fun off => absurd off (by simpa [leaveReset, beginStart, beginStage] using on)⟩
  placed := placed_sampleStraps st s
  reset r := absurd r (by simp [leaveReset, beginStart, beginStage])

/-- The level of the pin, and a release that has yet to take effect, are nothing that block reset clears. -/
theorem sound_pin (h : Sound s) (high released : Option Straps) : Sound { s with rstHigh := high, released := released } :=
  (KeepsReset.update (fun s => { s with rstHigh := high, released := released }) ⟨rfl, rfl, rfl, rfl, rfl, rfl⟩ rfl rfl rfl).sound h

theorem sound_resetReleased (st : Straps) (h : Sound s) : Sound (resetReleased st s) := by
  unfold resetReleased
  dsimp only
  have high : Sound { s with rstHigh := some st } := sound_pin h (some st) s.released
  split
  · exact high
  · split
    · exact sound_leaveReset st high (by simp_all)
    · exact sound_pin h (some st) (some st)

/-- The log entry of a supply fault on a block that is up, and its bits. -/
def supplyLogged (k : Nat) (s : State) : State := errBit 2 (setBit R.PWR_STATUS 5 (elog 0x09 EU.supply k k 0 0 (bump1 R.CNT_PWR_RAIL_FAULT s)))

theorem supplyFault_awake (k : Nat) (awake : s.blkRst = false) :
    supplyFault k s = if k == 13 then powerFall (supplyLogged k s) else blockReset 2 (supplyLogged k s) := by
  simp [supplyFault, awake, supplyLogged]

theorem sameInputs_supplyLogged (k : Nat) (s : State) : SameInputs s (supplyLogged k s) :=
  (sameInputs_rset _ _ s).trans <| (sameInputs_elog _ _ _ _ _ _ _).trans <| (sameInputs_rset _ _ _).trans (sameInputs_rset _ _ _)

theorem sound_supplyFault (k : Nat) (h : Sound s) : Sound (supplyFault k s) := by
  have logged : Sound (if s.blkRst then s else supplyLogged k s) := by
    split
    · exact h
    · rename_i awake
      have same := sameInputs_supplyLogged k s
      exact h.sameInputs same fun reset => absurd (same.blkRst ▸ reset) awake
  unfold supplyFault
  dsimp only
  split
  · exact sound_powerFall logged.pending logged.placed logged.supplied.2 logged.reset
  · exact sound_blockReset 2 logged.pending logged.placed logged.supplied.1

theorem sound_vinRemoval (h : Sound s) : Sound (forgetFar { powerFall s with vin := false, pwrGood := false, hbmReleased := 0, selfRefresh := 0 }) := by
  have fallen := sound_powerFall h.pending h.placed h.supplied.2 h.reset
  exact ⟨fallen.pending, ⟨fun on => absurd on (by simp [forgetFar, powerFall_off]), fallen.supplied.2⟩, fallen.placed, fun r =>
    ⟨(fallen.reset r).1.update (f := fun t => forgetFar { t with vin := false, pwrGood := false, hbmReleased := 0, selfRefresh := 0 }) rfl
      fun _ mem => .inl mem, (fallen.reset r).2⟩⟩

/-- Power-good rises on a block without power, which is in block reset. -/
theorem sound_pwrGoodRise (h : Sound s) (low : s.pwrGood = false) (vin : s.vin = true) : Sound
    { s with pwrGood := true, powered := true, blkRst := true, released := s.rstHigh, aon := 0, energy := 0, elog := [], regs := [], temps := [] } := by
  have off : s.powered = false := Bool.eq_false_iff.2 fun on => by simpa [low] using (h.supplied.1 on).2
  obtain ⟨cleared, mode⟩ := h.reset (h.supplied.2 off)
  refine ⟨h.pending, ⟨fun _ => ⟨vin, rfl⟩, fun off => absurd off (by simp)⟩, h.placed, fun _ => ⟨⟨fun x mem => (nomatch mem), ?_⟩, mode⟩⟩
  exact congrArg (fun s => { s with pwrGood := true, powered := true, blkRst := true, released := s.rstHigh, aon := 0, energy := 0, elog := [], regs := [], temps := [] } : State → State) cleared.rest

theorem sound_exec (c : Instr) (h : Sound s) (next : exec c s = .next t) : Sound t := by
  cases fixed : changesSupplies c with
  | false =>
    obtain ⟨f, eq⟩ | ⟨f, eq, keeps⟩ := exec_cases c s fixed <;> rw [eq] at next
    · exact sound_act h next
    · exact sound_actAlways h.pending (keeps.sound h) next
  | true =>
    cases c <;> try contradiction
    all_goals simp only [exec, execPwrGoodFall, execPwrGoodRise, execBlkRstAssert, execBlkRstRelease, execRailFault, execVinRise, execVinRemoval] at next
    case railFault k =>
      split at next
      · exact sound_act h next
      · refine sound_actAlways h.pending ?_ next
        split
        · exact sound_supplyFault k h
        · exact h
    case pwrGoodFall =>
      refine sound_actAlways h.pending (sound_powerFall (s := { s with pwrGood := false }) h.pending h.placed h.supplied.2 fun r => ?_) next
      exact ⟨(h.reset r).1.update (f := fun s => { s with pwrGood := false }) rfl fun _ mem => .inl mem, (h.reset r).2⟩
    case pwrGoodRise =>
      refine sound_actAlways h.pending ?_ next
      split
      · exact h
      · rename_i guard
        obtain ⟨low, vin⟩ : s.pwrGood = false ∧ s.vin = true := by simpa using guard
        exact sound_pwrGoodRise h low vin
    case blkRstAssert =>
      refine sound_actAlways h.pending ?_ next
      split
      · exact sound_blockReset 1 h.pending h.placed h.supplied.1
      · exact sound_pin h none none
    case blkRstRelease st => exact sound_actAlways h.pending (sound_resetReleased st h) next
    case vinRise =>
      refine sound_actAlways h.pending ?_ next
      split
      · exact h
      · rename_i low
        have off : s.powered = false := Bool.eq_false_iff.2 fun on => low (h.supplied.1 on).1
        refine ⟨h.pending, ⟨fun on => absurd on (by simp [off]), h.supplied.2⟩, h.placed, fun r => ⟨?_, (h.reset r).2⟩⟩
        exact (h.reset r).1.update (f := fun s => { s with vin := true, hbmReleased := 0, selfRefresh := 0 }) rfl fun _ mem => .inl mem
    case vinRemoval =>
      refine sound_actAlways h.pending ?_ next
      split
      · exact sound_vinRemoval h
      · exact h

/-! ### The tick -/

/-- Time passes, and a release whose time has come takes effect. -/
theorem sound_heldRelease (h : Sound s) : Sound (heldRelease s) := by
  unfold heldRelease
  split
  · split
    · exact sound_leaveReset _ h (by simp_all [islandLive])
    · exact h
  · exact h

/-- Time as a tick passes it, with a release that has come due. -/
def passTime (s : State) : State := heldRelease (if s.powered then { s with aon := s.aon + 40 } else s)

theorem idleTick_eq (s : State) : idleTick s = if (passTime s).up then
    holdInputs (passTime s) (modeStep (migPump (pumpLinks (idleFlits (tickCounters (cptAck (hostAck (rampVolts (passTime s))))))))) else passTime s := rfl

theorem sound_passTime (h : Sound s) : Sound (passTime s) := by
  refine sound_heldRelease ?_
  split
  · exact (KeepsReset.update (fun s => { s with aon := s.aon + 40 }) ⟨rfl, rfl, rfl, rfl, rfl, rfl⟩ rfl rfl rfl).sound h
  · exact h

theorem sound_idleTick (h : Sound s) : Sound (idleTick s) := by
  have passed := sound_passTime h
  rw [idleTick_eq]
  split
  · rename_i up
    have awake := (up_iff.1 up).2.1
    exact passed.sameInputs (sameInputs_holdInputs _ _) fun r => absurd r (by simp [awake])
  · exact passed

/-- Settles O7: what is sound stays sound under every command and under the tick. -/
theorem everyStepKeepsSound : Obligations.EveryStepKeepsSound := by
  intro s t h next
  unfold step at next
  split at next
  · cases next
    exact sound_idleTick h
  · rename_i c rest queue
    have rest_ : Sound { s with pending := rest } :=
      ⟨fun x mem => h.pending x (queue ▸ List.mem_cons_of_mem c mem), h.supplied, h.placed, fun r =>
        ⟨(h.reset r).1.update (f := fun s => { s with pending := rest }) rfl fun _ mem => .inl mem, (h.reset r).2⟩⟩
    exact sound_exec c rest_ next

/-! ### What the inputs answer -/

/-- An input on a block that is not up raises no EVENT. -/
theorem actAlways_down (f : State → State) (down : s.up = false) : actAlways s f = .next { f s with pending := s.pending } := by
  simp [actAlways, raiseEvent, down]

/-- Nor does one that leaves the block not up. -/
theorem actAlways_to_down (f : State → State) (down : (f s).up = false) : actAlways s f = .next { f s with pending := s.pending } := by
  rw [actAlways, raiseEvent_down s _ down]

/-- Settles O1. -/
theorem stepRunsFrontCommand : Obligations.StepRunsFrontCommand := by
  intro c rest s queue
  have front : step s = exec c { s with pending := rest } := by rw [step, queue]
  exact ⟨front, front⟩

theorem passTime_unreleased (none_ : s.released = none) : passTime s = if s.powered then { s with aon := s.aon + 40 } else s := by
  unfold passTime heldRelease
  cases s.powered <;> simp [none_]

theorem passTime_awake (on : s.powered = true) (awake : s.blkRst = false) : passTime s = { s with aon := s.aon + 40 } := by
  unfold passTime heldRelease
  simp only [on, if_true]
  split <;> simp [awake]

theorem passTime_released {st : Straps} (on : s.powered = true) (down : s.blkRst = true) (held : s.released = some st) :
    passTime s = if 1000000 ≤ s.aon + 40 then leaveReset st { s with aon := s.aon + 40 } else { s with aon := s.aon + 40 } := by
  unfold passTime heldRelease
  simp [on, held, down, islandLive]

theorem step_empty (empty : s.pending = []) : step s = .next (idleTick s) := by rw [step, empty]

theorem idleTick_down (down : (passTime s).up = false) : idleTick s = passTime s := by simp [idleTick_eq, down]

/-- Settles O2. -/
theorem emptyQueueLetsTimePass : Obligations.EmptyQueueLetsTimePass := by
  intro s empty
  rw [step_empty empty]
  refine ⟨fun down none_ => ?_, fun up => ?_, fun st on down held => ⟨fun early => ?_, fun late => ?_⟩⟩
  · have same := passTime_unreleased none_
    rw [idleTick_down, same]
    rw [same]
    split
    · exact down
    · exact down
  · obtain ⟨on, awake, -⟩ := up_iff.1 up
    have up' : ({ s with aon := s.aon + 40 } : State).up = true := up
    rw [idleTick_eq, passTime_awake on awake, if_pos up']
    rfl
  · have same := passTime_released on down held
    rw [if_neg (by omega)] at same
    rw [idleTick_down, same]
    rw [same]
    exact up_false_of_reset down
  · have same := passTime_released on down held
    rw [if_pos late] at same
    refine ⟨_, rfl, ?_⟩
    rw [idleTick_eq, same]
    split
    · exact ⟨rfl, rfl⟩
    · exact ⟨rfl, rfl⟩

/-- Settles O6: the state after reset is what block reset leaves. -/
theorem resetStateSound : Obligations.ResetStateSound :=
  ⟨⟨fun _ mem => (nomatch mem), by unfold Supplied; decide, by unfold Placed; decide, fun _ => ⟨⟨fun _ mem => (nomatch mem), rfl⟩, rfl⟩⟩, wf_reset⟩

/-! ### The error log's count -/

theorem mfind_filter {α : Type} {k : Nat} {v : α} {p : Nat × α → Bool} (kept : p (k, v) = true) :
    ∀ {m : List (Nat × α)}, mfind k m = some v → mfind k (m.filter p) = some v
  | [], found => found
  | (j, w) :: m, found => by
    rcases Nat.lt_trichotomy j k with before | here | behind
    · rw [mfind, if_pos before] at found
      have ih := mfind_filter kept found
      rw [List.filter_cons]
      split
      · rwa [mfind, if_pos before]
      · exact ih
    · subst here
      rw [mfind, if_neg (Nat.lt_irrefl j), if_pos rfl] at found
      cases found
      simp [kept, mfind]
    · rw [mfind, if_neg (by omega), if_neg (by omega)] at found
      cases found

/-- A written register of the island reads the same after reset. -/
theorem mfind_resetState_regs {off : Nat} {w : Word} (island : off ∈ islandRegs) (written : mfind off s.regs = some w) :
    mfind off (resetState s).regs = some w :=
  mfind_filter (by simpa using island) written

theorem rget_of_mfind {off : Nat} {w : Word} (found : mfind off s.regs = some w) : rget s off = w := by simp [rget, found]

theorem mfind_rset_other {off o : Nat} (w : Word) (other : o ≠ off) : mfind o (rset off w s).regs = mfind o s.regs := by
  simp [mfind_mput_other w other]

theorem mfind_elog_count (cls unit index detail w1 w2 : Nat) (s : State) :
    mfind R.MG_ELOG_COUNT (elog cls unit index detail w1 w2 s).regs = some (word ((rget s R.MG_ELOG_COUNT).toNat + 1)) := by
  unfold elog
  dsimp only
  split
  · rw [setBit, mfind_rset_other _ (by decide), rset_regs, mfind_mput_self]
  · rw [rset_regs, mfind_mput_self]

theorem mfind_warnCheck_other {off : Nat} (other : off ≠ R.MG_PIN_STATUS) (s : State) : mfind off (warnCheck s).regs = mfind off s.regs := by
  obtain e | ⟨w, e⟩ := warnCheck_cases s <;> rw [e]
  exact mfind_rset_other w other

theorem mfind_toReset {off : Nat} {w : Word} (island : off ∈ islandRegs) (pin : off ≠ R.MG_PIN_STATUS) (written : mfind off s.regs = some w) :
    mfind off (toReset s).regs = some w := by
  have trip : off ≠ R.NM_TEMP := fun e => absurd (e ▸ island) (by decide)
  unfold toReset
  dsimp only
  rw [mfind_warnCheck_other pin]
  split
  · rw [fset, mfind_rset_other _ trip]
    exact mfind_resetState_regs island written
  · exact mfind_resetState_regs island written

theorem blockReset_elog_count (cause : Nat) (s : State) : rget (blockReset cause s) R.MG_ELOG_COUNT = word ((rget s R.MG_ELOG_COUNT).toNat + 1) :=
  rget_of_mfind (mfind_toReset (by decide) (by decide) (mfind_elog_count _ _ _ _ _ _ s))

/-- A state in block reset with nothing of the block's work left, and all of what outlives it. -/
structure ResetFrom (s t : State) : Prop where
  blkRst : t.blkRst = true
  pmode : t.pmode = 0
  cleared : Cleared t
  lasts : lasting t = lasting s

theorem ResetFrom.outlives (h : ResetFrom s t) : Outlives s t := outlives_iff.2 h.lasts

theorem ResetFrom.of_lasting {u : State} (h : ResetFrom u t) (same : lasting u = lasting s) : ResetFrom s t :=
  ⟨h.blkRst, h.pmode, h.cleared, h.lasts.trans same⟩

theorem resetFrom_blockReset (cause : Nat) (s : State) : ResetFrom s (blockReset cause s) :=
  ⟨rfl, blockReset_pmode cause s, cleared_blockReset cause s, lasting_blockReset cause s⟩

theorem resetFrom_powerFall (on : s.powered = true) (awake : s.blkRst = false) : ResetFrom s (powerFall s) := by
  obtain ⟨blkRst, mode, cleared⟩ := powerFall_powered_after on fun r => absurd r (by simp [awake])
  exact ⟨blkRst, mode, cleared, lasting_powerFall s⟩

/-- An input that resets the block leaves what its effect leaves, with the queue of before. -/
theorem actAlways_resetFrom {f : State → State} (h : ResetFrom s (f s)) :
    actAlways s f = .next { f s with pending := s.pending } ∧ ResetFrom s { f s with pending := s.pending } :=
  ⟨actAlways_to_down f (up_false_of_reset h.blkRst),
    h.blkRst, h.pmode, h.cleared.update (f := fun t => { t with pending := s.pending }) rfl fun _ mem => .inl mem, h.lasts⟩

theorem resetFrom_supplyFault (k : Nat) (on : s.powered = true) (awake : s.blkRst = false) : ResetFrom s (supplyFault k s) := by
  have same := sameInputs_supplyLogged k s
  have logged : lasting (supplyLogged k s) = lasting s := elog_keeps lasting (fun _ _ _ => rfl) (fun _ _ => rfl) _ _ _ _ _ _ _
  rw [supplyFault_awake k awake]
  split
  · exact (resetFrom_powerFall (same.powered.trans on) (same.blkRst.trans awake)).of_lasting logged
  · exact (resetFrom_blockReset 2 (supplyLogged k s)).of_lasting logged

theorem supplyFault_powered (k : Nat) (on : s.powered = true) (awake : s.blkRst = false) : (supplyFault k s).powered = !(k == 13) := by
  have same := sameInputs_supplyLogged k s
  rw [supplyFault_awake k awake]
  split
  · rename_i vaon
    simp only [vaon, Bool.not_true]
    exact powerFall_off _
  · rename_i other
    have kept := supplyInputs_blockReset 2 (supplyLogged k s)
    simp only [supplyInputs, Prod.mk.injEq] at kept
    simp [other, kept, same.powered, on]

theorem exec_railFault_supply {k : Nat} (supply : 8 ≤ k) (known : k < 14) (up : s.up = true) : exec (.railFault k) s = actAlways s (supplyFault k) := by
  show execRailFault k s = _
  unfold execRailFault
  rw [if_neg (by omega)]
  simp [actAlways, known, up]

theorem exec_blkRstAssert_awake (on : s.powered = true) (awake : s.blkRst = false) :
    exec .blkRstAssert s = actAlways s fun s => blockReset 1 { s with rstHigh := none } := by
  simp [exec, execBlkRstAssert, actAlways, on, awake]

/-- Settles O9: each cause runs block reset or a shutdown, which clear the block and keep what outlives it. -/
theorem blockResetLeavesOnlyWhatOutlivesIt : Obligations.BlockResetLeavesOnlyWhatOutlivesIt := by
  intro s
  refine ⟨fun on awake => ?_, fun k supply known up => ?_, fun up => ?_, fun on awake => ?_⟩
  · obtain ⟨eq, r⟩ := actAlways_resetFrom (s := s) (f := fun s => blockReset 1 { s with rstHigh := none }) ((resetFrom_blockReset 1 { s with rstHigh := none }).of_lasting rfl)
    have kept := supplyInputs_blockReset 1 { s with rstHigh := none }
    simp only [supplyInputs, Prod.mk.injEq] at kept
    refine ⟨_, (exec_blkRstAssert_awake on awake).trans eq, r.blkRst, kept.2.2.2.1.trans on, r.pmode, r.cleared, r.outlives, ?_⟩
    show (rget (blockReset 1 { s with rstHigh := none }) R.MG_ELOG_COUNT).toNat = _
    rw [blockReset_elog_count]
    exact BitVec.toNat_ofNat _ _
  · obtain ⟨on, awake, -⟩ := up_iff.1 up
    obtain ⟨eq, r⟩ := actAlways_resetFrom (resetFrom_supplyFault k on awake)
    refine ⟨_, (exec_railFault_supply supply (by omega) up).trans eq, r.blkRst, ?_, r.pmode, r.cleared, r.outlives⟩
    exact (supplyFault_powered k on awake).trans (by simp; omega)
  · obtain ⟨on, awake, -⟩ := up_iff.1 up
    obtain ⟨eq, r⟩ := actAlways_resetFrom (resetFrom_supplyFault 13 on awake)
    exact ⟨_, (exec_railFault_supply (by decide) (by decide) up).trans eq, r.blkRst, supplyFault_powered 13 on awake, r.pmode, r.cleared, r.outlives⟩
  · have fall : ResetFrom s (powerFall { s with pwrGood := false }) := (resetFrom_powerFall (s := { s with pwrGood := false }) on awake).of_lasting rfl
    obtain ⟨eq, r⟩ := actAlways_resetFrom (s := s) (f := fun s => powerFall { s with pwrGood := false }) fall
    have pins := pinInputs_powerFall { s with pwrGood := false }
    simp only [pinInputs, Prod.mk.injEq] at pins
    exact ⟨_, eq, r.blkRst, powerFall_off _, pins.2.2.1, r.pmode, r.cleared, r.outlives⟩

/-! ### Supplies and release -/

theorem interrupt_vinRise (v : Bool) (a b : Nat) (s : State) : interrupt { s with vin := v, hbmReleased := a, selfRefresh := b } = interrupt s := rfl

theorem raiseEvent_same (h : interrupt t = interrupt s) : raiseEvent s t = t := by
  refine raiseEvent_none s t ?_
  cases i : interrupt s
  · exact .inr (.inr (h.trans i))
  · exact .inr (.inl rfl)

theorem rget_leaveReset (st : Straps) (s : State) {o : Nat} (other : o ≠ R.SRV_REPORTk_Ww 1 0) : rget (leaveReset st s) o = rget s o :=
  rget_rset_other _ _ other

/-- Settles O10. -/
theorem suppliesAndResetRelease : Obligations.SuppliesAndResetRelease := by
  intro s
  refine ⟨fun low vin => ?_, fun st on down early => ?_, fun st off => ?_, fun idle => ?_, fun st on down late => ?_, fun absent => ?_, fun vin => ?_⟩
  · have eq : exec .pwrGoodRise s = actAlways s fun s => { s with
        pwrGood := true, powered := true, blkRst := true, released := s.rstHigh, aon := 0, energy := 0, elog := [], regs := [], temps := [] } := by
      simp [exec, execPwrGoodRise, actAlways, low, vin]
    exact eq.trans (actAlways_to_down _ (up_false_of_reset rfl))
  · have eq : exec (.blkRstRelease st) s = actAlways s (resetReleased st) := rfl
    rw [eq, actAlways_down _ (up_false_of_reset down)]
    simp [resetReleased, on, down, islandLive, show ¬ 1000000 ≤ s.aon by omega]
  · have eq : exec (.blkRstRelease st) s = actAlways s (resetReleased st) := rfl
    rw [eq, actAlways_down _ (by simp [State.up, off])]
    simp [resetReleased, off]
  · have down : s.up = false := by rcases idle with h | h <;> simp [State.up, h]
    have asleep : (s.powered && !s.blkRst) = false := by rcases idle with h | h <;> simp [h]
    have eq : exec .blkRstAssert s = actAlways s fun s => { s with rstHigh := none, released := none } := by
      simp [exec, execBlkRstAssert, actAlways, asleep]
    rw [eq, actAlways_down _ down]
  · have eq : exec (.blkRstRelease st) s = actAlways s (resetReleased st) := rfl
    have live : resetReleased st s = leaveReset st { s with rstHigh := some st } := by
      simp [resetReleased, on, down, islandLive, late]
    refine ⟨_, eq.trans (actAlways_down _ (up_false_of_reset down)), ?_⟩
    rw [live]
    exact ⟨rfl, rfl, rfl, rfl, rfl, rfl, rfl, rfl, fun o other => rget_leaveReset st _ other⟩
  · have eq : exec .vinRise s = actAlways s fun s => { s with vin := true, hbmReleased := 0, selfRefresh := 0 } := by
      simp [exec, execVinRise, actAlways, absent]
    rw [eq, actAlways, raiseEvent_same (interrupt_vinRise true 0 0 s)]
  · have eq : exec .vinRemoval s = actAlways s fun s => forgetFar { powerFall s with vin := false, pwrGood := false, hbmReleased := 0, selfRefresh := 0 } := by
      simp [exec, execVinRemoval, actAlways, vin]
    have lasts := lasting_powerFall s
    simp only [lasting, Prod.mk.injEq] at lasts
    refine ⟨_, eq, ?_⟩
    simp [forgetFar, powerFall_off, lasts]

end Sys2Proof.Machine
end

section
/-! Fields of words and registers (00 R9, R10): what a field, a bit and a counter read after a write to the same and to another place. -/

namespace Sys2Proof.Machine

variable {s : State}

/-! ### Words -/

/-- A word with a field replaced: its bits of the field are those of the value, the others stay. -/
theorem testBit_wset (w : Word) {lo n : Nat} (v : Nat) (fits : lo + n ≤ 64) (i : Nat) :
    (wset w lo n v).toNat.testBit i = if lo ≤ i ∧ i < lo + n then v.testBit (i - lo) else w.toNat.testBit i := by
  have split_ : w.toNat = 2 ^ lo * (2 ^ n * (w.toNat / 2 ^ lo / 2 ^ n) + w.toNat / 2 ^ lo % 2 ^ n) + w.toNat % 2 ^ lo := by
    rw [Nat.div_add_mod, Nat.div_add_mod]
  have sum : w.toNat - (bits w.toNat lo n) <<< lo + (v % 2 ^ n) <<< lo
      = 2 ^ lo * (2 ^ n * (w.toNat / 2 ^ lo / 2 ^ n) + v % 2 ^ n) + w.toNat % 2 ^ lo := by
    rw [bits, Nat.shiftRight_eq_div_pow, Nat.shiftLeft_eq, Nat.shiftLeft_eq, Nat.mul_comm _ (2 ^ lo), Nat.mul_comm _ (2 ^ lo)]
    rw [Nat.mul_add] at split_ ⊢
    omega
  have low : ∀ {m : Nat}, m % 2 ^ lo < 2 ^ lo := Nat.mod_lt _ (Nat.two_pow_pos lo)
  have mid : ∀ {m : Nat}, m % 2 ^ n < 2 ^ n := Nat.mod_lt _ (Nat.two_pow_pos n)
  rw [wset, sum, BitVec.toNat_ofNat, Nat.testBit_mod_two_pow, Nat.testBit_two_pow_mul_add _ low, Nat.testBit_two_pow_mul_add _ mid]
  by_cases below : i < lo
  · rw [if_pos below, if_neg (by omega), Nat.testBit_mod_two_pow]
    simp [below, show i < 64 by omega]
  · rw [if_neg below]
    by_cases inside : i - lo < n
    · rw [if_pos inside, if_pos (by omega), Nat.testBit_mod_two_pow]
      simp [inside, show i < 64 by omega]
    · rw [if_neg inside, if_neg (by omega), Nat.testBit_div_two_pow, Nat.testBit_div_two_pow, show i - lo - n + n + lo = i by omega]
      by_cases wide : i < 64
      · simp [wide]
      · have zero : w.toNat.testBit i = false :=
          Nat.testBit_lt_two_pow (Nat.lt_of_lt_of_le w.isLt (Nat.pow_le_pow_right (by decide) (by omega)))
        simp [zero]

theorem testBit_bits (v lo n i : Nat) : (bits v lo n).testBit i = (decide (i < n) && v.testBit (lo + i)) := by
  rw [bits, Nat.testBit_mod_two_pow, Nat.testBit_shiftRight]

/-- A field reads as it was written. -/
theorem wbits_wset_same (w : Word) {lo n : Nat} (v : Nat) (fits : lo + n ≤ 64) : wbits (wset w lo n v) lo n = v % 2 ^ n := by
  refine Nat.eq_of_testBit_eq fun i => ?_
  rw [wbits, testBit_bits, testBit_wset w v fits, Nat.testBit_mod_two_pow]
  by_cases inside : i < n
  · simp [inside]
  · simp [inside]

/-- A field that does not meet the one written stays. -/
theorem wbits_wset_other (w : Word) {lo n lo' n' : Nat} (v : Nat) (fits : lo + n ≤ 64) (apart : lo' + n' ≤ lo ∨ lo + n ≤ lo') :
    wbits (wset w lo n v) lo' n' = wbits w lo' n' := by
  refine Nat.eq_of_testBit_eq fun i => ?_
  rw [wbits, wbits, testBit_bits, testBit_bits, testBit_wset w v fits]
  by_cases inside : i < n'
  · rw [if_neg (by omega)]
  · simp [inside]

theorem wbit_wset_other (w : Word) {lo n i : Nat} (v : Nat) (fits : lo + n ≤ 64) (apart : i < lo ∨ lo + n ≤ i) :
    wbit (wset w lo n v) i = wbit w i := by
  rw [wbit, wbit, wbits_wset_other w v fits (by omega)]

/-- A bit that is written as one is one, and a set bit stays so under a write of another one. -/
theorem wbit_wset_keeps (w : Word) {i j : Nat} (fits : j < 64) (set : wbit w i = true) : wbit (wset w j 1 1) i = true := by
  by_cases same : i = j
  · subst same
    exact wbit_wset_one w fits
  · rw [wbit_wset_other w 1 (by omega) (by omega), set]

@[simp] theorem toNat_word (v : Nat) : (word v).toNat = v % 2 ^ 64 := BitVec.toNat_ofNat v 64

@[simp] theorem word_toNat (w : Word) : word w.toNat = w := BitVec.ofNat_toNat 64 w |>.trans (BitVec.setWidth_eq w)

theorem wbits_lt (w : Word) (lo n : Nat) : wbits w lo n < 2 ^ n := Nat.mod_lt _ (Nat.two_pow_pos n)

theorem bits_le (v lo n : Nat) : bits v lo n ≤ v := (Nat.mod_le _ _).trans (Nat.shiftRight_le _ _)

/-! ### Registers -/

theorem fget_fset_same (off : Nat) (f : Fld) (v : Nat) (s : State) (fits : f.lo + f.n ≤ 64) : fget (fset off f v s) off f = v % 2 ^ f.n := by
  rw [fget, fset, rget_rset_self, wbits_wset_same _ _ fits]

theorem fget_fset_other (off : Nat) (f g : Fld) (v : Nat) (s : State) (fits : f.lo + f.n ≤ 64) (apart : g.lo + g.n ≤ f.lo ∨ f.lo + f.n ≤ g.lo) :
    fget (fset off f v s) off g = fget s off g := by
  rw [fget, fset, rget_rset_self, wbits_wset_other _ _ fits apart, fget]

theorem rget_fset_other {off o : Nat} (f : Fld) (v : Nat) (s : State) (other : o ≠ off) : rget (fset off f v s) o = rget s o :=
  rget_rset_other _ _ other

theorem fget_rset_other {off o : Nat} (w : Word) (f : Fld) (s : State) (other : o ≠ off) : fget (rset off w s) o f = fget s o f := by
  rw [fget, rget_rset_other w s other, fget]

theorem fget_of_rget_eq {t : State} {o : Nat} (same : rget t o = rget s o) (f : Fld) : fget t o f = fget s o f := by rw [fget, fget, same]

/-- A counter rises, stopping at 2^64 - 1 (17 R440). -/
theorem rget_bump (off n : Nat) (s : State) : rget (bump off n s) off = word (min (2 ^ 64 - 1) ((rget s off).toNat + n)) := by
  rw [bump, rget_rset_self, sat, Nat.min_comm]

theorem rget_bump_other {off o : Nat} (n : Nat) (s : State) (other : o ≠ off) : rget (bump off n s) o = rget s o := rget_rset_other _ _ other

theorem wbit_setBit_self (off : Nat) {i : Nat} (s : State) (fits : i < 64) : wbit (rget (setBit off i s) off) i = true := by
  rw [setBit, rget_rset_self, wbit_wset_one _ fits]

theorem wbit_setBitFor_self (off : Nat) {i mlo k : Nat} (s : State) (fits : i < 64) (fits' : mlo + k < 64) :
    wbit (rget (setBitFor off i mlo k s) off) i = true := by
  rw [setBitFor, rget_rset_self]
  exact wbit_wset_keeps _ fits' (wbit_wset_one _ fits)

/-! ### Masks -/

theorem maskBit_eq_testBit (m i : Nat) : maskBit m i = m.testBit i := by
  rw [Bool.eq_iff_iff]
  simp [maskBit, bits, Nat.testBit_eq_decide_div_mod_eq, Nat.shiftRight_eq_div_pow]

@[simp] theorem maskBit_maskSet_self (m i : Nat) : maskBit (maskSet m i) i = true := by
  simp [maskBit_eq_testBit, maskSet, Nat.testBit_or, Nat.testBit_shiftLeft]

/-! ### Changes in turn -/

theorem each_cons {α : Type} (f : α → State → State) (x : α) (l : List α) (s : State) : each (x :: l) f s = each l f (f x s) := rfl

@[simp] theorem each_nil {α : Type} (f : α → State → State) (s : State) : each [] f s = s := rfl

/-- An event is counted in the programmable counters alone (17 R442). -/
theorem pmc_keeps {β : Type} (g : State → β) (ofRset : ∀ off w s, g (rset off w s) = g s) (ev : Nat) (part port job : Option Nat) (n : Nat) (s : State) :
    g (pmc ev part port job n s) = g s :=
  each_keeps g (fun i s => by
    split
    · exact ofRset _ _ _
    · rfl) _ s

theorem rget_pmc_other {o : Nat} (other : ∀ i, o ≠ R.CNT_PMCi i) (ev : Nat) (part port job : Option Nat) (n : Nat) (s : State) :
    rget (pmc ev part port job n s) o = rget s o :=
  each_keeps (fun s => rget s o) (fun i s => by
    split
    · exact rget_bump_other n s (other i)
    · rfl) _ s

/-! ### What a command leaves of its effect -/

theorem raiseEvent_cases (s t : State) : ∃ q o, raiseEvent s t = { t with sendQ := q, ostreams := o } := by
  unfold raiseEvent
  split
  · unfold queueEvent
    dsimp only
    split
    · exact ⟨_, _, rfl⟩
    · exact ⟨t.sendQ, _, rfl⟩
  · exact ⟨t.sendQ, t.ostreams, rfl⟩

/-- What a command leaves is its effect, but for the packets of an EVENT, the queue and the inputs. -/
theorem outcome_keeps {β : Type} (g : State → β) {t : State} (ofFrame : ∀ q o, g { t with
    sendQ := q, ostreams := o, pending := s.pending, vin := s.vin, pwrGood := s.pwrGood, powered := s.powered, blkRst := s.blkRst, straps := s.straps } = g t) :
    g (outcome s t) = g t := by
  obtain ⟨q, o, e⟩ := raiseEvent_cases s t
  rw [outcome, e]
  exact ofFrame q o

@[simp] theorem outcome_regs (s t : State) : (outcome s t).regs = t.regs := outcome_keeps State.regs fun _ _ => rfl
@[simp] theorem outcome_far (s t : State) : (outcome s t).far = t.far := outcome_keeps State.far fun _ _ => rfl
@[simp] theorem outcome_ops (s t : State) : (outcome s t).ops = t.ops := outcome_keeps State.ops fun _ _ => rfl
@[simp] theorem rget_outcome (s t : State) (o : Nat) : rget (outcome s t) o = rget t o := by rw [rget, outcome_regs, rget]

end Sys2Proof.Machine
end

section
/-! The voltage loops (13 R350 to R352): what one run of a partition's thermal loop does, the loops of a period, and the power loop with its limiter. -/

namespace Sys2Proof.Machine

variable {s t : State}

/-! ### The thermal loop -/

/-- Whether a partition's sensors ask for a lower voltage: a DRAM reading at 95 °C or a base-die reading at 105 °C (13 R351). -/
def Hot (s : State) (p : Nat) (tb : Int) : Prop := 95 ≤ dramMax s p ∨ 105 ≤ tb

/-- The target that one run of the loop leaves a partition. -/
def thermTarget (s : State) (p : Nat) (tb : Int) : Nat :=
  if 95 ≤ dramMax s p ∨ 105 ≤ tb then max 550 (s.therm.getD p 0 - 10)
  else if dramMax s p ≤ 92 ∧ tb ≤ 102 then min (vsetMv s p) (s.therm.getD p 0 + 10)
  else s.therm.getD p 0

/-- What the loops look at and leave alone. -/
def thermalInputs (s : State) := (s.temps, s.pos, s.far, s.ops, s.pwrCeil)

/-- A run for partition p: its target is the next one, the other targets and the other registers stay, a set bit of PWR_STATUS stays set, a lowering sets THERMAL, and the floor sets FLOOR. -/
structure ThermalRun (s : State) (p : Nat) (tb : Int) (t : State) : Prop where
  therm : t.therm = s.therm.set p (thermTarget s p tb)
  inputs : thermalInputs t = thermalInputs s
  regs : ∀ o, o ≠ R.PWR_STATUS → rget t o = rget s o
  sticky : ∀ i, wbit (rget s R.PWR_STATUS) i = true → wbit (rget t R.PWR_STATUS) i = true
  lowered : Hot s p tb → thermTarget s p tb < s.therm.getD p 0 → wbit (rget t R.PWR_STATUS) 0 = true
  floor : Hot s p tb → thermTarget s p tb = 550 → wbit (rget t R.PWR_STATUS) 3 = true

/-- An event of PWR_STATUS sets its bit, and leaves set bits and other registers as they are. -/
theorem pwrEvent_sticky {bit p i : Nat} (s : State) (fits : bit < 64) (fits' : 6 + p < 64) (set : wbit (rget s R.PWR_STATUS) i = true) :
    wbit (rget (pwrEvent bit p s) R.PWR_STATUS) i = true := by
  rw [pwrEvent, setBitFor, rget_rset_self]
  exact wbit_wset_keeps _ fits' (wbit_wset_keeps _ fits set)

theorem pwrEvent_sets {bit p : Nat} (s : State) (fits : bit < 64) (fits' : 6 + p < 64) : wbit (rget (pwrEvent bit p s) R.PWR_STATUS) bit = true :=
  wbit_setBitFor_self _ s fits fits'

theorem rget_pwrEvent_other {bit p o : Nat} (s : State) (other : o ≠ R.PWR_STATUS) : rget (pwrEvent bit p s) o = rget s o := rget_rset_other _ _ other

theorem thermalRun_thermalOne {p : Nat} (tb : Int) (small : p < 4) (four : s.therm.length = 4) : ThermalRun s p tb (thermalOne p tb s) := by
  have default_ : s.therm.getD p 750 = s.therm.getD p 0 := by simp [List.getD_eq_getElem?_getD, List.getElem?_eq_getElem (show p < s.therm.length by omega)]
  have fits : 6 + p < 64 := by omega
  unfold thermalOne
  simp only [default_, beq_iff_eq, Bool.or_eq_true, Bool.and_eq_true, decide_eq_true_eq]
  by_cases hot : 95 ≤ dramMax s p ∨ 105 ≤ tb
  · have target : thermTarget s p tb = max 550 (s.therm.getD p 0 - 10) := if_pos hot
    rw [if_pos hot, ← target]
    by_cases lower : thermTarget s p tb < s.therm.getD p 0
    · rw [if_pos lower]
      by_cases floor : thermTarget s p tb = 550
      · rw [if_pos floor]
        exact ⟨rfl, rfl, fun o other => (rget_pwrEvent_other _ other).trans (rget_pwrEvent_other _ other),
          fun i set => pwrEvent_sticky _ (by decide) fits (pwrEvent_sticky _ (by decide) fits set),
          fun _ _ => pwrEvent_sticky _ (by decide) fits (pwrEvent_sets _ (by decide) fits), fun _ _ => pwrEvent_sets _ (by decide) fits⟩
      · rw [if_neg floor]
        exact ⟨rfl, rfl, fun o other => rget_pwrEvent_other _ other, fun i set => pwrEvent_sticky _ (by decide) fits set,
          fun _ _ => pwrEvent_sets _ (by decide) fits, fun _ f => absurd f floor⟩
    · rw [if_neg lower]
      by_cases floor : thermTarget s p tb = 550
      · rw [if_pos floor]
        exact ⟨rfl, rfl, fun o other => rget_pwrEvent_other _ other, fun i set => pwrEvent_sticky _ (by decide) fits set,
          fun _ l => absurd l lower, fun _ _ => pwrEvent_sets _ (by decide) fits⟩
      · rw [if_neg floor]
        exact ⟨rfl, rfl, fun _ _ => rfl, fun _ set => set, fun _ l => absurd l lower, fun _ f => absurd f floor⟩
  · rw [if_neg hot]
    by_cases cool : dramMax s p ≤ 92 ∧ tb ≤ 102
    · have target : thermTarget s p tb = min (vsetMv s p) (s.therm.getD p 0 + 10) := (if_neg hot).trans (if_pos cool)
      rw [if_pos cool, ← target]
      exact ⟨rfl, rfl, fun _ _ => rfl, fun _ set => set, fun h => absurd h hot, fun h => absurd h hot⟩
    · have target : thermTarget s p tb = s.therm.getD p 0 := (if_neg hot).trans (if_neg cool)
      rw [if_neg cool]
      refine ⟨?_, rfl, fun _ _ => rfl, fun _ set => set, fun h => absurd h hot, fun h => absurd h hot⟩
      rw [target, List.getD_eq_getElem _ _ (by omega), List.set_getElem_self]

/-- What the sensors and VSET give a partition depends on what the loops leave alone. -/
theorem dramMax_of_inputs (same : thermalInputs t = thermalInputs s) (p : Nat) : dramMax t p = dramMax s p := by
  simp only [thermalInputs, Prod.mk.injEq] at same
  simp only [dramMax, dramReadings, sensed, enabled, posOf, coreCount, same.1, same.2.1]

theorem vsetMv_of_regs (same : ∀ o, o ≠ R.PWR_STATUS → rget t o = rget s o) (p : Nat) : vsetMv t p = vsetMv s p := by
  rw [vsetMv, vsetMv, same _ (by decide)]

/-- The loops of the partitions of a list, each run once: every target is the next one of its own partition. -/
structure ThermalRuns (base : Nat → Int) (l : List Nat) (s t : State) : Prop where
  length : t.therm.length = s.therm.length
  target : ∀ q ∈ l, t.therm.getD q 0 = thermTarget s q (base q)
  other : ∀ q, q ∉ l → t.therm.getD q 0 = s.therm.getD q 0
  inputs : thermalInputs t = thermalInputs s
  regs : ∀ o, o ≠ R.PWR_STATUS → rget t o = rget s o
  sticky : ∀ i, wbit (rget s R.PWR_STATUS) i = true → wbit (rget t R.PWR_STATUS) i = true
  lowered : ∀ q ∈ l, Hot s q (base q) → thermTarget s q (base q) < s.therm.getD q 0 → wbit (rget t R.PWR_STATUS) 0 = true
  floor : ∀ q ∈ l, Hot s q (base q) → thermTarget s q (base q) = 550 → wbit (rget t R.PWR_STATUS) 3 = true

theorem thermalRuns_each (base : Nat → Int) (l : List Nat) : ∀ {s : State}, s.therm.length = 4 → l.Nodup → (∀ p ∈ l, p < 4) →
    ThermalRuns base l s (each l (fun p s => thermalOne p (base p) s) s) := by
  induction l with
  | nil =>
    intro s _ _ _
    exact ⟨rfl, fun _ mem => (nomatch mem), fun _ _ => rfl, rfl, fun _ _ => rfl, fun _ set => set, fun _ mem => (nomatch mem), fun _ mem => (nomatch mem)⟩
  | cons p l ih =>
    intro s four once small
    obtain ⟨fresh, once'⟩ := List.nodup_cons.1 once
    have pSmall : p < 4 := small p List.mem_cons_self
    have run := thermalRun_thermalOne (base p) pSmall four
    have four' : (thermalOne p (base p) s).therm.length = 4 := by rw [run.therm, List.length_set, four]
    have rest := ih four' once' fun q mem => small q (List.mem_cons_of_mem p mem)
    have own : (thermalOne p (base p) s).therm.getD p 0 = thermTarget s p (base p) := by
      rw [run.therm, List.getD_eq_getElem?_getD, List.getElem?_set_self (by omega), Option.getD_some]
    have apart : ∀ q, q ≠ p → (thermalOne p (base p) s).therm.getD q 0 = s.therm.getD q 0 := fun q ne => by
      rw [run.therm, List.getD_eq_getElem?_getD, List.getElem?_set_ne (Ne.symm ne), List.getD_eq_getElem?_getD]
    have hotSame : ∀ q, Hot (thermalOne p (base p) s) q (base q) ↔ Hot s q (base q) := fun q => by
      simp only [Hot, dramMax_of_inputs run.inputs q]
    have targetSame : ∀ q ∈ l, thermTarget (thermalOne p (base p) s) q (base q) = thermTarget s q (base q) := fun q mem => by
      have ne : q ≠ p := fun e => fresh (e ▸ mem)
      simp only [thermTarget, dramMax_of_inputs run.inputs q, vsetMv_of_regs run.regs q, apart q ne]
    rw [each_cons]
    constructor
    · rw [rest.length, four', four]
    · intro q mem
      rcases List.mem_cons.1 mem with here | later
      · rw [here, rest.other p fresh, own]
      · rw [rest.target q later, targetSame q later]
    · intro q out
      rw [List.mem_cons, not_or] at out
      rw [rest.other q out.2, apart q out.1]
    · exact rest.inputs.trans run.inputs
    · exact fun o other => (rest.regs o other).trans (run.regs o other)
    · exact fun i set => rest.sticky i (run.sticky i set)
    · intro q mem hot lower
      rcases List.mem_cons.1 mem with here | later
      · subst here
        exact rest.sticky 0 (run.lowered hot lower)
      · exact rest.lowered q later ((hotSame q).2 hot) (by rwa [targetSame q later, apart q fun e => fresh (e ▸ later)])
    · intro q mem hot bottom
      rcases List.mem_cons.1 mem with here | later
      · subst here
        exact rest.sticky 3 (run.floor hot bottom)
      · exact rest.floor q later ((hotSame q).2 hot) (by rwa [targetSame q later])

/-! ### The readings of the base die -/

theorem filter_mput {α : Type} {p : Nat × α → Bool} {k : Nat} (v : α) (out : ∀ w, p (k, w) = false) :
    ∀ m : List (Nat × α), (mput k v m).filter p = m.filter p
  | [] => by simp [mput, out]
  | (j, w) :: m => by
    unfold mput
    split
    · simp only [List.filter_cons, filter_mput v out m]
    · split
      · rename_i here
        subst here
        simp [out]
      · simp [out]

/-- The base-die readings of a period among the temperatures. -/
def withBase (base : List Int) (s : State) : State :=
  { s with temps := (List.range 4).foldl (fun l p => mput (576 + p) (base.getD p 0) l) s.temps }

/-- The base-die sensors are none of a vault. -/
theorem dramMax_withBase (base : List Int) (s : State) (p : Nat) : dramMax (withBase base s) p = dramMax s p := by
  have skip : ∀ (k : Nat) (v : Int) (P : Nat → Bool) (m : List (Nat × Int)), 576 ≤ k →
      (mput k v m).filter (fun x => decide (x.1 < 576) && P (x.1 / 4) && sensed s (x.1 / 4)) = m.filter (fun x => decide (x.1 < 576) && P (x.1 / 4) && sensed s (x.1 / 4)) :=
    fun k v P m big => filter_mput v (fun w => by simp [Nat.not_lt.2 big]) m
  have fold : (withBase base s).temps = mput 579 (base.getD 3 0) (mput 578 (base.getD 2 0) (mput 577 (base.getD 1 0) (mput 576 (base.getD 0 0) s.temps))) := rfl
  have readings : dramReadings (withBase base s) (fun i => partitionOf i == p) = dramReadings s (fun i => partitionOf i == p) := by
    show List.map _ (List.filter (fun x => decide (x.1 < 576) && (partitionOf (x.1 / 4) == p) && sensed s (x.1 / 4)) (withBase base s).temps) = _
    rw [fold, skip _ _ (fun i => partitionOf i == p) _ (by decide), skip _ _ (fun i => partitionOf i == p) _ (by decide),
      skip _ _ (fun i => partitionOf i == p) _ (by decide), skip _ _ (fun i => partitionOf i == p) _ (by decide)]
    rfl
  rw [dramMax, readings, dramMax]

theorem thermTarget_withBase (base : List Int) (s : State) (p : Nat) (tb : Int) : thermTarget (withBase base s) p tb = thermTarget s p tb := by
  unfold thermTarget
  rw [dramMax_withBase]
  rfl

/-- The loops of the four partitions in one period. -/
def thermalAll (base : List Int) (s : State) : State := each (List.range 4) (fun p s => thermalOne p (base.getD p 0) s) (withBase base s)

theorem thermalLoop_eq (base : List Int) (s : State) : thermalLoop base s =
    if (List.range 4).any fun p => decide ((thermalAll base s).therm.getD p 750 < vsetMv (thermalAll base s) p)
    then bump1 R.CNT_PWR_THERM_US (thermalAll base s) else thermalAll base s := rfl

theorem thermalRuns_all (base : List Int) (four : s.therm.length = 4) :
    ThermalRuns (fun p => base.getD p 0) (List.range 4) (withBase base s) (thermalAll base s) :=
  thermalRuns_each _ _ (s := withBase base s) four List.nodup_range fun _ mem => List.mem_range.1 mem

/-- The period's count changes a register alone. -/
theorem thermalLoop_keeps {β : Type} (g : State → β) (ofRset : ∀ off w s, g (rset off w s) = g s) (base : List Int) (s : State) :
    g (thermalLoop base s) = g (thermalAll base s) := by
  rw [thermalLoop_eq]
  split
  · exact ofRset _ _ _
  · rfl

theorem thermalLoop_status (base : List Int) (s : State) : rget (thermalLoop base s) R.PWR_STATUS = rget (thermalAll base s) R.PWR_STATUS := by
  rw [thermalLoop_eq]
  split
  · exact rget_bump_other 1 _ (by decide)
  · rfl

/-- Whether a target is below its VSET after the loops have run, which is counted. -/
theorem thermalLoop_count (base : List Int) (four : s.therm.length = 4) : rget (thermalLoop base s) R.CNT_PWR_THERM_US =
    (if ∃ p < 4, (thermalAll base s).therm.getD p 0 < vsetMv s p then word (min (2 ^ 64 - 1) ((rget s R.CNT_PWR_THERM_US).toNat + 1))
      else rget s R.CNT_PWR_THERM_US) := by
  have runs := thermalRuns_all base four
  have vset : ∀ p, vsetMv (thermalAll base s) p = vsetMv s p := fun p => vsetMv_of_regs runs.regs p
  have default_ : ∀ p < 4, (thermalAll base s).therm.getD p 750 = (thermalAll base s).therm.getD p 0 := fun p small => by
    have inRange : p < (thermalAll base s).therm.length := by rw [runs.length]; exact four ▸ small
    simp [List.getD_eq_getElem?_getD, List.getElem?_eq_getElem inRange]
  have counts : ((List.range 4).any fun p => decide ((thermalAll base s).therm.getD p 750 < vsetMv (thermalAll base s) p)) = true
      ↔ ∃ p < 4, (thermalAll base s).therm.getD p 0 < vsetMv s p := by
    simp only [List.any_eq_true, List.mem_range, decide_eq_true_eq, vset]
    exact exists_congr fun p => and_congr_right fun small => by rw [default_ p small]
  have before : rget (thermalAll base s) R.CNT_PWR_THERM_US = rget s R.CNT_PWR_THERM_US := runs.regs _ (by decide)
  rw [thermalLoop_eq]
  by_cases low : ∃ p < 4, (thermalAll base s).therm.getD p 0 < vsetMv s p
  · rw [if_pos low, if_pos (counts.2 low), bump1, rget_bump, before]
  · rw [if_neg low, if_neg (fun c => low (counts.1 c)), before]

/-- Settles O12: each partition's loop is run once, on targets and readings that no other one changes. -/
theorem thermalLoopMovesEveryTarget : Obligations.ThermalLoopMovesEveryTarget := by
  intro s base up four
  have runs := thermalRuns_all base four
  have therm : (outcome s (thermalLoop base s)).therm = (thermalAll base s).therm :=
    (outcome_keeps State.therm fun _ _ => rfl).trans (thermalLoop_keeps State.therm (fun _ _ _ => rfl) base s)
  have inputs : thermalInputs (outcome s (thermalLoop base s)) = thermalInputs (thermalAll base s) :=
    (outcome_keeps thermalInputs fun _ _ => rfl).trans (thermalLoop_keeps thermalInputs (fun _ _ _ => rfl) base s)
  have kept := inputs.trans runs.inputs
  simp only [thermalInputs, Prod.mk.injEq] at kept
  refine ⟨_, act_up s (thermalLoop base) up, ?_⟩
  simp only [therm, rget_outcome, thermalLoop_status, thermalLoop_count base four]
  refine ⟨fun p small => ?_, fun p small hot lower => ?_, fun p small hot bottom => ?_, trivial, kept.2.2.1, kept.2.2.2.1, kept.2.2.2.2⟩
  · rw [runs.target p (List.mem_range.2 small), thermTarget_withBase]
    rfl
  · rw [runs.target p (List.mem_range.2 small)] at lower
    exact runs.lowered p (List.mem_range.2 small) (by simpa only [Hot, dramMax_withBase] using hot) lower
  · rw [runs.target p (List.mem_range.2 small)] at bottom
    exact runs.floor p (List.mem_range.2 small) (by simpa only [Hot, dramMax_withBase] using hot) bottom

end Sys2Proof.Machine
end

section
/-! Clocks, sensors and power states (12 R328, R333; 13 R342, R350 to R362; 08 R236, R237): what the commands of the sensors, the loops, NAP and DEEP do on a block that is up, and the sensors in reset. -/

namespace Sys2Proof.Machine

variable {s t : State}

theorem actInput_up (up down : State → State) (h : s.up = true) : actInput s up down = .next (outcome s (up s)) := by
  rw [actInput, if_pos h, act_up s up h]

theorem actInput_down (up down : State → State) (h : s.up = false) : actInput s up down = .next { down s with pending := s.pending } := by
  rw [actInput, if_neg (by simp [h]), actAlways_down down h]

theorem thermalLive_of_up (up : s.up = true) : thermalLive s = true := by simp [thermalLive, up]

/-! ### The power loop -/

/-- What the power loop does to the ceiling. -/
def nextCeil (s : State) (watts : Nat) : Nat :=
  if fget s R.PWR_LIMIT F.PWR_LIMIT_LIMIT < watts then max 550 (s.pwrCeil - 10)
  else if 100 * watts ≤ 95 * fget s R.PWR_LIMIT F.PWR_LIMIT_LIMIT then min 900 (s.pwrCeil + 10) else s.pwrCeil

/-- The measurements of one period of the power loop, as they stand in the registers and the energy counter. -/
def powerMeasured (watts : Nat) (s : State) : State :=
  let (i, s) := freeNat s
  let (v, s) := freeNat s
  let s := fset R.PWR_RAIL F.PWR_RAIL_POWER watts (fset R.PWR_RAIL F.PWR_RAIL_IIN i (fset R.PWR_RAIL F.PWR_RAIL_VIN_MV v s))
  bump R.CNT_PWR_ENERGY_MJ ((s.energy + watts) / 10) { s with energy := (s.energy + watts) % 10 }

/-- The ceiling moves, and a lowering sets POWER. -/
def powerMoved (lim watts : Nat) (s : State) : State :=
  if lim < watts then
    when (decide (max 550 (s.pwrCeil - 10) < s.pwrCeil)) (setBit R.PWR_STATUS 1) { s with pwrCeil := max 550 (s.pwrCeil - 10) }
  else if 100 * watts ≤ 95 * lim then { s with pwrCeil := min 900 (s.pwrCeil + 10) } else s

theorem powerLoop_eq (watts : Nat) (s : State) : powerLoop watts s =
    (fun u => if u.pwrCeil < maxPart (vsetMv u) then bump1 R.CNT_PWR_LIMIT_US u else u)
      (powerMoved (fget s R.PWR_LIMIT F.PWR_LIMIT_LIMIT) watts (powerMeasured watts s)) := rfl

theorem powerMeasured_keeps {β : Type} (g : State → β) (ofRset : ∀ off w s, g (rset off w s) = g s)
    (ofRest : ∀ n e (s : State), g { s with fresh := n, energy := e } = g s) (watts : Nat) (s : State) : g (powerMeasured watts s) = g s := by
  have fresh : g { s with fresh := s.fresh + 1 + 1 } = g s := ofRest _ s.energy s
  refine (ofRset _ _ _).trans <| (ofRest _ _ _).trans <| (ofRset _ _ _).trans <| (ofRset _ _ _).trans <| (ofRset _ _ _).trans fresh

theorem powerMoved_keeps {β : Type} (g : State → β) (ofRset : ∀ off w s, g (rset off w s) = g s) (ofCeil : ∀ c (s : State), g { s with pwrCeil := c } = g s)
    (lim watts : Nat) (s : State) : g (powerMoved lim watts s) = g s := by
  unfold powerMoved
  split
  · unfold Machine.when
    split
    · exact (ofRset _ _ _).trans (ofCeil _ s)
    · exact ofCeil _ s
  · split
    · exact ofCeil _ s
    · rfl

theorem powerLoop_keeps {β : Type} (g : State → β) (ofRset : ∀ off w s, g (rset off w s) = g s) (watts : Nat) (s : State) :
    g (powerLoop watts s) = g (powerMoved (fget s R.PWR_LIMIT F.PWR_LIMIT_LIMIT) watts (powerMeasured watts s)) := by
  rw [powerLoop_eq]
  dsimp only
  split
  · exact ofRset _ _ _
  · rfl

theorem powerMoved_pwrCeil (lim watts : Nat) (s : State) : (powerMoved lim watts s).pwrCeil =
    if lim < watts then max 550 (s.pwrCeil - 10) else if 100 * watts ≤ 95 * lim then min 900 (s.pwrCeil + 10) else s.pwrCeil := by
  unfold powerMoved Machine.when
  split
  · split <;> rfl
  · split <;> rfl

theorem powerLoop_pwrCeil (watts : Nat) (s : State) : (powerLoop watts s).pwrCeil = nextCeil s watts := by
  have measured : (powerMeasured watts s).pwrCeil = s.pwrCeil := powerMeasured_keeps State.pwrCeil (fun _ _ _ => rfl) (fun _ _ _ => rfl) watts s
  rw [powerLoop_keeps State.pwrCeil (fun _ _ _ => rfl), powerMoved_pwrCeil, measured, nextCeil]

theorem powerLoop_status {watts : Nat} (exceeds : fget s R.PWR_LIMIT F.PWR_LIMIT_LIMIT < watts) (lower : nextCeil s watts < s.pwrCeil) :
    wbit (rget (powerLoop watts s) R.PWR_STATUS) 1 = true := by
  have measured : (powerMeasured watts s).pwrCeil = s.pwrCeil := powerMeasured_keeps State.pwrCeil (fun _ _ _ => rfl) (fun _ _ _ => rfl) watts s
  have moved : wbit (rget (powerMoved (fget s R.PWR_LIMIT F.PWR_LIMIT_LIMIT) watts (powerMeasured watts s)) R.PWR_STATUS) 1 = true := by
    rw [nextCeil, if_pos exceeds] at lower
    rw [powerMoved, if_pos exceeds, measured, Machine.when, if_pos (by simpa using lower)]
    exact wbit_setBit_self _ _ (by decide)
  rw [powerLoop_eq]
  dsimp only
  split
  · rw [bump1, rget_bump_other 1 _ (by decide), moved]
  · exact moved

theorem rampVolts_limited {p : Nat} (up : s.up = true) (fast : s.fast = true) (stage : 2 ≤ s.stage) (awake : s.pmode ≠ 1) (small : p < 4)
    (on : s.scopes.contains { partition := true, index := p } = false) : (rampVolts s).volts.getD p 0 = rampTo 20 (s.volts.getD p 0) (10 * vtarget s p) := by
  have ramps : ramping s = true := by simp [ramping, up, stage, awake]
  have on' : { partition := true, index := p } ∉ s.scopes := by simpa using on
  rw [rampVolts, if_neg (by simp [ramps])]
  simp [fast, List.getD_eq_getElem?_getD, List.getElem?_range small, on']

/-- Settles O13. -/
theorem powerLoopAndLimiterMoveTheCeiling : Obligations.PowerLoopAndLimiterMoveTheCeiling := by
  intro s up
  refine ⟨fun watts => ⟨_, act_up s (powerLoop watts) up, ?_⟩, fun amps high => ?_, fun amps low => ?_, fun fast stage awake p small on =>
    rampVolts_limited up fast stage awake small on⟩
  · have ceil : (outcome s (powerLoop watts s)).pwrCeil = nextCeil s watts := (outcome_keeps State.pwrCeil fun _ _ => rfl).trans (powerLoop_pwrCeil watts s)
    have kept : ∀ {β : Type} (g : State → β), (∀ off w s, g (rset off w s) = g s) → (∀ n e (s : State), g { s with fresh := n, energy := e } = g s) →
        (∀ c (s : State), g { s with pwrCeil := c } = g s) → g (powerLoop watts s) = g s := fun g ofRset ofRest ofCeil =>
      (powerLoop_keeps g ofRset watts s).trans ((powerMoved_keeps g ofRset ofCeil _ watts _).trans (powerMeasured_keeps g ofRset ofRest watts s))
    refine ⟨ceil, fun exceeds lower => ?_, ?_, ?_, ?_⟩
    · rw [rget_outcome]
      exact powerLoop_status exceeds (ceil ▸ lower)
    · exact (outcome_keeps State.therm fun _ _ => rfl).trans (kept State.therm (fun _ _ _ => rfl) (fun _ _ _ => rfl) fun _ _ => rfl)
    · exact (outcome_far _ _).trans (kept State.far (fun _ _ _ => rfl) (fun _ _ _ => rfl) fun _ _ => rfl)
    · exact (outcome_ops _ _).trans (kept State.ops (fun _ _ _ => rfl) (fun _ _ _ => rfl) fun _ _ => rfl)
  · refine (act_up s (fastLimit amps) up).trans ?_
    rw [fastLimit, if_neg (by omega)]
  · refine (act_up s (fastLimit amps) up).trans ?_
    rw [fastLimit, if_pos low]

/-! ### NAP -/

/-- The halvings of the contours that fell due change the contours alone. -/
theorem leaveNap_keeps {β : Type} (g : State → β) (ofContours : ∀ c (s : State), g { s with contours := c } = g s) (s : State) :
    g (leaveNap s) = g { s with pmode := 0, selfRefresh := 0, contourDue := 0 } :=
  each_keeps g (fun _ s => ofContours _ s) _ _

theorem wake_nap (nap : s.pmode = 1) : wake s = leaveNap s := by simp [wake, nap]

theorem wake_entering (entering : s.pmode = 4) : wake s = abandoned (leaveNap s) := by simp [wake, entering]

theorem wake_running (running : s.pmode = 0) : wake s = s := by simp [wake, running]

/-- A tolerance below the exit latency of NAP wakes the block, and stays as written. -/
theorem writeLatency_wakes {w : Word} (nap : s.pmode = 1 ∨ s.pmode = 4) (short : w.toNat % 2 ^ 32 < 50) :
    (writeLatency w s).pmode = 0 ∧ rget (writeLatency w s) R.PWR_LATENCY = word (w.toNat % 2 ^ 32) := by
  have value : wbits w 0 32 = w.toNat % 2 ^ 32 := by simp [wbits, bits]
  have tolerance : tol (rset R.PWR_LATENCY (word (wbits w 0 32)) s) = w.toNat % 2 ^ 32 := by
    rw [tol, fget, rget_rset_self, value]
    simp only [wbits, bits, toNat_word, Nat.shiftRight_zero]
    omega
  have wakes : writeLatency w s = wake (rset R.PWR_LATENCY (word (wbits w 0 32)) s) := by
    rw [writeLatency, if_pos]
    rw [tolerance]
    rcases nap with nap | nap <;> simpa [nap] using short
  rw [wakes, ← value]
  have regs : ∀ u : State, (leaveNap u).regs = u.regs := fun u => leaveNap_keeps State.regs (fun _ _ => rfl) u
  rcases nap with nap | nap
  · rw [wake_nap (s := rset _ _ s) nap]
    exact ⟨leaveNap_keeps State.pmode (fun _ _ => rfl) _, by rw [rget, regs, ← rget, rget_rset_self]⟩
  · rw [wake_entering (s := rset _ _ s) nap]
    refine ⟨(leaveNap_keeps State.pmode (fun _ _ => rfl) _ : (leaveNap _).pmode = 0), ?_⟩
    rw [abandoned, setBit, rget_rset_other _ _ (by decide), bump1, rget_bump_other _ _ (by decide), rget, regs, ← rget, rget_rset_self]

/-- Settles O14. -/
theorem napIsEnteredInStepsAndLeftByWakes : Obligations.NapIsEnteredInStepsAndLeftByWakes := by
  intro s up
  have entry : exec .napEntry s = .next (outcome s (napEntry s)) := act_up s napEntry up
  have leaves : ∀ ev, exec (.napWake ev) s = .next (outcome s (wake s)) := fun ev => act_up s wake up
  have writes : ∀ w, ready s = true → exec (.pwrLatencyWrite w) s = .next (outcome s (writeLatency w s)) := fun w r => by
    refine (act_up s (fun s => if ready s then writeLatency w s else s) up).trans ?_
    rw [if_pos r]
  have decay : exec .contourDecay s = .next (outcome s (if s.pmode == 1 then { s with contourDue := s.contourDue + 1 } else decayContours s)) :=
    act_up s (fun s => if s.pmode == 1 then { s with contourDue := s.contourDue + 1 } else decayContours s) up
  refine ⟨fun may => ?_, fun mayNot => ?_, fun entering due => ?_, fun entering early => ?_, fun ev nap => ?_, fun ev entering => ?_, fun ev running => ?_,
    fun p => ?_, fun nap => ?_, fun w r running => ?_, fun w r nap short => ?_, fun awake => ?_, fun nap => ?_⟩
  · rw [entry, napEntry, if_neg (by simp [may])]
  · rw [entry, napEntry, if_pos (by simp [mayNot])]
  · simp [modeStep, entering, due, napReached, retention]
  · simp [modeStep, entering, Nat.not_le.2 early]
  · refine ⟨_, leaves ev, ?_⟩
    rw [wake_nap nap]
    have kept : ∀ {β : Type} (g : State → β), (∀ c (s : State), g { s with contours := c } = g s) →
        (∀ q o, g { leaveNap s with sendQ := q, ostreams := o, pending := s.pending, vin := s.vin, pwrGood := s.pwrGood, powered := s.powered, blkRst := s.blkRst, straps := s.straps } = g (leaveNap s)) →
        g (outcome s (leaveNap s)) = g { s with pmode := 0, selfRefresh := 0, contourDue := 0 } := fun g ofContours ofFrame =>
      (outcome_keeps g ofFrame).trans (leaveNap_keeps g ofContours s)
    exact ⟨kept State.pmode (fun _ _ => rfl) fun _ _ => rfl, kept State.selfRefresh (fun _ _ => rfl) fun _ _ => rfl, kept State.volts (fun _ _ => rfl) fun _ _ => rfl,
      kept State.contourDue (fun _ _ => rfl) fun _ _ => rfl, kept State.regs (fun _ _ => rfl) fun _ _ => rfl, kept State.far (fun _ _ => rfl) fun _ _ => rfl,
      kept State.ops (fun _ _ => rfl) fun _ _ => rfl⟩
  · rw [leaves ev, wake_entering entering]
    rfl
  · rw [leaves ev, wake_running running]
  · simp [vsram, sramRetention]
  · rcases nap with nap | nap <;> simp [hostInL1, cptInL1, nap]
  · rw [writes w r, writeLatency, if_neg (by simp [running])]
    simp [wbits, bits]
  · obtain ⟨mode, latency⟩ := writeLatency_wakes (w := w) nap short
    refine ⟨_, writes w r, (outcome_keeps State.pmode fun _ _ => rfl).trans mode, ?_⟩
    rw [rget_outcome, latency]
  · rw [decay, if_neg (by simp [awake])]
  · rw [decay, if_pos (by simp [nap])]

/-! ### Clocks, sensors, the trip -/

theorem rget_elog_other {o : Nat} (cls unit index detail w1 w2 : Nat) (s : State) (count : o ≠ R.MG_ELOG_COUNT) (wrap : o ≠ R.MG_FENCE_STATUS) :
    rget (elog cls unit index detail w1 w2 s) o = rget s o := by
  unfold elog
  dsimp only
  split
  · rw [setBit, rget_rset_other _ _ wrap, rget_rset_other _ _ count]
    rfl
  · rw [rget_rset_other _ _ count]
    rfl

theorem rowsLost_keeps {β : Type} (g : State → β) (ofRset : ∀ off w s, g (rset off w s) = g s) (ofLog : ∀ l (s : State), g { s with elog := l } = g s)
    (j : Nat) (keys : List Nat) (s : State) : g (rowsLost j keys s) = g s := by
  unfold rowsLost
  split
  · rfl
  · exact (elog_keeps g ofRset ofLog _ _ _ _ _ _ _).trans <| (ofRset _ _ _).trans (ofRset _ _ _)

/-- The registers that the loss of rows concerns. -/
def lossRegs : List Nat := [R.MG_ELOG_COUNT, R.MG_FENCE_STATUS, R.CMD_UPD_STATUS, R.CNT_UPD_LOST]

theorem rget_rowsLost_other {o : Nat} (other : o ∉ lossRegs) (j : Nat) (keys : List Nat) (s : State) : rget (rowsLost j keys s) o = rget s o := by
  simp only [lossRegs, List.mem_cons, List.not_mem_nil, or_false, not_or] at other
  obtain ⟨count, wrap, status, lost⟩ := other
  unfold rowsLost
  split
  · rfl
  · rw [rget_elog_other _ _ _ _ _ _ _ count wrap, jobBit, setBitFor, rget_rset_other _ _ status, rget_bump_other _ _ lost]

/-- An HBM port that fails: the state before the rows it takes are counted lost. -/
def portFailed (k detail : Nat) (s : State) : State :=
  errBit 1 (elog 0x08 EU.hbm k detail 0 0 (fset (R.HBM_Pk_STATUS k) F.HBM_Pk_STATUS_TRAINED 0 (setRepair (144 + k) 1 { s with hbmDown := maskSet s.hbmDown k })))

theorem hbmPortFailed_eq {k : Nat} (detail : Nat) (known : k < 8) (good : hbmFailed s k = false) : hbmPortFailed k detail s =
    each (List.range 16) (fun j u => rowsLost j (((stackLoses s k).filter fun x => x.1 == j).map fun x => x.2.1 * 2 ^ 40 + x.2.2) u) (portFailed k detail s) := by
  rw [hbmPortFailed, if_neg (by simp [good, known])]
  rfl

/-- A port that has failed, whatever rows it takes. -/
theorem hbmPortFailed_frame {k : Nat} (detail : Nat) (known : k < 8) (good : hbmFailed s k = false) :
    hbmFailed (hbmPortFailed k detail s) k = true ∧ fbit (hbmPortFailed k detail s) (R.HBM_Pk_STATUS k) F.HBM_Pk_STATUS_TRAINED = false
      ∧ wbit (rget (hbmPortFailed k detail s) R.MG_ERR_STATUS) 1 = true ∧ (hbmPortFailed k detail s).far = s.far := by
  have statusOther : R.HBM_Pk_STATUS k ∉ lossRegs := by
    simp only [lossRegs, R.HBM_Pk_STATUS, R.MG_ELOG_COUNT, R.MG_FENCE_STATUS, R.CMD_UPD_STATUS, R.CNT_UPD_LOST, List.mem_cons, List.not_mem_nil, or_false]
    omega
  have lossKeeps : ∀ {β : Type} (g : State → β), (∀ off w s, g (rset off w s) = g s) → (∀ l (s : State), g { s with elog := l } = g s) →
      g (hbmPortFailed k detail s) = g (portFailed k detail s) := fun g ofRset ofLog => by
    rw [hbmPortFailed_eq detail known good]
    exact each_keeps g (fun j u => rowsLost_keeps g ofRset ofLog j _ u) _ _
  have lossRegsKept : ∀ o, o ∉ lossRegs → rget (hbmPortFailed k detail s) o = rget (portFailed k detail s) o := fun o other => by
    rw [hbmPortFailed_eq detail known good]
    exact each_keeps (fun u => rget u o) (fun j u => rget_rowsLost_other other j _ u) _ _
  have failedKeeps : ∀ {β : Type} (g : State → β), (∀ off w s, g (rset off w s) = g s) → (∀ l (s : State), g { s with elog := l } = g s) →
      g (portFailed k detail s) = g (setRepair (144 + k) 1 { s with hbmDown := maskSet s.hbmDown k }) := fun g ofRset ofLog =>
    (ofRset _ _ _).trans <| (elog_keeps g ofRset ofLog _ _ _ _ _ _ _).trans (ofRset _ _ _)
  refine ⟨?_, ?_, ?_, ?_⟩
  · have down : (hbmPortFailed k detail s).hbmDown = maskSet s.hbmDown k :=
      (lossKeeps State.hbmDown (fun _ _ _ => rfl) fun _ _ => rfl).trans (failedKeeps State.hbmDown (fun _ _ _ => rfl) fun _ _ => rfl)
    rw [hbmFailed, down, maskBit_maskSet_self]
  · have statusErr : R.HBM_Pk_STATUS k ≠ R.MG_ERR_STATUS := by simp only [R.HBM_Pk_STATUS, R.MG_ERR_STATUS]; omega
    have statusLog : R.HBM_Pk_STATUS k ≠ R.MG_ELOG_COUNT ∧ R.HBM_Pk_STATUS k ≠ R.MG_FENCE_STATUS := by
      simp only [R.HBM_Pk_STATUS, R.MG_ELOG_COUNT, R.MG_FENCE_STATUS]
      omega
    have trained := fget_of_rget_eq (lossRegsKept _ statusOther) F.HBM_Pk_STATUS_TRAINED
    rw [fbit, trained, portFailed, errBit, setBit, fget_rset_other _ _ _ statusErr,
      fget_of_rget_eq (rget_elog_other _ _ _ _ _ _ _ statusLog.1 statusLog.2), fget_fset_same _ _ _ _ (by decide)]
    rfl
  · rw [lossRegsKept _ (by decide)]
    exact wbit_setBit_self _ _ (by decide)
  · exact (lossKeeps State.far (fun _ _ _ => rfl) fun _ _ => rfl).trans (failedKeeps State.far (fun _ _ _ => rfl) fun _ _ => rfl)

theorem anyTrip_of_temps (same : t.temps = s.temps) : anyTrip t = anyTrip s ∧ tripOver t = tripOver s := by
  simp only [anyTrip, tripOver, vaultReadings, same, and_self]

/-- TRIP as a reading on a block in reset leaves it. -/
theorem tripInReset_tripped (live : thermalLive s = true) : (anyTrip s = true → tripped (tripInReset s) = true)
    ∧ (tripOver s = true → tripped (tripInReset s) = false) ∧ (anyTrip s = false → tripOver s = false → tripped (tripInReset s) = tripped s) := by
  have trips : ∀ v u, fget (fset R.NM_TEMP F.NM_TEMP_TRIP v u) R.NM_TEMP F.NM_TEMP_TRIP = v % 2 ^ 1 := fun v u => fget_fset_same _ _ _ _ (by decide)
  have apart : tripOver s = true → anyTrip s = false := fun cool => by
    simp only [tripOver, List.all_eq_true, decide_eq_true_eq] at cool
    simp only [anyTrip, List.any_eq_false, decide_eq_true_eq]
    intro x mem
    have := cool x mem
    omega
  unfold tripInReset
  rw [if_neg (by simp [live])]
  refine ⟨fun hot => ?_, fun cool => ?_, fun notHot notCool => ?_⟩
  · rw [if_pos hot, tripped, fbit, trips]
    rfl
  · rw [if_neg (by simp [apart cool]), if_pos (by simpa [tripOver] using cool), tripped, fbit, trips]
    rfl
  · rw [if_neg (by simp [notHot]), if_neg (by simpa [tripOver] using notCool)]

theorem thermalTrip_eq (untripped : tripped s = false) (hot : anyTrip s = true) : thermalTrip s =
    errBit 0 (elog 0x0E EU.block 0 (maxInt (vaultReadings s)).toNat 0 0 (setBit R.NM_STATUS 3 (bump1 R.CNT_THERMAL_TRIP (fset R.NM_TEMP F.NM_TEMP_TRIP 1 s)))) := by
  rw [thermalTrip, if_neg (by simp [untripped, hot])]
  rfl

/-- The pace words of a period, of 16 bits each. -/
theorem paceWord (a b c d : Nat) (ha : a ≤ 65535) (hb : b ≤ 65535) (hc : c ≤ 65535) (hd : d ≤ 65535) {p : Nat} (small : p < 4) :
    wbits (word (fld 0 16 a + fld 16 16 b + fld 32 16 c + fld 48 16 d)) (16 * p) 16 = [a, b, c, d].getD p 0 := by
  simp only [wbits, bits, fld, toNat_word, Nat.shiftLeft_eq, Nat.shiftRight_eq_div_pow]
  match p, small with
  | 0, _ => simp only [List.getD_cons_zero]; omega
  | 1, _ => simp only [List.getD_cons_succ, List.getD_cons_zero]; omega
  | 2, _ => simp only [List.getD_cons_succ, List.getD_cons_zero]; omega
  | 3, _ => simp only [List.getD_cons_succ, List.getD_cons_zero]; omega

theorem paceMeter_awake (counts : List Nat) (awake : s.pmode ≠ 1) : paceMeter counts s = each (List.range 4) (fun p s => pmc PMC.pace (some p) none none (counts.getD p 0) s)
    (rset R.PWR_PACE (word ((List.range 4).foldl (fun a p => a + fld (16 * p) 16 (sat 16 (counts.getD p 0 / 10))) 0)) s) := by
  rw [paceMeter, if_neg (by simp [awake])]

/-- The pace register of a period. -/
theorem paceMeter_rget (counts : List Nat) (awake : s.pmode ≠ 1) {p : Nat} (small : p < 4) :
    wbits (rget (paceMeter counts s) R.PWR_PACE) (16 * p) 16 = min (counts.getD p 0 / 10) 65535 := by
  have counted : rget (paceMeter counts s) R.PWR_PACE =
      word (fld 0 16 (sat 16 (counts.getD 0 0 / 10)) + fld 16 16 (sat 16 (counts.getD 1 0 / 10)) + fld 32 16 (sat 16 (counts.getD 2 0 / 10))
        + fld 48 16 (sat 16 (counts.getD 3 0 / 10))) := by
    have far_ : ∀ i, R.PWR_PACE ≠ R.CNT_PMCi i := fun i => by simp only [R.PWR_PACE, R.CNT_PMCi]; omega
    rw [paceMeter_awake counts awake, each_keeps (fun u => rget u R.PWR_PACE) (fun p u => rget_pmc_other far_ _ _ _ _ _ u), rget_rset_self]
    simp [List.range_succ]
  have bound : ∀ v, sat 16 v ≤ 65535 := fun v => Nat.min_le_right _ _
  rw [counted, paceWord _ _ _ _ (bound _) (bound _) (bound _) (bound _) small]
  match p, small with
  | 0, _ => rfl
  | 1, _ => rfl
  | 2, _ => rfl
  | 3, _ => rfl

theorem paceMeter_keeps {β : Type} (g : State → β) (ofRset : ∀ off w s, g (rset off w s) = g s) (counts : List Nat) (awake : s.pmode ≠ 1) :
    g (paceMeter counts s) = g s := by
  rw [paceMeter_awake counts awake]
  exact (each_keeps g (fun p u => pmc_keeps g ofRset _ _ _ _ _ u) _ _).trans (ofRset _ _ _)

/-! ### The statements -/

theorem exec_railFault_partition {k : Nat} (small : k < 8) (up : s.up = true) : exec (.railFault k) s = .next (outcome s (railFault k s)) := by
  have eq : exec (.railFault k) s = act s (railFault k) := if_pos small
  rw [eq, act_up s (railFault k) up]

/-- A reading of a sensor on a block in reset whose outputs are live. -/
theorem temperatureInReset_live (n : Nat) (c : Int) (live : thermalLive s = true) :
    temperatureInReset n c s = tripInReset (warnCheck { s with temps := mput n c s.temps }) := by
  rw [temperatureInReset, temperature, if_neg (by simp [live])]

/-- Settles O11. -/
theorem clocksSensorsTripsAndSupplies : Obligations.ClocksSensorsTripsAndSupplies := by
  refine ⟨fun s up => ⟨fun c known good => ?_, fun c known ne bad => ?_, fun bad => ?_, fun n c => ?_, fun k crc known good => ?_⟩,
    fun s n c down live notDeep => ?_, fun s up => ⟨fun untripped hot => ?_, fun trip cool => ?_, fun counts awake => ?_, fun k small => ?_⟩⟩
  · refine (actInput_up (clockLoss c) (clockGone c) up).trans ?_
    rw [clockLoss, if_neg (by simp [good, known])]
  · refine (actInput_up (clockRecover c) (clockBack c) up).trans ?_
    rw [clockRecover, if_neg (by simp [bad, known])]
    simp [ne]
  · refine (actInput_up (clockRecover 1) (clockBack 1) up).trans ?_
    rw [clockRecover, if_neg (by simp [bad])]
    rfl
  · refine (actInput_up (temperature n c) (temperatureInReset n c) up).trans ?_
    rw [temperature, if_neg (by simp [thermalLive_of_up up])]
  · obtain ⟨failed, untrained, shown, far⟩ := hbmPortFailed_frame (if crc then 2 else 1) known good
    refine ⟨_, act_up s (hbmPortFailed k (if crc then 2 else 1)) up, ?_, ?_, ?_, ?_⟩
    · exact (outcome_keeps (fun u => hbmFailed u k) fun _ _ => rfl).trans failed
    · exact (outcome_keeps (fun u => fbit u (R.HBM_Pk_STATUS k) F.HBM_Pk_STATUS_TRAINED) fun _ _ => rfl).trans untrained
    · rw [rget_outcome, shown]
    · rw [outcome_far, far]
  · have sensing : thermalLive s = true := by simp [thermalLive, live, notDeep]
    refine ⟨_, actInput_down (temperature n c) (temperatureInReset n c) down, ?_⟩
    rw [temperatureInReset_live n c sensing]
    let warm : State := warnCheck { s with temps := mput n c s.temps }
    have kept : ∀ {β : Type} (g : State → β), (∀ off w s, g (rset off w s) = g s) → g (tripInReset warm) = g { s with temps := mput n c s.temps } := fun g ofRset =>
      (tripInReset_keeps g ofRset warm).trans (warnCheck_keeps g ofRset _)
    have before : tripped warm = tripped s := by
      rw [tripped, fbit, fget, rget, mfind_warnCheck_other (by decide)]
      rfl
    have temps : (tripInReset warm).temps = warm.temps := tripInReset_keeps State.temps (fun _ _ _ => rfl) warm
    obtain ⟨sameTrip, sameOver⟩ := anyTrip_of_temps temps
    have warmLive : thermalLive warm = true := by
      rw [← sensing]
      exact warnCheck_keeps thermalLive (fun _ _ _ => rfl) _
    obtain ⟨hot, cool, between⟩ := tripInReset_tripped warmLive
    refine ⟨kept State.temps fun _ _ _ => rfl, fun h => hot (sameTrip ▸ h), fun h => cool (sameOver ▸ h), fun h h' => ?_, kept State.far fun _ _ _ => rfl,
      kept State.aon fun _ _ _ => rfl⟩
    exact (between (sameTrip ▸ h) (sameOver ▸ h')).trans before
  · refine ⟨_, actInput_up thermalTrip tripInReset up, ?_⟩
    have trip : fbit (thermalTrip s) R.NM_TEMP F.NM_TEMP_TRIP = true := by
      rw [thermalTrip_eq untripped hot, errBit, setBit, fbit, fget_rset_other _ _ _ (by decide), fget_of_rget_eq (rget_elog_other _ _ _ _ _ _ _ (by decide) (by decide)),
        setBit, fget_rset_other _ _ _ (by decide), bump1, bump, fget_rset_other _ _ _ (by decide), fget_fset_same _ _ _ _ (by decide)]
      rfl
    have shown : wbit (rget (thermalTrip s) R.NM_STATUS) 3 = true := by
      rw [thermalTrip_eq untripped hot, errBit, setBit, rget_rset_other _ _ (by decide), rget_elog_other _ _ _ _ _ _ _ (by decide) (by decide)]
      exact wbit_setBit_self _ _ (by decide)
    have summed : wbit (rget (thermalTrip s) R.MG_ERR_STATUS) 0 = true := by
      rw [thermalTrip_eq untripped hot]
      exact wbit_setBit_self _ _ (by decide)
    have kept : ∀ {β : Type} (g : State → β), (∀ off w s, g (rset off w s) = g s) → (∀ l (s : State), g { s with elog := l } = g s) → g (thermalTrip s) = g s :=
      fun g ofRset ofLog => by
        rw [thermalTrip_eq untripped hot]
        exact (ofRset _ _ _).trans <| (elog_keeps g ofRset ofLog _ _ _ _ _ _ _).trans <| (ofRset _ _ _).trans <| (ofRset _ _ _).trans (ofRset _ _ _)
    refine ⟨(outcome_keeps tripped fun _ _ => rfl).trans trip, ?_, ?_, ?_, ?_⟩
    · rw [rget_outcome, shown]
    · rw [rget_outcome, summed]
    · rw [outcome_ops, kept State.ops (fun _ _ _ => rfl) fun _ _ => rfl]
    · rw [outcome_far, kept State.far (fun _ _ _ => rfl) fun _ _ => rfl]
  · refine (actInput_up thermalTripExit tripInReset up).trans ?_
    rw [thermalTripExit, if_pos (by simp [trip, cool])]
  · refine ⟨_, act_up s (paceMeter counts) up, fun p small => ?_, ?_, ?_⟩
    · rw [rget_outcome, paceMeter_rget counts awake small]
    · rw [outcome_ops, paceMeter_keeps State.ops (fun _ _ _ => rfl) counts awake]
    · rw [outcome_far, paceMeter_keeps State.far (fun _ _ _ => rfl) counts awake]
  · exact exec_railFault_partition small up

/-! ### The island in DEEP -/

theorem mfind_filter_rising {α : Type} {k : Nat} {p : Nat × α → Bool} :
    ∀ {lo : Nat} {m : List (Nat × α)}, risingFrom lo m = true → mfind k m = none → mfind k (m.filter p) = none
  | _, [], _, _ => rfl
  | lo, (j, w) :: m, rising, absent => by
    simp only [risingFrom, Bool.and_eq_true, decide_eq_true_eq] at rising
    have tail : mfind k m = none := by
      rcases Nat.lt_trichotomy j k with before | here | behind
      · rwa [mfind, if_pos before] at absent
      · rw [mfind, if_neg (by omega), if_pos here] at absent
        cases absent
      · exact mfind_rising (show k < j + 1 by omega) rising.2
    have ih := mfind_filter_rising (p := p) rising.2 tail
    rw [List.filter_cons]
    split
    · rw [mfind] at absent ⊢
      split
      · exact ih
      · split
        · rename_i before here
          rw [if_neg before, if_pos here] at absent
          exact absent
        · rfl
    · exact ih

/-- Where the registers are in their canonical form, a register of the island, but the pins', outlives the loss of the rest. -/
theorem rget_toReset_of_rising {o : Nat} (rising : risingFrom 0 s.regs = true) (island : o ∈ islandRegs) (pin : o ≠ R.MG_PIN_STATUS) :
    rget (toReset s) o = rget s o := by
  cases found : mfind o s.regs with
  | some w => rw [rget_of_mfind found, rget_of_mfind (mfind_toReset island pin found)]
  | none =>
    have trip : o ≠ R.NM_TEMP := fun e => absurd (e ▸ island) (by decide)
    have gone : mfind o (toReset s).regs = none := by
      unfold toReset
      dsimp only
      rw [mfind_warnCheck_other pin]
      split
      · rw [fset, mfind_rset_other _ trip]
        exact mfind_filter_rising rising found
      · exact mfind_filter_rising rising found
    rw [rget, rget, gone, found]

/-- The last step of an entry into DEEP, where the registers are in their canonical form: what the island holds stays. -/
theorem modeStep_deep_of_rising (rising : risingFrom 0 s.regs = true) (entering : s.pmode = 5) (due : s.modeAt ≤ s.aon) :
    rget (modeStep s) R.PWR_WAKE_EN = rget s R.PWR_WAKE_EN := by
  have step_ : modeStep s = deepReached s := by simp [modeStep, entering, due]
  rw [step_]
  exact (rget_toReset_of_rising (s := bump1 R.PWR_DEEP_COUNT s) (risingFrom_mput _ (Nat.zero_le _) rising) (by decide) (by decide)).trans
    (rget_bump_other _ _ (by decide))

/-- A block at the last step of an entry into DEEP whose register list is not in ascending order: WAKE_EN stands behind a higher offset, where no read finds it. -/
def unorderedDeep : State := { State.reset with pmode := 5, regs := [(R.PWR_WAKE_EN + 1, 0), (R.PWR_WAKE_EN, 1)] }

/-- Refutes O15: its sixth clause claims of every state that PWR_WAKE_EN stays. In a state whose registers are not in ascending order, the loss of a register outside the island uncovers an entry of WAKE_EN that no read found before. In canonical form the register stays (modeStep_deep_of_rising). -/
theorem not_deepLosesAllButIslandAndFarMemory : ¬ Obligations.DeepLosesAllButIslandAndFarMemory := by
  intro h
  obtain ⟨-, -, -, -, -, last, -⟩ := h unorderedDeep
  obtain ⟨-, -, -, -, -, -, kept⟩ := last rfl (by decide)
  exact absurd kept (by decide)

end Sys2Proof.Machine
end

section
/-! Messages of the compute port (03 R57 to R61, R67, R77, R78): a message that is next in its stream, what a breach leaves, and the credit and data that are taken. -/

namespace Sys2Proof.Machine

variable {s t : State}

/-! ### Queues -/

theorem queue_updQueue_self (q : Nat) (f : Queue → Queue) (s : State) (known : q < s.queues.length) : queue (updQueue q f s) q = f (queue s q) := by
  simp [queue, List.getD_eq_getElem?_getD, List.getElem?_modify_eq, List.getElem?_eq_getElem known]

theorem queue_updQueue_other {q j : Nat} (f : Queue → Queue) (s : State) (other : j ≠ q) : queue (updQueue q f s) j = queue s j := by
  simp [queue, List.getD_eq_getElem?_getD, Ne.symm other]

/-- Two changes of a queue are one. -/
theorem updQueue_updQueue (q : Nat) (f g : Queue → Queue) (s : State) : updQueue q f (updQueue q g s) = updQueue q (fun x => f (g x)) s := by
  unfold updQueue
  dsimp only
  rw [List.modify_modify_eq]
  rfl

/-- A queue that is not in the list reads as one that is disabled. -/
theorem queue_known {q : Nat} (enabled : (queue s q).state ≠ 0) : q < s.queues.length := by
  by_contra out
  refine enabled ?_
  rw [queue, List.getD_eq_default _ _ (by omega)]

theorem queue_of_queues (same : t.queues = s.queues) (q : Nat) : queue t q = queue s q := by rw [queue, queue, same]

theorem queues_received (w0 : Word) (s : State) : (received w0 s).queues = s.queues := pmc_keeps State.queues (fun _ _ _ => rfl) _ _ _ _ _ s

theorem queue_received (w0 : Word) (s : State) (q : Nat) : queue (received w0 s) q = queue s q := queue_of_queues (queues_received w0 s) q

/-! ### What the block sends -/

/-- Sending on the compute port changes what is sent and its counts alone. -/
theorem cptOut_keeps {β : Type} (g : State → β) (ofRset : ∀ off w s, g (rset off w s) = g s)
    (ofSent : ∀ a b c (s : State), g { s with out := a, cptSent := b, cptHeld := c } = g s) (o : Out) (s : State) : g (cptOut o s) = g s := by
  unfold cptOut
  split
  · exact (pmc_keeps g ofRset _ _ _ _ _ _).trans (ofSent _ _ s.cptHeld s)
  · exact ofSent s.out s.cptSent _ s

/-- A numbered message counts itself in its queue, or is discarded. -/
theorem cptSend_keeps {β : Type} (g : State → β) (ofRset : ∀ off w s, g (rset off w s) = g s)
    (ofSent : ∀ a b c (s : State), g { s with out := a, cptSent := b, cptHeld := c } = g s)
    (ofCount : ∀ n (s : State), g (updQueue q (fun x => { x with txNext := n }) s) = g s) (typ : Nat) (last : Bool) (seq off : Nat) (body : List Word) (s : State) :
    g (cptSend typ q last seq off body s) = g s := by
  unfold cptSend
  split
  · exact ofRset _ _ _
  · exact (cptOut_keeps g ofRset ofSent _ _).trans (ofCount _ s)

theorem sendNotice_keeps {β : Type} {q : Nat} (g : State → β) (ofRset : ∀ off w s, g (rset off w s) = g s)
    (ofSent : ∀ a b c (s : State), g { s with out := a, cptSent := b, cptHeld := c } = g s)
    (ofCount : ∀ n (s : State), g (updQueue q (fun x => { x with txNext := n }) s) = g s) (kind : Nat) (s : State) : g (sendNotice q kind s) = g s :=
  cptSend_keeps g ofRset ofSent ofCount _ _ _ _ _ s

theorem sendCredit_keeps {β : Type} (g : State → β) (ofRset : ∀ off w s, g (rset off w s) = g s)
    (ofSent : ∀ a b c (s : State), g { s with out := a, cptSent := b, cptHeld := c } = g s) (q : Nat) (s : State) : g (sendCredit q s) = g s := by
  unfold sendCredit
  dsimp only
  split
  · rfl
  · exact cptOut_keeps g ofRset ofSent _ s

/-- The registers that sending leaves alone: all but the counters of discarded messages and the programmable ones. -/
theorem rget_cptOut_other {o : Nat} (other : ∀ i, o ≠ R.CNT_PMCi i) (m : Out) (s : State) : rget (cptOut m s) o = rget s o := by
  unfold cptOut
  split
  · rw [rget_pmc_other other]
    rfl
  · rfl

theorem rget_sendNotice_other {o : Nat} (other : ∀ i, o ≠ R.CNT_PMCi i) (discard : o ≠ R.CNT_CPT_MSG_DISCARD) (q kind : Nat) (s : State) :
    rget (sendNotice q kind s) o = rget s o := by
  unfold sendNotice cptSend
  dsimp only
  split
  · exact rget_bump_other _ _ discard
  · rw [rget_cptOut_other other]
    rfl

theorem rget_sendCredit_other {o : Nat} (other : ∀ i, o ≠ R.CNT_PMCi i) (q : Nat) (s : State) : rget (sendCredit q s) o = rget s o := by
  unfold sendCredit
  dsimp only
  split
  · rfl
  · exact rget_cptOut_other other _ s

/-! ### A breach -/

theorem vlog_keeps {β : Type} (g : State → β) (ofRset : ∀ off w s, g (rset off w s) = g s) (ofLog : ∀ l (s : State), g { s with vlog := l } = g s)
    (kind source q seq w1 w2 : Nat) (s : State) : g (vlog kind source q seq w1 w2 s) = g s := by
  unfold vlog
  dsimp only
  split
  · exact (ofRset _ _ _).trans <| (ofRset _ _ _).trans (ofLog _ s)
  · exact (ofRset _ _ _).trans (ofLog _ s)

theorem rget_vlog_count (kind source q seq w1 w2 : Nat) (s : State) :
    rget (vlog kind source q seq w1 w2 s) R.MG_VLOG_COUNT = word ((rget s R.MG_VLOG_COUNT).toNat + 1) := by
  unfold vlog
  dsimp only
  split
  · rw [setBit, rget_rset_other _ _ (by decide), rget_rset_self]
  · rw [rget_rset_self]

/-- A breach leaves what leaves out its queue, its log entry and its notice. -/
theorem msgBreach_keeps {β : Type} {q : Nat} (g : State → β) (ofRset : ∀ off w s, g (rset off w s) = g s)
    (ofSent : ∀ a b c (s : State), g { s with out := a, cptSent := b, cptHeld := c } = g s) (ofLog : ∀ l (s : State), g { s with vlog := l } = g s)
    (ofCount : ∀ n (s : State), g (updQueue q (fun x => { x with txNext := n }) s) = g s) (ofStop : ∀ s, g (stopQueue q s) = g s) (seq kind : Nat) (s : State) :
    g (msgBreach q seq kind s) = g s :=
  (sendNotice_keeps g ofRset ofSent ofCount _ _).trans <| (ofRset _ _ _).trans <| (ofStop _).trans (vlog_keeps g ofRset ofLog _ _ _ _ _ _ s)

/-- A queue with its count of sent messages left out. -/
def unsent (x : Queue) : Queue := { x with txNext := 0 }

theorem unsent_sendNotice (q kind j : Nat) (s : State) : unsent (queue (sendNotice q kind s) j) = unsent (queue s j) :=
  sendNotice_keeps (fun s => unsent (queue s j)) (fun _ _ _ => rfl) (fun _ _ _ _ => rfl) (fun n s => by
    by_cases same : j = q
    · subst same
      by_cases known : j < s.queues.length
      · rw [queue_updQueue_self j _ s known]
        rfl
      · have out : ∀ u : State, u.queues.length = s.queues.length → queue u j = {} := fun u len => by
          rw [queue, List.getD_eq_default _ _ (by omega)]
        rw [out _ (by simp), out s rfl]
    · rw [queue_updQueue_other _ s same]) kind s

theorem wset_beyond (w : Word) {lo : Nat} (n v : Nat) (out : 64 ≤ lo) : wset w lo n v = w := by
  have none_ : bits w.toNat lo n = 0 := by
    rw [bits, Nat.shiftRight_eq_div_pow, Nat.div_eq_of_lt (Nat.lt_of_lt_of_le w.isLt (Nat.pow_le_pow_right (by decide) out)), Nat.zero_mod]
  refine BitVec.eq_of_toNat_eq ?_
  rw [wset, none_, Nat.zero_shiftLeft, Nat.sub_zero, BitVec.toNat_ofNat, Nat.shiftLeft_eq, ← Nat.sub_add_cancel out, Nat.pow_add, ← Nat.mul_assoc,
    Nat.add_mul_mod_self_right, Nat.mod_eq_of_lt w.isLt]

/-- An event bit shows whatever slot or queue it is for. -/
theorem wbit_setBitFor_shows (off : Nat) {i : Nat} (mlo k : Nat) (s : State) (fits : i < 64) : wbit (rget (setBitFor off i mlo k s) off) i = true := by
  by_cases inWord : mlo + k < 64
  · exact wbit_setBitFor_self off s fits inWord
  · rw [setBitFor, rget_rset_self, wset_beyond _ _ _ (by omega), wbit_wset_one _ fits]

/-! ### A message that is next in its stream -/

/-- Nothing that waits for its place follows a message at an empty line. -/
theorem drainEarly_none {q : Nat} (none_ : (queue s q).early = []) (n : Nat) : drainEarly q n s = s := by
  cases n with
  | zero => rfl
  | succ n => simp [drainEarly, none_, mfind]

theorem queue_updQueue_early (q : Nat) (f : Queue → Queue) (keeps : ∀ x, (f x).early = x.early) (j : Nat) (s : State) :
    (queue (updQueue q f s) j).early = (queue s j).early := by
  by_cases same : j = q
  · subst same
    by_cases known : j < s.queues.length
    · rw [queue_updQueue_self j f s known, keeps]
    · rw [queue, queue, List.getD_eq_default _ _ (by simpa using known), List.getD_eq_default _ _ (by omega)]
  · rw [queue_updQueue_other f s same]

/-- After a breach nothing waits in the queue. -/
theorem early_msgBreach {q : Nat} (seq kind : Nat) (s : State) : (queue (msgBreach q seq kind s) q).early = [] := by
  have stopped : ∀ t : State, (queue (stopQueue q t) q).early = [] := fun t => by
    by_cases known : q < t.queues.length
    · rw [stopQueue, queue_updQueue_self q _ t known]
    · rw [queue, List.getD_eq_default _ _ (by simpa [stopQueue] using known)]
  rw [msgBreach]
  refine (sendNotice_keeps (fun s => (queue s q).early) (fun _ _ _ => rfl) (fun _ _ _ _ => rfl) (fun n s => queue_updQueue_early q (fun x => { x with txNext := n }) (fun _ => rfl) q s) _ _).trans ?_
  exact stopped _

section
variable {w0 w1 : Word} {body : List Word} {q : Nat}

/-- What crosses to a port that carries traffic is taken at once. -/
theorem crossMessage_taken (mode : s.pmode = 0) (carries : (txModule s).isNone = false) :
    crossMessage w0 w1 body s = settle (receiveMsg w0 w1 body s) := by
  simp [crossMessage, wake_running mode, carries]

theorem act_crossMessage (up : s.up = true) (mode : s.pmode = 0) (carries : (txModule s).isNone = false) :
    act s (crossMessage w0 w1 body) = .next (after s (receiveMsg w0 w1 body s)) := by
  rw [act_up _ _ up, crossMessage_taken mode carries]
  rfl

variable (next_ : MessageNext s w0 w1 q)
include next_

theorem MessageNext.known : q < s.queues.length := queue_known (by simp [next_.running])

theorem MessageNext.act_message : act s (crossMessage w0 w1 body) = .next (after s (receiveMsg w0 w1 body s)) :=
  act_crossMessage next_.up next_.mode next_.carries

/-- A numbered message in its place is taken, and nothing follows it but what its own breach leaves waiting. -/
theorem MessageNext.receiveMsg_eq (typ : wbits w0 0 4 ∈ [MT.cmd, MT.data, MT.ctrl]) :
    receiveMsg w0 w1 body s = drainEarly q 1 (takeNumbered q w0 w1 body (received w0 s)) := by
  have numbered : (wbits w0 0 4 == MT.cmd || wbits w0 0 4 == MT.data || wbits w0 0 4 == MT.ctrl) = true := by
    simpa [Bool.or_assoc] using typ
  have inPlace : (wbits w1 32 32 + 2 ^ 32 - (queue s q).rxNext % 2 ^ 32) % 2 ^ 32 = 0 := by
    rw [next_.place]
    omega
  unfold receiveMsg
  simp only [next_.port, numbered, next_.number]
  rw [show pmc PMC.cptRx none (txModule s) none (wbits w0 8 7) s = received w0 s from rfl, queue_received, next_.running]
  simp only [receiveNumbered, queue_received, inPlace, next_.early]
  simp

/-- One that leaves nothing waiting in its queue is all that happens. -/
theorem MessageNext.receiveMsg_taken (typ : wbits w0 0 4 ∈ [MT.cmd, MT.data, MT.ctrl]) (taken : takeNumbered q w0 w1 body (received w0 s) = t)
    (early : (queue t q).early = []) : receiveMsg w0 w1 body s = t := by
  rw [next_.receiveMsg_eq typ, taken, drainEarly_none early]

/-- The same with the message counted first, where its LEN is in range. -/
theorem MessageNext.counted_early : (queue (updQueue q (fun x => { x with rxNext := x.rxNext + 1 }) (received w0 s)) q).early = [] := by
  refine (queue_updQueue_early q _ ?_ q _).trans ((congrArg Queue.early (queue_received w0 s q)).trans next_.early)
  exact fun _ => rfl

theorem MessageNext.queue_counted : queue (updQueue q (fun x => { x with rxNext := x.rxNext + 1 }) (received w0 s)) q
    = { queue s q with rxNext := (queue s q).rxNext + 1 } := by
  rw [queue_updQueue_self q _ _ (by rw [queues_received]; exact next_.known), queue_received]

omit next_ in
theorem takeNumbered_cmd (typ : wbits w0 0 4 = MT.cmd) (least : 1 ≤ wbits w0 8 7) (most : wbits w0 8 7 ≤ 64) :
    takeNumbered q w0 w1 body (received w0 s)
      = takeCmd q (wbits w0 8 7) (wbits w0 16 48) body (updQueue q (fun x => { x with rxNext := x.rxNext + 1 }) (received w0 s)) := by
  have length : (wbits w0 8 7 == 0 || decide (64 < wbits w0 8 7)) = false := by simp; omega
  simp [takeNumbered, length, typ]

omit next_ in
theorem takeNumbered_data (typ : wbits w0 0 4 = MT.data) (least : 1 ≤ wbits w0 8 7) (most : wbits w0 8 7 ≤ 64) :
    takeNumbered q w0 w1 body (received w0 s) = takeData q (wbits w0 8 7) (wbits w0 16 48) (wbits w1 0 32) (wbit w0 15) body
      (updQueue q (fun x => { x with rxNext := x.rxNext + 1 }) (received w0 s)) := by
  have length : (wbits w0 8 7 == 0 || decide (64 < wbits w0 8 7)) = false := by simp; omega
  simp [takeNumbered, length, typ, MT.cmd, MT.data]

omit next_ in
theorem takeNumbered_badLength (bad : wbits w0 8 7 = 0 ∨ 64 < wbits w0 8 7) :
    takeNumbered q w0 w1 body (received w0 s) = msgBreach q (wbits w0 16 48) VK.badMessage (received w0 s) := by
  have length : (wbits w0 8 7 == 0 || decide (64 < wbits w0 8 7)) = true := by simpa using bad
  simp [takeNumbered, length]

end

/-- Settles O16: a CMD message in its place is taken, and its three breaches are tried in order. -/
theorem cmdMessageStagesCommandOrStopsQueue : Obligations.CmdMessageStagesCommandOrStopsQueue := by
  unfold Obligations.CmdMessageStagesCommandOrStopsQueue
  intro s w0 w1 body q next_ typ least most n seq counted before
  have run : ∀ t, takeCmd q (wbits w0 8 7) seq body counted = t → (queue t q).early = [] → exec (.cmdMessage w0 w1 body) s = .next (after s t) :=
    fun t taken early => by
      have all := next_.receiveMsg_taken (by simp [typ]) ((takeNumbered_cmd typ least most).trans taken) early
      rw [show exec (.cmdMessage w0 w1 body) s = act s (message MT.cmd w0 w1 body) from rfl, ← all, ← next_.act_message, act_eq, act_eq]
      simp [message, typ]
  have queued : queue counted q = { queue s q with rxNext := (queue s q).rxNext + 1 } := next_.queue_counted
  have cases_ : takeCmd q (wbits w0 8 7) seq body counted = if wbits w0 8 7 ≠ n then msgBreach q seq VK.cmdLength counted
      else if seq ≠ (queue s q).nextSeq then msgBreach q seq VK.seqMismatch counted
      else if (queue s q).cmdGrant < (queue s q).cmdUsed + n then msgBreach q seq VK.queueOverrun counted
      else updQueue q (fun x => { x with
        staged := x.staged ++ [{ seq := seq, words := padWords (8 * n) (body.take (8 * n)), aborted := false, violated := before.1 != 0, vlogs := before.1, firstVlog := before.2 }]
        doomed := mdel seq x.doomed
        nextSeq := x.nextSeq + 1
        cmdUsed := x.cmdUsed + n }) counted := by
    simp only [takeCmd, queued, bne_iff_ne, n, before]
  refine ⟨fun length sequence credit => run _ ?_ ?_, fun length => run _ ?_ (early_msgBreach _ _ _), fun length sequence => run _ ?_ (early_msgBreach _ _ _),
    fun length sequence credit => run _ ?_ (early_msgBreach _ _ _)⟩
  · rw [cases_, if_neg (not_not.mpr length), if_neg (not_not.mpr sequence), if_neg (by omega)]
  · refine (queue_updQueue_early q _ ?_ q _).trans next_.counted_early
    exact fun _ => rfl
  · rw [cases_, if_pos length]
  · rw [cases_, if_neg (not_not.mpr length), if_pos sequence]
  · rw [cases_, if_neg (not_not.mpr length), if_neg (not_not.mpr sequence), if_pos credit]

/-! ### Breaches -/

theorem msgBreach_eq (q seq kind : Nat) (s : State) :
    msgBreach q seq kind s = sendNotice q kind (setBitFor R.CMD_CPT_STATUS 2 4 q (stopQueue q (vlog kind 0 q seq 0 0 s))) := rfl

theorem queues_vlog (kind source q seq w1 w2 : Nat) (s : State) : (vlog kind source q seq w1 w2 s).queues = s.queues :=
  vlog_keeps State.queues (fun _ _ _ => rfl) (fun _ _ => rfl) _ _ _ _ _ _ s

/-- The queue of a breach is STOPPED, with nothing waiting for its place; all but the count of its notice is otherwise as it was. -/
theorem unsent_msgBreach {q : Nat} (seq kind : Nat) (known : q < s.queues.length) :
    unsent (queue (msgBreach q seq kind s) q) = unsent { queue s q with state := 2, early := [] } := by
  rw [msgBreach_eq, unsent_sendNotice]
  refine congrArg unsent ?_
  refine (queue_updQueue_self q _ _ (by rwa [queues_vlog])).trans ?_
  rw [queue_of_queues (queues_vlog kind 0 q seq 0 0 s) q]

/-- Every other queue is as it was. -/
theorem queue_msgBreach_other {q j : Nat} (seq kind : Nat) (other : j ≠ q) : queue (msgBreach q seq kind s) j = queue s j :=
  msgBreach_keeps (fun s => queue s j) (fun _ _ _ => rfl) (fun _ _ _ _ => rfl) (fun _ _ => rfl) (fun _ _ => queue_updQueue_other _ _ other)
    (fun _ => queue_updQueue_other _ _ other) _ _ s

theorem rget_msgBreach_count (q seq kind : Nat) (s : State) :
    rget (msgBreach q seq kind s) R.MG_VLOG_COUNT = word ((rget s R.MG_VLOG_COUNT).toNat + 1) := by
  rw [msgBreach_eq, rget_sendNotice_other (by intro i; simp only [R.CNT_PMCi, R.MG_VLOG_COUNT]; omega) (by decide), setBitFor,
    rget_rset_other _ _ (by decide)]
  exact rget_vlog_count kind 0 q seq 0 0 s

theorem msgBreach_shows (q seq kind : Nat) (s : State) : wbit (rget (msgBreach q seq kind s) R.CMD_CPT_STATUS) 2 = true := by
  rw [msgBreach_eq, rget_sendNotice_other (by intro i; simp only [R.CNT_PMCi, R.CMD_CPT_STATUS]; omega) (by decide)]
  exact wbit_setBitFor_shows _ _ _ _ (by decide)

/-- A message of a TYPE the die may not send, on a block that takes messages. -/
theorem receiveMsg_unknownType {w0 w1 : Word} {body : List Word} (port : pstate s = 1) (unknown : wbits w0 0 4 ∉ [MT.cmd, MT.data, MT.ctrl, MT.credit]) :
    receiveMsg w0 w1 body s = vlog VK.badMessage 0 (wbits w0 4 4) (wbits w0 16 48) 0 0 (received w0 s) := by
  simp only [List.mem_cons, List.not_mem_nil, or_false, not_or] at unknown
  obtain ⟨cmd, data, ctrl, credit⟩ := unknown
  have numbered : (wbits w0 0 4 == MT.cmd || wbits w0 0 4 == MT.data || wbits w0 0 4 == MT.ctrl) = false := by simp [cmd, data, ctrl]
  unfold receiveMsg
  have noCredit : (wbits w0 0 4 != MT.credit) = true := by simpa using credit
  simp only [port, numbered, noCredit]
  simp [received]

theorem act_badMessage {w0 w1 : Word} {body : List Word} (bad : badMessage w0 = true) :
    exec (.badMessage w0 w1 body) s = act s (crossMessage w0 w1 body) := by
  rw [show exec (.badMessage w0 w1 body) s = act s (fun s => if badMessage w0 then crossMessage w0 w1 body s else s) from rfl, act_eq, act_eq]
  simp [bad]

/-- Settles O17: what a breach leaves of its own queue, and the four events that are one. -/
theorem breachesStopTheirQueueAlone : Obligations.BreachesStopTheirQueueAlone := by
  unfold Obligations.BreachesStopTheirQueueAlone
  constructor
  · intro s q seq kind known
    have own := unsent_msgBreach (s := s) seq kind known
    exact ⟨(congrArg Queue.state own :), (congrArg Queue.early own :), (congrArg Queue.staged own :), (congrArg Queue.nextSeq own :), rget_msgBreach_count q seq kind s,
      msgBreach_shows q seq kind s, fun j other => queue_msgBreach_other seq kind other,
      msgBreach_keeps State.ops (fun _ _ _ => rfl) (fun _ _ _ _ => rfl) (fun _ _ => rfl) (fun _ _ => rfl) (fun _ => rfl) _ _ s,
      msgBreach_keeps State.far (fun _ _ _ => rfl) (fun _ _ _ _ => rfl) (fun _ _ => rfl) (fun _ _ => rfl) (fun _ => rfl) _ _ s⟩
  intro s up
  refine ⟨fun w0 w1 body mode port carries unknown => ?_, fun w0 w1 body q next_ typ length => ?_, fun q running_ waits timeout => ?_,
    fun q o runs mine timeout more waits late => ?_, fun q o runs mine early => ?_⟩
  · have bad : badMessage w0 = true := by
      simp only [List.mem_cons, List.not_mem_nil, or_false, not_or] at unknown
      simp [badMessage, unknown]
    rw [act_badMessage bad, act_crossMessage up mode carries, receiveMsg_unknownType port unknown]
  · have bad : badMessage w0 = true := by
      rcases length with zero | long
      · simp [badMessage, zero]
      · simp [badMessage, long]
    rw [act_badMessage bad, next_.act_message, next_.receiveMsg_taken typ (takeNumbered_badLength length) (early_msgBreach _ _ _)]
  · rw [show exec (.streamGap q) s = act s (expireGap q) from rfl, act_up _ _ up]
    simp [expireGap, running_, waits, timeout]
  · rw [show exec (.portTimeout q) s = actSettle s (expirePort q) from rfl, actSettle_up _ _ up]
    have waiting : waitsPort o = true := by
      rcases waits with data | results
      · simp [waitsPort, data]
      · simp [waitsPort, results]
    have passed : 1000 * portTimeout s q < s.aon - o.lastIn := by omega
    simp [expirePort, runs, mine, timeout, more, waiting, passed]
  · rw [show exec (.portTimeout q) s = actSettle s (expirePort q) from rfl, actSettle_up _ _ up]
    have open_ : ¬ 1000 * portTimeout s q < s.aon - o.lastIn := by omega
    simp [expirePort, runs, open_]

/-! ### Data and credit -/

/-- DATA of a command that is staged or still to come, within its credit, waits in staging. -/
theorem takeData_staged {q len seq off : Nat} {last : Bool} {body : List Word} (credit : (queue s q).dataUsed + len ≤ (queue s q).dataGrant)
    (unknown : findOp s q seq = none) (open_ : (queue s q).nextSeq ≤ seq ∨ (queue s q).staged.any (fun c => c.seq == seq) = true)
    (more : (mfind seq (queue s q).data).bind (·.last) = none) : takeData q len seq off last body s = takeUnits q len seq off last body s := by
  have stale : (decide (seq < (queue s q).nextSeq) && !seqOpen s q seq) = false := by
    rcases open_ with later | staged
    · simp [Nat.not_lt.mpr later]
    · simp [seqOpen, staged]
  have continues : streamEnded s q seq = false := by simp [streamEnded, unknown, more]
  simp only [takeData, Nat.not_lt.mpr credit, if_false, stale, continues, Bool.false_eq_true]

theorem takeUnits_staged {q len seq off : Nat} {last : Bool} {body : List Word} (unknown : findOp s q seq = none) :
    takeUnits q len seq off last body s = updQueue q (fun x => { x with
      data := mput seq {
        units := (dataUnits len off body).foldl (fun m y => mput y.1 y.2 m) (mgetD seq { units := [], last := none } x.data).units
        last := if last then some (off + len) else none
        n := (mgetD seq { units := [], last := none } x.data).n + len } x.data })
      (updQueue q (fun x => { x with dataUsed := x.dataUsed + len }) s) := by
  have still : findOp (updQueue q (fun x => { x with dataUsed := x.dataUsed + len }) s) q seq = none := unknown
  simp only [takeUnits, still]

/-- A CREDIT message that grants d units beyond those consumed. -/
def creditBy (q d : Nat) (s : State) : State :=
  let s := if 2 ^ 31 < d then vlog VK.creditExcess 0 q 0 0 0 s else s
  let s := updQueue q (fun x => { x with resGrant := max x.resGrant (x.resUsed + min d (2 ^ 31)) }) s
  match running s with
  | some o => if o.queue == q then pumpResults q o.seq (portArrival q o.seq s) else s
  | none => s

theorem takeCredit_eq (q : Nat) (body : List Word) (s : State) :
    takeCredit q body s = creditBy q ((wbits (body.getD 2 0) 0 32 + 2 ^ 32 - (queue s q).resUsed % 2 ^ 32) % 2 ^ 32) s := rfl

/-- One within the cap, for a queue whose operation does not run. -/
theorem creditBy_idle {q d : Nat} (idle : running s = none) (cap : d ≤ 2 ^ 31) :
    creditBy q d s = updQueue q (fun x => { x with resGrant := max x.resGrant (x.resUsed + d) }) s := by
  have still : ∀ f, running (updQueue q f s) = none := fun _ => idle
  unfold creditBy
  rw [if_neg (Nat.not_lt.mpr cap), Nat.min_eq_left cap]
  dsimp only
  rw [still]

theorem receiveMsg_credit {w0 w1 : Word} {body : List Word} (port : pstate s = 1) (enabled : (queue s (wbits w0 4 4)).state ≠ 0) (typ : wbits w0 0 4 = MT.credit)
    (least : 1 ≤ wbits w0 8 7) (most : wbits w0 8 7 ≤ 64) : receiveMsg w0 w1 body s = takeCredit (wbits w0 4 4) body (received w0 s) := by
  have length : (wbits w0 8 7 == 0 || decide (64 < wbits w0 8 7)) = false := by simp; omega
  unfold receiveMsg
  simp only [port, typ, length]
  rw [show pmc PMC.cptRx none (txModule s) none (wbits w0 8 7) s = received w0 s from rfl, queue_received]
  simp [enabled, MT.credit, MT.cmd, MT.data, MT.ctrl]

theorem running_received (w0 : Word) (s : State) : running (received w0 s) = running s := pmc_keeps running (fun _ _ _ => rfl) _ _ _ _ _ s

theorem ops_received (w0 : Word) (s : State) : (received w0 s).ops = s.ops := pmc_keeps State.ops (fun _ _ _ => rfl) _ _ _ _ _ s

/-- Settles O18: DATA for a command not yet issued waits in staging, and CREDIT raises the grant. -/
theorem dataIsStagedAndCreditGranted : Obligations.DataIsStagedAndCreditGranted := by
  unfold Obligations.DataIsStagedAndCreditGranted
  intro s w0 w1 body q
  constructor
  · intro next_ typ least most credit unknown open_ more
    have counted := next_.queue_counted
    have unknown' : findOp (updQueue q (fun x => { x with rxNext := x.rxNext + 1 }) (received w0 s)) q (wbits w0 16 48) = none := by
      rw [findOp, show (updQueue q _ (received w0 s)).ops = s.ops from ops_received w0 s]
      exact unknown
    have taken := takeNumbered_data (s := s) (q := q) (w1 := w1) (body := body) typ least most
    rw [takeData_staged (by rw [counted]; exact credit) unknown' (by rw [counted]; exact open_) (by rw [counted]; exact more), takeUnits_staged unknown',
      updQueue_updQueue, updQueue_updQueue] at taken
    have all := next_.receiveMsg_taken (by simp [typ]) taken (by
      refine (queue_updQueue_early q _ ?_ q _).trans ((congrArg Queue.early (queue_received w0 s q)).trans next_.early)
      exact fun _ => rfl)
    rw [show exec (.dataMessage w0 w1 body) s = act s (message MT.data w0 w1 body) from rfl, ← all, ← next_.act_message, act_eq, act_eq]
    simp [message, typ]
  · intro up mode port carries number enabled typ least most idle cap
    subst number
    rw [show exec (.creditMessage w0 w1 body) s = act s (message MT.credit w0 w1 body) from rfl]
    have run : act s (message MT.credit w0 w1 body) = act s (crossMessage w0 w1 body) := by
      rw [act_eq, act_eq]
      simp [message, typ]
    rw [run, act_crossMessage up mode carries, receiveMsg_credit port enabled typ least most,
      takeCredit_eq, queue_received, creditBy_idle ((running_received w0 s).trans idle) cap]

end Sys2Proof.Machine
end

section
/-! Issue (03 R62, R63, R66, R73; R450) and the beginning of an operation's work (16). -/

namespace Sys2Proof.Machine

variable {s t : State}

/-! ### The checks of R63 -/

section
variable {o : Op}

theorem checkOp_unknown (unknown : o.opcode ∉ opcodes) :
    checkOp o s = endAtIssue o.queue o.seq (opViolation o.queue o.seq VK.badOpcode 0 o.opcode 0 s) := by
  simp [checkOp, unknown]

variable (known : o.opcode ∈ opcodes)
include known

theorem checkOp_operand {w b : Nat} (bad : o.badOperand (stepOk s o) = some (w, b)) :
    checkOp o s = endAtIssue o.queue o.seq (badOperand o.queue o.seq (badOperandWord w b) 0 s) := by
  have found : opcodes.contains o.opcode = true := by simpa using known
  simp only [checkOp, found, bad]
  rfl

variable (operands : o.badOperand (stepOk s o) = none)
include operands

theorem checkOp_step (later : (queue s o.queue).anyIssued = true) (below : o.step < (queue s o.queue).lastStep) :
    checkOp o s = endAtIssue o.queue o.seq (opViolation o.queue o.seq VK.stepOrder 0 0 0 s) := by
  simp [checkOp, known, operands, later, below]

/-- One whose STEP is in order goes on to the tables it names and to capacity. -/
theorem checkOp_inOrder (inOrder : (queue s o.queue).anyIssued = true → (queue s o.queue).lastStep ≤ o.step) :
    checkOp o s = match bindOp s o with
      | (some t, _, _) => endAtIssue o.queue o.seq (tableState o.queue o.seq t.1 t.2 s)
      | (none, true, _) => endAtIssue o.queue o.seq (opEnd o.queue o.seq SC.tableRetired s)
      | (none, false, bound) =>
        if !putFits s { o with bound := bound } then endAtIssue o.queue o.seq (badOperand o.queue o.seq (badOperandWord 2 30) 0 s)
        else if scatterFull s { o with bound := bound } || gazFull s { o with bound := bound } then endAtIssue o.queue o.seq (opEnd o.queue o.seq SC.capacity s)
        else countIssued { o with bound := bound } (updOp o.queue o.seq (fun x => { x with bound := bound }) s) := by
  have found : opcodes.contains o.opcode = true := by simpa using known
  have order : ((queue s o.queue).anyIssued && decide (o.step < (queue s o.queue).lastStep)) = false := by simpa using inOrder
  simp only [checkOp, found, operands, order]
  rfl

end

/-- What has already decided a staged command is in its cond, and nothing else. -/
theorem Staged.cond_bits (c : Staged) : maskBit c.cond SC.aborted = c.aborted ∧ maskBit c.cond SC.violation = c.violated := by
  have four : ∀ a v : Bool, let m := if a then maskSet 0 SC.aborted else 0
      maskBit (if v then maskSet m SC.violation else m) SC.aborted = a ∧ maskBit (if v then maskSet m SC.violation else m) SC.violation = v := by decide
  exact four c.aborted c.violated

/-! ### Taking a command to issue -/

theorem issueNext_none (none_ : issued s ≠ none ∨ nextIssue s = none) : issueNext s = s := by
  unfold issueNext
  split
  next issuedNone next_ => rcases none_ with h | h <;> simp_all
  next => rfl

theorem issueNext_some {q : Nat} {c : Staged} (place : issued s = none) (next_ : nextIssue s = some (q, c)) :
    let r := returnCmd q (c.words.length / 8) (updQueue q (fun x => { x with staged := x.staged.drop 1 }) { s with rr := q })
    let t := { r with ops := r.ops ++ [newOp q c] }
    issueNext s = deliverAll (prefetchOp (startNext (endIssued (deliverAll
      (if c.aborted || c.violated then endAtIssue q c.seq (updOp q c.seq (fun o => { o with cond := c.cond }) t) else checkOp (newOp q c) t))))) := by
  simp only [issueNext, place, next_]

theorem bankAgain_waits {o : Op} (runs : running s = some o) (waits : o.waitRb = true) (phase : o.phase = .bank) (live : o.endNow = false) :
    bankAgain s = settle (rereadBank o.queue o.seq s) := by
  simp [bankAgain, runs, waits, phase, live]

theorem bankAgain_none (none_ : ∀ o, running s = some o → o.waitRb = false ∨ o.phase ≠ .bank ∨ o.endNow = true) : bankAgain s = s := by
  unfold bankAgain
  split
  next o runs =>
    rcases none_ o runs with h | h | h
    · simp [h]
    · simp [h]
    · simp [h]
  next => rfl

/-- Settles O20: each check in its order, the command taken to issue, and the two commands that go on. -/
theorem issueChecksInOrderAndCompletionDelivers : Obligations.IssueChecksInOrderAndCompletionDelivers := by
  unfold Obligations.IssueChecksInOrderAndCompletionDelivers
  refine ⟨fun s up => ⟨fun none_ => ?_, fun q c place next_ => ?_, ?_, fun o runs waits phase live => ?_, fun none_ => ?_⟩, Staged.cond_bits,
    fun s o => ⟨checkOp_unknown, fun known => ⟨fun w b bad => checkOp_operand known bad, fun operands => ⟨checkOp_step known operands, fun inOrder => ?_⟩⟩⟩⟩
  · rw [show exec .opIssue s = actSettle s issueNext from rfl, actSettle_up _ _ up, issueNext_none none_]
  · rw [show exec .opIssue s = actSettle s issueNext from rfl, actSettle_up _ _ up, issueNext_some place next_]
  · exact actSettle_up _ _ up
  · rw [show exec .resultBankWait s = act s bankAgain from rfl, act_up _ _ up, bankAgain_waits runs waits phase live]
    rfl
  · rw [show exec .resultBankWait s = act s bankAgain from rfl, act_up _ _ up, bankAgain_none none_]
  · have checked := checkOp_inOrder known operands inOrder
    refine ⟨fun t b r bound => ?_, fun r bound => ?_, fun r bound => ⟨fun fits => ?_, fun fits full => ?_, fun fits room => ?_⟩⟩
    · rw [checked, bound]
    · rw [checked, bound]
    all_goals simp only [checked, bound]
    · exact if_pos (congrArg not fits)
    · exact (if_neg (by simp [fits])).trans (if_pos full)
    · exact (if_neg (by simp [fits])).trans (if_neg (by simp only [room]; decide))

/-! ### Beginning the work -/

/-- The running operation of an opcode whose work is due begins it. -/
theorem WorkDue.act_beginWork {code : Nat} {o : Op} (work : WorkDue s code o) (f : Nat → Nat → State → State) :
    act s (beginWork code f) = .next (after s (f o.queue o.seq (effectDone o.queue o.seq s))) := by
  have begins : beginWork code f s = settle (f o.queue o.seq (effectDone o.queue o.seq s)) := by
    simp [beginWork, work.runs, work.code, work.due, work.live, work.free]
  rw [act_up _ _ work.up, begins]
  rfl

/-- Settles O21: every opcode with work begins it by the one rule. -/
theorem runningOperationsBeginTheirWork : Obligations.RunningOperationsBeginTheirWork := by
  unfold Obligations.RunningOperationsBeginTheirWork
  exact fun s o => ⟨fun work => work.act_beginWork noWork, fun work => work.act_beginWork lkAdvance, fun work => work.act_beginWork gsAdvance,
    fun work => work.act_beginWork rowputAdvance, fun work => work.act_beginWork copyAdvance, fun work => work.act_beginWork exportAdvance,
    fun work => work.act_beginWork importAdvance, fun work => work.act_beginWork startMeridian⟩

end Sys2Proof.Machine
end

section
/-! The ordered streams of packets (10 R285) and the totals of rows (06 R165). -/

namespace Sys2Proof.Machine

variable {s t : State}

/-! ### Ordered streams -/

section
variable {port : Nat} {p : Packet}

/-- One that its stream delivered before. -/
theorem orderedIn_old (follows : p.eseq ≠ 0 ∨ (ostream s p.src p.cls).rx % 2 ^ 32 = 0)
    (old : 2 ^ 31 ≤ (p.eseq + 2 ^ 32 - (ostream s p.src p.cls).rx % 2 ^ 32) % 2 ^ 32) :
    orderedIn port p s = bump1 R.CNT_LNK_DISCARD (vlog VK.eseqDup (portSource port) 0 0 0 0 s) := by
  have same : (p.eseq == 0 && (ostream s p.src p.cls).rx % 2 ^ 32 != 0) = false := by simpa [← imp_iff_not_or] using follows.imp_left id
  unfold orderedIn
  dsimp only
  generalize ostream s p.src p.cls = o at *
  simp only [same, Bool.false_eq_true, if_false]
  generalize (p.eseq + 2 ^ 32 - o.rx % 2 ^ 32) % 2 ^ 32 = d at old ⊢
  have notNext : (d == 0) = false := by simp; omega
  rw [notNext, if_neg Bool.false_ne_true, if_neg (Nat.not_lt.mpr old)]

/-- One that comes early. -/
theorem orderedIn_early (follows : p.eseq ≠ 0 ∨ (ostream s p.src p.cls).rx % 2 ^ 32 = 0)
    (notNext : (p.eseq + 2 ^ 32 - (ostream s p.src p.cls).rx % 2 ^ 32) % 2 ^ 32 ≠ 0)
    (early : (p.eseq + 2 ^ 32 - (ostream s p.src p.cls).rx % 2 ^ 32) % 2 ^ 32 < 2 ^ 31) :
    let o := ostream s p.src p.cls
    let d := (p.eseq + 2 ^ 32 - o.rx % 2 ^ 32) % 2 ^ 32
    orderedIn port p s = bump1 R.CNT_LNK_REORDER
      (setOStream p.src p.cls { o with early := (o.early.filter fun y => y.1 != o.rx + d) ++ [(o.rx + d, port, p)] } s) := by
  have same : (p.eseq == 0 && (ostream s p.src p.cls).rx % 2 ^ 32 != 0) = false := by simpa [← imp_iff_not_or] using follows.imp_left id
  unfold orderedIn
  dsimp only
  generalize ostream s p.src p.cls = o at *
  simp only [same, Bool.false_eq_true, if_false]
  generalize (p.eseq + 2 ^ 32 - o.rx % 2 ^ 32) % 2 ^ 32 = d at notNext early ⊢
  rw [if_neg (by simpa using notNext), if_pos early]

/-- One that is next in its stream. -/
theorem orderedIn_next (follows : p.eseq ≠ 0 ∨ (ostream s p.src p.cls).rx % 2 ^ 32 = 0) (next_ : (ostream s p.src p.cls).rx % 2 ^ 32 = p.eseq) :
    let o := ostream s p.src p.cls
    orderedIn port p s = streamOn p (deliverPacket port p (setOStream p.src p.cls { o with rx := o.rx + 1, owed := o.owed + 1 } s)) := by
  have same : (p.eseq == 0 && (ostream s p.src p.cls).rx % 2 ^ 32 != 0) = false := by simpa [← imp_iff_not_or] using follows.imp_left id
  have zero : (p.eseq + 2 ^ 32 - (ostream s p.src p.cls).rx % 2 ^ 32) % 2 ^ 32 = 0 := by
    rw [← next_]
    omega
  unfold orderedIn
  dsimp only
  generalize ostream s p.src p.cls = o at *
  simp only [same, Bool.false_eq_true, if_false]
  rw [zero]
  rfl

/-- ESEQ 0 on a stream that stands elsewhere begins it anew. -/
theorem orderedIn_begins (first : p.eseq = 0) (stands : (ostream s p.src p.cls).rx % 2 ^ 32 ≠ 0) :
    let o := ostream s p.src p.cls
    orderedIn port p s = streamOn p (deliverPacket port p (setOStream p.src p.cls { o with rx := 1, early := [], owed := 1 } s)) := by
  unfold orderedIn
  dsimp only
  generalize ostream s p.src p.cls = o at *
  have begins : (p.eseq == 0 && o.rx % 2 ^ 32 != 0) = true := by
    rw [first]
    exact bne_iff_ne.mpr stands
  rw [if_pos begins, first]
  exact if_pos (by simp)

end

/-- Settles O26: the cases of a packet's distance from the one its stream expects. -/
theorem orderedStreamHoldsEarlyAndDropsOld : Obligations.OrderedStreamHoldsEarlyAndDropsOld := by
  unfold Obligations.OrderedStreamHoldsEarlyAndDropsOld
  intro port p s _ o d
  refine ⟨fun follows => ⟨fun old => orderedIn_old follows old, fun notNext early => ?_, fun next_ => orderedIn_next follows next_⟩,
    fun first stands => orderedIn_begins first stands⟩
  rw [orderedIn_early follows notNext early]
  exact ⟨ostream_setOStream_self _ _ _ s, rget_bump _ _ _, fun off other => rget_bump_other _ _ other, rfl, rfl, rfl⟩

/-! ### Job slots -/

theorem job_updJob_self {j : Nat} (f : Job → Job) (s : State) (known : j < s.jobs.length) : job (updJob j f s) j = f (job s j) := by
  simp [job, List.getD_eq_getElem?_getD, List.getElem?_modify_eq, List.getElem?_eq_getElem known]

theorem job_updJob_other {k j : Nat} (f : Job → Job) (s : State) (other : j ≠ k) : job (updJob k f s) j = job s j := by
  simp [job, List.getD_eq_getElem?_getD, Ne.symm other]

/-! ### The total of a row -/

/-- A saturated total leaves what leaves out registers, free values and the conditions of its job. -/
theorem totalOver_keeps {β : Type} {slot : Nat} (g : State → β) (ofRset : ∀ off w s, g (rset off w s) = g s) (ofFresh : ∀ n (s : State), g { s with fresh := n } = g s)
    (ofConds : ∀ (f : Job → List (Nat × Nat)) (s : State), g (updJob slot (fun j => { j with conds := f j }) s) = g s) (step : Nat) (s : State) : g (totalOver slot step s) = g s := by
  unfold totalOver unitFlags
  dsimp only
  split
  · exact (ofRset _ _ _).trans <| (ofConds _ _).trans (ofFresh _ s)
  · exact (ofRset _ _ _).trans <| (ofRset _ _ _).trans <| (ofConds _ _).trans (ofFresh _ s)

theorem when_keeps {β : Type} (g : State → β) {f : State → State} (keeps : ∀ s, g (f s) = g s) (c : Bool) (s : State) : g (when c f s) = g s := by
  cases c with
  | false => rfl
  | true => exact keeps s

/-- The total a row has, or that of a row that has none. -/
def totalOf (s : State) (slot : Nat) (d : Desc) (row step : Nat) : Total :=
  ((job s slot).totals.find? fun t => t.is d.tableId d.version row step).getD
    { table := d.tableId, version := d.version, row := row, step := step, count := 0, vals := List.replicate d.width 0 }

/-- The exact sum of a record with a total. -/
def rawSum (d : Desc) (old : Total) (vals : List Int) : List Int := (old.vals.zip (vals ++ List.replicate d.width 0)).map fun x => x.1 + x.2

/-- The total with a record added. -/
def totalWith (slot : Nat) (d : Desc) (row step count : Nat) (vals : List Int) (s : State) : Total :=
  { totalOf s slot d row step with count := (totalOf s slot d row step).count + count, vals := (rawSum d (totalOf s slot d row step) vals).map satTotal }

theorem addTotal_eq (slot : Nat) (d : Desc) (row step count : Nat) (vals : List Int) (s : State) :
    addTotal slot d row step count vals s = updJob slot (fun j => { j with
        totals := (j.totals.filter fun t => !t.is d.tableId d.version row step)
          ++ [totalWith slot d row step count vals s] })
      (when ((rawSum d (totalOf s slot d row step) vals).map satTotal != rawSum d (totalOf s slot d row step) vals) (totalOver slot step) s) := rfl

/-- A record changes its job, registers and free values alone. -/
theorem addTotal_keeps {β : Type} {slot : Nat} (g : State → β) (ofRset : ∀ off w s, g (rset off w s) = g s) (ofFresh : ∀ n (s : State), g { s with fresh := n } = g s)
    (ofJob : ∀ f s, g (updJob slot f s) = g s) (d : Desc) (row step count : Nat) (vals : List Int) (s : State) : g (addTotal slot d row step count vals s) = g s := by
  rw [addTotal_eq]
  exact (ofJob _ _).trans (when_keeps g (totalOver_keeps g ofRset ofFresh (fun _ => ofJob _) step) _ s)

theorem totalOf_is (s : State) (slot : Nat) (d : Desc) (row step : Nat) : (totalOf s slot d row step).is d.tableId d.version row step = true := by
  unfold totalOf
  cases found : (job s slot).totals.find? (fun t => t.is d.tableId d.version row step) with
  | none => simp [Total.is]
  | some x => exact (List.find?_some found :)

/-- Element by element, where a total and a record have the table's width. -/
theorem rawSum_eq {d : Desc} {old : Total} {vals : List Int} (width : vals.length = d.width) (oldWidth : old.vals.length = d.width) :
    rawSum d old vals = List.zipWith (· + ·) old.vals vals := by
  rw [rawSum, List.map_zip_eq_zipWith]
  refine List.ext_getElem (by simp; omega) fun i left right => ?_
  rw [List.getElem_zipWith, List.getElem_zipWith, List.getElem_append_left (by simp at right; omega)]
  rfl

/-- Settles O28: the new total stands at the end of the list, in place of the old one. -/
theorem gradientRecordAddsToRowTotal : Obligations.GradientRecordAddsToRowTotal := by
  unfold Obligations.GradientRecordAddsToRowTotal
  intro slot d row step count vals s known width widths old t
  have totals : (job t slot).totals = ((job s slot).totals.filter fun x => !x.is d.tableId d.version row step)
      ++ [totalWith slot d row step count vals s] := by
    rw [show t = addTotal slot d row step count vals s from rfl, addTotal_eq, job_updJob_self _ _ (by
      rw [when_keeps (fun s => s.jobs.length) (totalOver_keeps (fun s => s.jobs.length) (fun _ _ _ => rfl) (fun _ _ => rfl) (fun _ _ => by simp) step)]; exact known)]
    dsimp only
    rw [when_keeps (fun s => (job s slot).totals) (totalOver_keeps (fun s => (job s slot).totals) (fun _ _ _ => rfl) (fun _ _ => rfl) (fun f u => ?_) step)]
    by_cases inside : slot < u.jobs.length
    · rw [job_updJob_self _ _ inside]
    · rw [job, job, List.getD_eq_default _ _ (by simpa using inside), List.getD_eq_default _ _ (by omega)]
  have oldWidth : (totalOf s slot d row step).vals.length = d.width := by
    unfold totalOf
    cases found : (job s slot).totals.find? (fun t => t.is d.tableId d.version row step) with
    | none => simp
    | some x => exact widths x (List.mem_of_find?_eq_some found) (List.find?_some found :)
  have new_is : (totalWith slot d row step count vals s).is d.tableId d.version row step = true := totalOf_is s slot d row step
  refine ⟨⟨totalWith slot d row step count vals s, ?_, ?_, ?_⟩, fun x other => ?_, ?_, ?_, fun j other => ?_⟩
  · rw [totals, List.find?_append, List.find?_eq_none.mpr (by simp)]
    simp [new_is]
  · simp only [totalWith, totalOf, old]
    cases (job s slot).totals.find? (fun t => t.is d.tableId d.version row step) <;> rfl
  · have vals_eq : (totalOf s slot d row step).vals = (old.map (·.vals)).getD (List.replicate d.width 0) := by
      simp only [totalOf, old]
      cases (job s slot).totals.find? (fun t => t.is d.tableId d.version row step) <;> rfl
    rw [← vals_eq, totalWith, rawSum_eq width oldWidth, List.map_zipWith]
    rfl
  · rw [totals, List.mem_append, List.mem_filter, List.mem_singleton]
    refine ⟨fun inTotals => inTotals.elim And.left fun new => ?_, fun inOld => Or.inl ⟨inOld, by simp [other]⟩⟩
    rw [new] at other
    exact absurd (new_is.symm.trans other) (by decide)
  · exact addTotal_keeps State.far (fun _ _ _ => rfl) (fun _ _ => rfl) (fun _ _ => rfl) d row step count vals s
  · exact addTotal_keeps State.ops (fun _ _ _ => rfl) (fun _ _ => rfl) (fun _ _ => rfl) d row step count vals s
  · exact addTotal_keeps (fun s => job s j) (fun _ _ _ => rfl) (fun _ _ => rfl) (fun _ _ => job_updJob_other _ _ other) d row step count vals s

/-! ### Sums that stay within 128 bits -/

/-- A row's total in place of any it had. -/
def putTotal (slot : Nat) (d : Desc) (row step : Nat) (x : Total) (s : State) : State :=
  updJob slot (fun j => { j with totals := (j.totals.filter fun t => !t.is d.tableId d.version row step) ++ [x] }) s

theorem addTotal_exact {slot : Nat} {d : Desc} {row step count : Nat} {vals : List Int}
    (exact_ : (rawSum d (totalOf s slot d row step) vals).map satTotal = rawSum d (totalOf s slot d row step) vals) :
    addTotal slot d row step count vals s = putTotal slot d row step (totalWith slot d row step count vals s) s := by
  rw [addTotal_eq, exact_, bne_self_eq_false]
  rfl

theorem totalOf_putTotal {slot : Nat} {d : Desc} {row step : Nat} {x : Total} (known : slot < s.jobs.length) (is_ : x.is d.tableId d.version row step = true) :
    totalOf (putTotal slot d row step x s) slot d row step = x := by
  rw [totalOf, putTotal, job_updJob_self _ _ known, List.find?_append, List.find?_eq_none.mpr (by simp)]
  simp [is_]

theorem putTotal_putTotal (slot : Nat) (d : Desc) (row step : Nat) {x : Total} (y : Total) (s : State) (is_ : x.is d.tableId d.version row step = true) :
    putTotal slot d row step y (putTotal slot d row step x s) = putTotal slot d row step y s := by
  unfold putTotal updJob
  dsimp only
  rw [List.modify_modify_eq]
  refine congrArg (fun f => { s with jobs := s.jobs.modify slot f }) (funext fun j => ?_)
  simp [is_]

theorem map_satTotal_exact {l : List Int} (bounds : ∀ x ∈ l, -(2 ^ 126 : Int) ≤ x ∧ x ≤ 2 ^ 126) : l.map satTotal = l := by
  have one : ∀ x ∈ l, satTotal x = x := fun x inList => by
    have := bounds x inList
    rw [satTotal, satLimit]
    omega
  rw [List.map_congr_left one, List.map_id']

/-- The total of a row's first record, which is the record. -/
def firstTotal (d : Desc) (row step count : Nat) (vals : List Int) : Total :=
  { table := d.tableId, version := d.version, row := row, step := step, count := count, vals := vals }

theorem firstTotal_is (d : Desc) (row step count : Nat) (vals : List Int) : (firstTotal d row step count vals).is d.tableId d.version row step = true := by
  simp [firstTotal, Total.is]

theorem bounds_wider {l : List Int} (bounds : ∀ x ∈ l, -(2 ^ 125 : Int) ≤ x ∧ x ≤ 2 ^ 125) : ∀ x ∈ l, -(2 ^ 126 : Int) ≤ x ∧ x ≤ 2 ^ 126 := fun x inList => by
  have := bounds x inList
  omega

section
variable {slot : Nat} {d : Desc} {row step : Nat} {v1 v2 : List Int}

theorem addTotal_first (free : ∀ t ∈ (job s slot).totals, t.is d.tableId d.version row step = false) (count : Nat) (width : v1.length = d.width)
    (bounds : ∀ x ∈ v1, -(2 ^ 125 : Int) ≤ x ∧ x ≤ 2 ^ 125) :
    addTotal slot d row step count v1 s = putTotal slot d row step (firstTotal d row step count v1) s := by
  have none_ : totalOf s slot d row step = firstTotal d row step 0 (List.replicate d.width 0) := by
    rw [totalOf, List.find?_eq_none.mpr (by simpa using free)]
    rfl
  have sum : rawSum d (totalOf s slot d row step) v1 = v1 := by
    rw [rawSum_eq width (by rw [none_]; simp [firstTotal]), none_]
    refine List.ext_getElem (by simp [firstTotal, width]) fun i left right => ?_
    simp [firstTotal]
  rw [addTotal_exact (by rw [sum]; exact map_satTotal_exact (bounds_wider bounds)), totalWith, sum, map_satTotal_exact (bounds_wider bounds), none_, firstTotal, Nat.zero_add]
  rfl

/-- The second record of a row makes its total their sum. -/
theorem addTotal_second (known : slot < s.jobs.length) (c1 c2 : Nat) (w1 : v1.length = d.width) (w2 : v2.length = d.width)
    (b1 : ∀ x ∈ v1, -(2 ^ 125 : Int) ≤ x ∧ x ≤ 2 ^ 125) (b2 : ∀ x ∈ v2, -(2 ^ 125 : Int) ≤ x ∧ x ≤ 2 ^ 125) :
    addTotal slot d row step c1 v1 (putTotal slot d row step (firstTotal d row step c2 v2) s)
      = putTotal slot d row step (firstTotal d row step (c2 + c1) (List.zipWith (· + ·) v2 v1)) s := by
  have has_ := totalOf_putTotal known (firstTotal_is d row step c2 v2)
  have sum : rawSum d (firstTotal d row step c2 v2) v1 = List.zipWith (· + ·) v2 v1 := rawSum_eq w1 w2
  have bounds : ∀ x ∈ List.zipWith (· + ·) v2 v1, -(2 ^ 126 : Int) ≤ x ∧ x ≤ 2 ^ 126 := fun x inList => by
    obtain ⟨i, inside, rfl⟩ := List.getElem_of_mem inList
    rw [List.getElem_zipWith]
    have := b1 _ (List.getElem_mem (l := v1) (n := i) (by simp at inside; omega))
    have := b2 _ (List.getElem_mem (l := v2) (n := i) (by simp at inside; omega))
    omega
  rw [addTotal_exact (by rw [has_, sum]; exact map_satTotal_exact bounds), totalWith, has_, sum, map_satTotal_exact bounds, putTotal_putTotal _ _ _ _ _ _ (firstTotal_is d row step c2 v2)]
  rfl

end

/-- Settles O29: both orders leave the sum of the two records as the row's total. -/
theorem recordOrderDoesNotChangeTotals : Obligations.RecordOrderDoesNotChangeTotals := by
  unfold Obligations.RecordOrderDoesNotChangeTotals
  intro slot d row step c1 c2 v1 v2 s known w1 w2 free b1 b2
  rw [addTotal_first free c2 w2 b2, addTotal_first free c1 w1 b1, addTotal_second known c1 c2 w1 w2 b1 b2, addTotal_second known c2 c1 w2 w1 b2 b1,
    Nat.add_comm c2 c1, List.zipWith_comm_of_comm Int.add_comm]

end Sys2Proof.Machine
end

section
/-! Translation (09 R242, R245 to R256). -/

namespace Sys2Proof.Machine

variable {s t : State}

theorem lowestFree_nil : lowestFree [] = 0 := by decide

/-- The client holds nothing back while no request is parked. -/
theorem heldBack_none (free : s.parked = []) (r : TReq) : heldBack s r = false := by simp [heldBack, free]

/-! ### Looking a line up -/

/-- A hole as the second level keeps it. -/
def holeEnt (ctx lo hi : Nat) : TEnt :=
  { ctx := ctx, lo := lo, hi := hi, typ := 0, rd := false, wr := false, acct := false, key := 0, target := 0, fatal := false }

section
variable {keep : Bool} {client ctx va : Nat}

theorem lookup_l1 {e : TEnt} (found : (l1Of s client).find? (fun e => e.has ctx va) = some e) :
    lookup keep client ctx va s = (.entry e, false, setL1 client (bufTouch e (l1Of s client)) s) := by
  simp only [lookup, found]

variable (win : client ≠ CLI.winRecv) (l1 : (l1Of s client).find? (fun e => e.has ctx va) = none)
include win l1

theorem lookup_l2_hole {e : TEnt} (found : s.l2.find? (fun e => e.has ctx va && (keep || e.typ != 0 || e.fatal)) = some e) (hole : e.typ = 0) :
    lookup keep client ctx va s = (.hole e.lo e.hi, e.fatal, { bump1 R.CNT_TLB_L1_MISS s with l2 := bufTouch e s.l2 }) := by
  have l2 : (bump1 R.CNT_TLB_L1_MISS s).l2 = s.l2 := rfl
  have here : (client == CLI.winRecv) = false := by simpa using win
  simp only [lookup, l1, here, Bool.false_eq_true, if_false, l2, found, hole]
  rfl

/-- A miss of both levels walks. What it finds is kept in both levels where it is an entry. -/
theorem lookup_walk_entry {e : TEnt} (l2 : s.l2.find? (fun e => e.has ctx va && (keep || e.typ != 0 || e.fatal)) = none)
    (walked : walk (bump1 R.CNT_TLB_WALK (bump1 R.CNT_TLB_L2_MISS (bump1 R.CNT_TLB_L1_MISS s))) ctx va = .entry e) (typ : e.typ ≠ 0) :
    lookup keep client ctx va s = (.entry e, false, { bump1 R.CNT_TLB_WALK (bump1 R.CNT_TLB_L2_MISS (bump1 R.CNT_TLB_L1_MISS s)) with
      l2 := bufFill 16384 e s.l2, l1 := mput client (bufFill 64 e (l1Of s client)) s.l1 }) := by
  have same : (bump1 R.CNT_TLB_L1_MISS s).l2 = s.l2 := rfl
  have here : (client == CLI.winRecv) = false := by simpa using win
  have filled : (e.typ == 0) = false := by simpa using typ
  simp only [lookup, l1, here, Bool.false_eq_true, if_false, same, l2, walked, filled, Bool.or_self]
  rfl

/-- A hole is kept in the second level, by an access that may queue its fault. -/
theorem lookup_walk_hole {lo hi : Nat} (l2 : s.l2.find? (fun e => e.has ctx va && (keep || e.typ != 0 || e.fatal)) = none)
    (walked : walk (bump1 R.CNT_TLB_WALK (bump1 R.CNT_TLB_L2_MISS (bump1 R.CNT_TLB_L1_MISS s))) ctx va = .hole lo hi) :
    lookup keep client ctx va s = (.hole lo hi, false, if !keep then bump1 R.CNT_TLB_WALK (bump1 R.CNT_TLB_L2_MISS (bump1 R.CNT_TLB_L1_MISS s))
      else { bump1 R.CNT_TLB_WALK (bump1 R.CNT_TLB_L2_MISS (bump1 R.CNT_TLB_L1_MISS s)) with l2 := bufFill 16384 (holeEnt ctx lo hi) s.l2 }) := by
  have same : (bump1 R.CNT_TLB_L1_MISS s).l2 = s.l2 := rfl
  have here : (client == CLI.winRecv) = false := by simpa using win
  simp only [lookup, l1, here, Bool.false_eq_true, if_false, same, l2, walked]
  rfl

end

/-! ### What a translation comes to -/

section
variable {nowait fatal : Bool} {r : TReq} {lo hi : Nat} {e : TEnt} (free : s.parked = [])
include free

/-- An entry that allows the access and counts no page. -/
theorem translate_entry (found : lookup (!nowait) r.client r.ctx r.va s = (.entry e, fatal, t)) (allowed : checkEnt t r.write e = none) (acct : e.acct = false) :
    translate nowait r s = (.ok e, t) := by
  simp only [translate, heldBack_none free, Bool.false_and, Bool.false_eq_true, if_false, found, allowed, acct]

/-- A hole that is not fatal faults, where its client waits and the host is there. -/
theorem translate_hole_waits (found : lookup true r.client r.ctx r.va s = (.hole lo hi, false, t)) (host : lstate t ≠ LS.lost) :
    translate false r s = (.wait, raiseFault FK.notMapped lo hi r t) := by
  have there : (fget t R.HST_STATE F.HST_STATE_LSTATE == 4) = false := beq_eq_false_iff_ne.mpr host
  simp only [translate, heldBack_none free, Bool.false_and, Bool.false_eq_true, if_false, Bool.not_false, found, there]

omit free in
/-- One that waits for nothing is answered FATAL. -/
theorem translate_hole_nowait (found : lookup false r.client r.ctx r.va s = (.hole lo hi, false, t)) : translate true r s = (.fatal, t) := by
  simp only [translate, Bool.not_true, Bool.and_false, Bool.false_eq_true, if_false, found, if_true]

end

/-- Raising a fault changes registers alone. -/
theorem faultRaised_keeps {β : Type} (g : State → β) (ofRset : ∀ off w s, g (rset off w s) = g s) (kind : Nat) (s : State) : g (faultRaised kind s) = g s :=
  (when_keeps g (fun _ => ofRset _ _ _) _ _).trans <| (when_keeps g (fun _ => ofRset _ _ _) _ _).trans (ofRset _ _ s)

/-- The slot that a request's own fault takes. -/
def ownFault (kind lo hi gen order : Nat) (r : TReq) : FqSlot :=
  { gen := gen, kind := kind, ctx := r.ctx, write := r.write, source := r.source, merged := 0, addr := r.va, lo := lo, hi := hi, order := order, waiters := [r] }

/-- With no fault pending, one takes slot 0 with that slot's next generation. -/
theorem raiseFault_first (none_ : s.fq = []) (kind lo hi : Nat) (r : TReq) :
    let gen := (mgetD 0 0 s.fqGen + 1) % 2 ^ 16
    raiseFault kind lo hi r s = faultRaised kind { s with fq := [(0, ownFault kind lo hi gen 1 r)], fqGen := mput 0 gen s.fqGen } := by
  simp only [raiseFault, queueFault, none_, List.find?_nil, List.map_nil, lowestFree_nil]
  rfl

/-- Everything but the fault queue and registers stays. -/
theorem raiseFault_first_keeps {β : Type} (g : State → β) (ofRset : ∀ off w s, g (rset off w s) = g s)
    (ofQueue : ∀ f n (s : State), g { s with fq := f, fqGen := n } = g s) (none_ : s.fq = []) (kind lo hi : Nat) (r : TReq) : g (raiseFault kind lo hi r s) = g s := by
  rw [raiseFault_first none_]
  exact (faultRaised_keeps g ofRset _ _).trans (ofQueue _ _ s)

theorem raiseFault_first_fq (none_ : s.fq = []) (kind lo hi : Nat) (r : TReq) :
    (raiseFault kind lo hi r s).fq = [(0, ownFault kind lo hi ((mgetD 0 0 s.fqGen + 1) % 2 ^ 16) 1 r)] := by
  rw [raiseFault_first none_]
  exact faultRaised_keeps State.fq (fun _ _ _ => rfl) _ _

/-- What the buffers and the fault queue are is no matter of the outcome of a command. -/
theorem outcome_buffers (s t : State) : (outcome s t).fq = t.fq ∧ (outcome s t).l1 = t.l1 ∧ (outcome s t).l2 = t.l2 ∧ (outcome s t).far = t.far
    ∧ (outcome s t).ops = t.ops ∧ (outcome s t).keys = t.keys :=
  ⟨outcome_keeps State.fq fun _ _ => rfl, outcome_keeps State.l1 fun _ _ => rfl, outcome_keeps State.l2 fun _ _ => rfl, outcome_keeps State.far fun _ _ => rfl,
    outcome_keeps State.ops fun _ _ => rfl, outcome_keeps State.keys fun _ _ => rfl⟩

/-- What the probe of a client asks. -/
def probe (client ctx va : Nat) (write : Bool) : TReq := { client := client, ctx := ctx, va := va, write := write, source := 0, who := .probe }

theorem exec_tlbWalk {client ctx va : Nat} (write : Bool) (up : s.up = true) (inCtx : ctx < 64) (inSpace : va < vaEnd) :
    exec (.tlbWalk client ctx va write false) s = .next (outcome s (translate false (probe client ctx va write) s).2) := by
  rw [show exec (.tlbWalk client ctx va write false) s = act s (probeWalk client ctx va write false) from rfl, act_up _ _ up]
  simp [probeWalk, probe, Nat.mod_eq_of_lt inCtx, Nat.mod_eq_of_lt inSpace]

/-- Counting misses changes no other register. -/
theorem rget_missed {o : Nat} (s : State) (l1 : o ≠ R.CNT_TLB_L1_MISS) (l2 : o ≠ R.CNT_TLB_L2_MISS) (walks : o ≠ R.CNT_TLB_WALK) :
    rget (bump1 R.CNT_TLB_WALK (bump1 R.CNT_TLB_L2_MISS (bump1 R.CNT_TLB_L1_MISS s))) o = rget s o := by
  rw [bump1, rget_bump_other _ _ walks, bump1, rget_bump_other _ _ l2, bump1, rget_bump_other _ _ l1]

theorem lstate_of_rget (same : rget t R.HST_STATE = rget s R.HST_STATE) : lstate t = lstate s := by rw [lstate, lstate, fget, fget, same]

theorem checkEnt_of_rget (same : rget t R.TLB_KEY_LOADED = rget s R.TLB_KEY_LOADED) (write : Bool) (e : TEnt) : checkEnt t write e = checkEnt s write e := by
  unfold checkEnt keyLoaded
  rw [same]

/-- A probe that meets a hole raises its fault, and leaves the buffers as the look-up left them. -/
theorem probe_hole_waits {client ctx va lo hi : Nat} (write : Bool) (up : s.up = true) (inCtx : ctx < 64) (inSpace : va < vaEnd) (free : s.parked = [])
    (looked : lookup true client ctx va s = (.hole lo hi, false, t)) (host : lstate t ≠ LS.lost) (none_ : t.fq = []) :
    Answers (.tlbWalk client ctx va write false) s fun u =>
      u.fq = [(0, ownFault FK.notMapped lo hi ((mgetD 0 0 t.fqGen + 1) % 2 ^ 16) 1 (probe client ctx va write))]
        ∧ u.l1 = t.l1 ∧ u.l2 = t.l2 ∧ u.far = t.far ∧ u.ops = t.ops ∧ u.keys = t.keys := by
  have run := exec_tlbWalk (client := client) write up inCtx inSpace
  rw [translate_hole_waits free (r := probe client ctx va write) looked host] at run
  obtain ⟨fq, l1, l2, far, ops, keys⟩ := outcome_buffers s (raiseFault FK.notMapped lo hi (probe client ctx va write) t)
  exact ⟨_, run, fq.trans (raiseFault_first_fq none_ _ _ _ _), l1.trans (raiseFault_first_keeps State.l1 (fun _ _ _ => rfl) (fun _ _ _ => rfl) none_ _ _ _ _),
    l2.trans (raiseFault_first_keeps State.l2 (fun _ _ _ => rfl) (fun _ _ _ => rfl) none_ _ _ _ _),
    far.trans (raiseFault_first_keeps State.far (fun _ _ _ => rfl) (fun _ _ _ => rfl) none_ _ _ _ _),
    ops.trans (raiseFault_first_keeps State.ops (fun _ _ _ => rfl) (fun _ _ _ => rfl) none_ _ _ _ _),
    keys.trans (raiseFault_first_keeps State.keys (fun _ _ _ => rfl) (fun _ _ _ => rfl) none_ _ _ _ _)⟩

theorem Answers.imp {i : Instr} {P Q : State → Prop} (answers : Answers i s P) (implies : ∀ t, P t → Q t) : Answers i s Q := by
  obtain ⟨t, run, holds⟩ := answers
  exact ⟨t, run, implies t holds⟩

/-- Settles O34: the first level, a hole of the second, and what a walk finds. -/
theorem translationHitsOrRaisesFault : Obligations.TranslationHitsOrRaisesFault := by
  unfold Obligations.TranslationHitsOrRaisesFault
  intro s client ctx va write up inCtx inSpace free
  refine ⟨fun e found allowed acct => ?_, fun win l1 host none_ e found hole fatal own => ?_, fun win l1 l2 => ⟨fun lo hi walked => ⟨fun none_ host => ?_, ?_⟩, fun e walked typ acct allowed => ?_⟩⟩
  · rw [exec_tlbWalk write up inCtx inSpace,
      translate_entry free (nowait := false) (r := probe client ctx va write) (lookup_l1 found) ((checkEnt_of_rget rfl _ _).trans allowed) acct]
    rfl
  · have looked := lookup_l2_hole (keep := true) win l1 (by simpa using found) hole
    rw [fatal] at looked
    refine (probe_hole_waits write up inCtx inSpace free looked (fun lost => host ((lstate_of_rget (rget_bump_other (off := R.CNT_TLB_L1_MISS) 1 s (by decide))).symm.trans lost)) none_).imp ?_
    rintro u ⟨fq, l1', -, far, ops, keys⟩
    exact ⟨⟨_, fq, rfl, rfl, rfl, rfl, rfl, rfl, rfl, rfl⟩, l1', far, ops, keys⟩
  · have looked := lookup_walk_hole (keep := true) win l1 (by simpa using l2) walked
    refine (probe_hole_waits write up inCtx inSpace free looked (fun lost => host ((lstate_of_rget (rget_missed s (by decide) (by decide) (by decide))).symm.trans lost)) none_).imp ?_
    rintro u ⟨fq, l1', l2', -⟩
    exact ⟨l2', l1', _, fq, rfl, rfl, rfl, rfl, rfl, rfl⟩
  · intro r client_ ctx_ va_
    have other : s.l2.find? (fun e => e.has ctx va && (false || e.typ != 0 || e.fatal)) = none := by
      rw [List.find?_eq_none] at l2 ⊢
      exact fun e inL2 => by simp [l2 e inL2]
    have looked := lookup_walk_hole (keep := false) win l1 other walked
    exact translate_hole_nowait (by rw [client_, ctx_, va_]; exact looked)
  · have looked := lookup_walk_entry (keep := true) win l1 (by simpa using l2) walked typ
    rw [exec_tlbWalk write up inCtx inSpace, translate_entry free (nowait := false) (r := probe client ctx va write) looked
      ((checkEnt_of_rget (rget_missed s (by decide) (by decide) (by decide)) _ _).trans allowed) acct]

end Sys2Proof.Machine
end

section
/-! Far memory under keys (08 R231, R234; 09 R249, R250): a line decrypts to a line, and a written piece reads back. -/

namespace Sys2Proof.Machine

variable {s t : State}

/-! ### What decrypts to how many bytes -/

theorem length_xorBytes (a b : List Nat) : (xorBytes a b).length = min a.length b.length := by simp [xorBytes]

/-- The words of the key schedule are of 4 bytes, and each step adds one. -/
theorem aesExpand_words (f : Nat) : ∀ ws : List (List Nat), 8 ≤ ws.length → (∀ w ∈ ws, w.length = 4) →
    (aesExpand f ws).length = ws.length + f ∧ ∀ w ∈ aesExpand f ws, w.length = 4 := by
  induction f with
  | zero => exact fun ws _ words => ⟨rfl, words⟩
  | succ f ih =>
    intro ws eight words
    have word_ : ∀ i, i < ws.length → (ws.getD i []).length = 4 := fun i inside => by
      rw [List.getD_eq_getElem _ _ inside]
      exact words _ (List.getElem_mem inside)
    have last := word_ (ws.length - 1) (by omega)
    have first := word_ (ws.length - 8) (by omega)
    have rotated : ∀ w : List Nat, (aesRot w).length = w.length := fun w => by cases w <;> simp [aesRot]
    obtain ⟨length_, all⟩ := ih (ws ++ [xorBytes (ws.getD (ws.length - 8) [])
        (if ws.length % 8 == 0 then xorBytes ((aesRot (ws.getD (ws.length - 1) [])).map aesSub) [aesRcon (ws.length / 8), 0, 0, 0]
          else if ws.length % 8 == 4 then (ws.getD (ws.length - 1) []).map aesSub else ws.getD (ws.length - 1) [])])
      (by simp; omega) (fun w inList => by
        rcases List.mem_append.mp inList with old | new
        · exact words w old
        · rw [List.mem_singleton.mp new, length_xorBytes, first]
          split
          · rw [length_xorBytes, List.length_map, rotated, last]
            rfl
          · split
            · rw [List.length_map, last]
              rfl
            · rw [last]
              rfl)
    refine ⟨?_, all⟩
    rw [aesExpand]
    refine length_.trans ?_
    simp
    omega

/-- The words of a key of 32 bytes. -/
theorem length_sum_fours (l : List (List Nat)) (words : ∀ w ∈ l, w.length = 4) : l.flatten.length = 4 * l.length := by
  induction l with
  | nil => rfl
  | cons w l ih =>
    have rest := ih fun w inList => words w (List.mem_cons_of_mem _ inList)
    have first := words w List.mem_cons_self
    rw [List.flatten_cons, List.length_append, rest, first, List.length_cons]
    omega

theorem aesKeys_length {key : List Nat} (whole : key.length = 32) : ∀ k ∈ aesKeys key, k.length = 16 := by
  have start : ∀ w ∈ (List.range 8).map (fun i => (key.drop (4 * i)).take 4), w.length = 4 := fun w inList => by
    obtain ⟨i, inside, rfl⟩ := List.mem_map.mp inList
    rw [List.mem_range] at inside
    simp [whole]
    omega
  obtain ⟨count, words⟩ := aesExpand_words 52 _ (by simp) start
  intro k inList
  obtain ⟨r, inside, rfl⟩ := List.mem_map.mp inList
  rw [List.mem_range] at inside
  rw [length_sum_fours _ fun w inTaken => words w (List.mem_of_mem_drop (List.mem_of_mem_take inTaken))]
  simp at count
  simp [count]
  omega

theorem length_aesMix {b : List Nat} (block : b.length = 16) : (aesMix b).length = 16 := by
  have column : ∀ l : List Nat, l.length = 4 → (aesMixCol l).length = 4 := fun l four => by
    match l, four with
    | [a, b, c, d], _ => rfl
  rw [aesMix, List.flatMap_def, length_sum_fours _ fun w inList => by
    obtain ⟨c, inside, rfl⟩ := List.mem_map.mp inList
    rw [List.mem_range] at inside
    refine column _ ?_
    simp [block]
    omega]
  simp

/-- The rounds backwards keep the 16 bytes of a block. -/
theorem length_aesUnrounds (ks : List (List Nat)) (keys : ∀ k ∈ ks, k.length = 16) : ∀ b : List Nat, b.length = 16 → (aesUnrounds ks b).length = 16 := by
  induction ks with
  | nil => exact fun b block => block
  | cons k r ih =>
    have one := keys k List.mem_cons_self
    intro b block
    cases r with
    | nil => rw [aesUnrounds, length_xorBytes, block, one]; rfl
    | cons k' r =>
      rw [aesUnrounds]
      · exact ih (fun k inList => keys k (List.mem_cons_of_mem _ inList)) _ (by simp [aesUnshift])
      · simp

theorem length_natBytes (n v : Nat) : (natBytes n v).length = n := by simp [natBytes]

theorem length_aes256Inv {key block : List Nat} (whole : key.length = 32) (sixteen : block.length = 16) : (aes256Inv key block).length = 16 :=
  length_aesUnrounds _ (fun k inList => aesKeys_length whole k (List.mem_reverse.mp inList)) _ sixteen

theorem length_xtsBlocks {cipher : List Nat → List Nat} (keeps : ∀ b, b.length = 16 → (cipher b).length = 16) (f : Nat) :
    ∀ (tweak : Nat) (d : List Nat), d.length = 16 * f → (xtsBlocks cipher f tweak d).length = 16 * f := by
  induction f with
  | zero => exact fun _ _ _ => rfl
  | succ f ih =>
    intro tweak d blocks
    have block : (xorBytes (d.take 16) (natBytes 16 tweak)).length = 16 := by
      rw [length_xorBytes, length_natBytes, List.length_take]
      omega
    rw [xtsBlocks, List.length_append, length_xorBytes, keeps _ block, length_natBytes, ih _ _ (by rw [List.length_drop]; omega)]
    omega

/-- A stored line decrypts to 64 bytes under any key. -/
theorem length_xtsUnline (k tweak : Nat) {line : Bytes} (least : line.length ≤ 64) : (xtsUnline k tweak line).length = 64 := by
  rw [xtsUnline, xtsWith, List.length_map]
  exact length_xtsBlocks (fun b block => length_aes256Inv (length_natBytes 32 _) block) 4 _ _ (by simp [padTo, zeros]; omega)

theorem length_xtsBlocks_le (cipher : List Nat → List Nat) (f : Nat) : ∀ (tweak : Nat) (d : List Nat), (xtsBlocks cipher f tweak d).length ≤ 16 * f := by
  induction f with
  | zero => exact fun _ _ => Nat.le_refl 0
  | succ f ih =>
    intro tweak d
    have rest := ih (xtsNext tweak) (d.drop 16)
    rw [xtsBlocks, List.length_append, length_xorBytes, length_natBytes]
    omega

theorem length_xtsLine_le (k tweak : Nat) (line : Bytes) : (xtsLine k tweak line).length ≤ 64 := by
  rw [xtsLine, xtsWith, List.length_map]
  exact length_xtsBlocks_le _ 4 _ _

theorem length_farOther (s : State) (key pa : Nat) : (farOther s key pa).length = 64 := by
  rw [farOther, xtsOther]
  split
  · simp
  · exact length_xtsUnline _ _ (length_xtsLine_le _ _ _)

/-! ### A write of a piece of a line -/

/-- What the line of a piece holds before the piece is merged: as it is, or as it decrypts under the key of the write. -/
def lineMerged (key pa n : Nat) (s : State) : List Host.Cell :=
  if n == 64 || lineReads s key pa then s.far else farPutBytes (pa / 64 * 64) (farOther s key pa) s.far

section
variable {key pa : Nat} {d : Bytes} (port : hbmFailed s (stackOf pa) = false) (whole : d.length = 64 ∨ s.ueLines.contains (pa / 64) = false)
include port whole

theorem farWriteLine_eq : farWriteLine key (pa, d) s = pmc PMC.farWrite none (some (stackOf pa)) none 1 { s with
    far := farPutBytes pa d (lineMerged key pa d.length s)
    lineKey := mput (pa / 64) key s.lineKey
    ueLines := if d.length == 64 then s.ueLines.filter (fun l => l != pa / 64) else s.ueLines } := by
  have taken : (hbmFailed s (stackOf pa) || (d.length != 64 && s.ueLines.contains (pa / 64))) = false := by
    rcases whole with all | good
    · simp [port, all]
    · rw [port, good, Bool.and_false, Bool.or_false]
  rw [farWriteLine]
  dsimp only
  rw [taken]
  rfl

theorem farWriteLine_keeps {β : Type} (g : State → β) (ofRset : ∀ off w s, g (rset off w s) = g s)
    (ofLine : g { s with
      far := farPutBytes pa d (lineMerged key pa d.length s)
      lineKey := mput (pa / 64) key s.lineKey
      ueLines := if d.length == 64 then s.ueLines.filter (fun l => l != pa / 64) else s.ueLines } = g s) : g (farWriteLine key (pa, d) s) = g s := by
  rw [farWriteLine_eq port whole]
  exact (pmc_keeps g ofRset _ _ _ _ _ _).trans ofLine

theorem farWriteLine_far : (farWriteLine key (pa, d) s).far = farPutBytes pa d (lineMerged key pa d.length s) := by
  rw [farWriteLine_eq port whole]
  exact pmc_keeps State.far (fun _ _ _ => rfl) _ _ _ _ _ _

theorem farWriteLine_lineKey : (farWriteLine key (pa, d) s).lineKey = mput (pa / 64) key s.lineKey := by
  rw [farWriteLine_eq port whole]
  exact pmc_keeps State.lineKey (fun _ _ _ => rfl) _ _ _ _ _ _

/-- A byte after the write: the piece's own, or that of the merged line. -/
theorem farByte_farWriteLine (a : Nat) : farByte (farWriteLine key (pa, d) s) a
    = if pa ≤ a ∧ a < pa + d.length then d.getD (a - pa) (Config.farFresh s.farGen a) else mgetD a (Config.farFresh s.farGen a) (lineMerged key pa d.length s) := by
  have gen : (farWriteLine key (pa, d) s).farGen = s.farGen := farWriteLine_keeps port whole State.farGen (fun _ _ _ => rfl) rfl
  rw [farByte, gen, farWriteLine_far port whole, byte_farPutBytes]

/-- The written line reads under the key of the write as it stands. -/
theorem farReadByte_written {a : Nat} (inLine : a / 64 = pa / 64) : farReadByte (farWriteLine key (pa, d) s) key a = farByte (farWriteLine key (pa, d) s) a := by
  have reads : lineReads (farWriteLine key (pa, d) s) key a = true := by
    rw [lineReads, farWriteLine_lineKey port whole, inLine, mfind_mput_self]
    exact beq_self_eq_true key
  rw [farReadByte, reads, if_pos rfl]

/-- A byte of another line is as it was, and so is its key. -/
theorem farByte_otherLine (fits : pa % 64 + d.length ≤ 64) {a : Nat} (other : a / 64 ≠ pa / 64) : farByte (farWriteLine key (pa, d) s) a = farByte s a := by
  rw [farByte_farWriteLine port whole, if_neg (by omega), lineMerged]
  split
  · rfl
  · rw [byte_farPutBytes, length_farOther, if_neg (by omega)]
    rfl

theorem farReadByte_otherLine (fits : pa % 64 + d.length ≤ 64) {a : Nat} (other : a / 64 ≠ pa / 64) (k : Nat) :
    farReadByte (farWriteLine key (pa, d) s) k a = farReadByte s k a := by
  have key_ : mfind (a / 64) (farWriteLine key (pa, d) s).lineKey = mfind (a / 64) s.lineKey := by
    rw [farWriteLine_lineKey port whole, mfind_mput_other _ other]
  have line : ∀ i, i < 64 → farByte (farWriteLine key (pa, d) s) (a / 64 * 64 + i) = farByte s (a / 64 * 64 + i) :=
    fun i inside => farByte_otherLine port whole fits (by omega)
  have other_ : farOther (farWriteLine key (pa, d) s) k a = farOther s k a := by
    rw [farOther, farOther, mgetD, key_, List.map_congr_left fun i inRange => line i (List.mem_range.mp inRange)]
    rfl
  rw [farReadByte, farReadByte, lineReads, lineReads, key_, farByte_otherLine port whole fits other, other_]

/-- A byte of the written line that is not of the piece reads under the key as before. -/
theorem farReadByte_restOfLine (fits : pa % 64 + d.length ≤ 64) {a : Nat} (inLine : a / 64 = pa / 64) (outside : a < pa ∨ pa + d.length ≤ a) :
    farReadByte (farWriteLine key (pa, d) s) key a = farReadByte s key a := by
  have partial_ : (d.length == 64) = false := by simp; omega
  rw [farReadByte_written port whole inLine, farByte_farWriteLine port whole, if_neg (by omega), lineMerged, partial_, Bool.false_or]
  have same : lineReads s key a = lineReads s key pa := by rw [lineReads, lineReads, inLine]
  have other_ : farOther s key a = farOther s key pa := by rw [farOther, farOther, inLine]
  rw [farReadByte, same, other_]
  cases lineReads s key pa with
  | true => rfl
  | false =>
    simp only [Bool.false_eq_true, if_false]
    rw [byte_farPutBytes, length_farOther, if_pos (by omega), List.getD_eq_getElem _ _ (by rw [length_farOther]; omega), List.getD_eq_getElem _ _ (by rw [length_farOther]; omega)]
    congr 1
    omega

end

/-- Settles O38: the piece is put last into its line, and other lines keep bytes and key. -/
theorem farWriteReadsBack : Obligations.FarWriteReadsBack := by
  unfold Obligations.FarWriteReadsBack
  intro s key pa d wf port some_ fits whole t
  have own : ∀ i, i < d.length → farByte t (pa + i) = d.getD i 0 := fun i inside => by
    rw [show farByte t (pa + i) = _ from farByte_farWriteLine port whole (pa + i), if_pos (by omega), Nat.add_sub_cancel_left,
      List.getD_eq_getElem _ _ inside, List.getD_eq_getElem _ _ inside]
  refine ⟨own, fun a inLine outside => farReadByte_restOfLine port whole fits inLine outside,
    fun a other => ⟨farByte_otherLine port whole fits other, farReadByte_otherLine port whole fits other⟩, ?_, fun l other => ?_,
    wf_farWriteLine key (pa, d) s wf, farWriteLine_keeps port whole State.ops (fun _ _ _ => rfl) rfl, farWriteLine_keeps port whole State.keys (fun _ _ _ => rfl) rfl⟩
  · refine List.ext_getElem (by simp [farRead]) fun i left right => ?_
    simp only [farRead, List.getElem_map, List.getElem_range]
    rw [show farReadByte t key (pa + i) = farByte t (pa + i) from farReadByte_written port whole (by omega), own i right,
      List.getD_eq_getElem _ _ right]
  · rw [show t.lineKey = _ from farWriteLine_lineKey port whole, mfind_mput_other _ other]

end Sys2Proof.Machine
end

section
/-! The write of a register by the access codes of its bits (00 R9 to R11), and the order in which a check names failing fields (15 R407). -/

namespace Sys2Proof.Machine

variable {s t : State}

/-! ### Bits of sums and differences -/

theorem not_both_odd {a b : Nat} (apart : a &&& b = 0) : ¬ (a % 2 = 1 ∧ b % 2 = 1) := by
  rintro ⟨ha, hb⟩
  have low := congrArg (fun n => n.testBit 0) apart
  rw [Nat.testBit_and, Nat.testBit_zero, Nat.testBit_zero, ha, hb] at low
  exact absurd low (by decide)

/-- Numbers without a common bit add without a carry. -/
theorem testBit_add_apart (i : Nat) : ∀ {a b : Nat}, a &&& b = 0 → (a + b).testBit i = (a.testBit i || b.testBit i) := by
  induction i with
  | zero =>
    intro a b apart
    have odd := not_both_odd apart
    rw [Nat.testBit_zero, Nat.testBit_zero, Nat.testBit_zero, ← Bool.decide_or, decide_eq_decide]
    omega
  | succ i ih =>
    intro a b apart
    have odd := not_both_odd apart
    have halves : (a + b) / 2 = a / 2 + b / 2 := by omega
    have rest : a / 2 &&& b / 2 = 0 := by rw [← Nat.and_div_two, apart]
    rw [Nat.testBit_succ, Nat.testBit_succ, Nat.testBit_succ, halves, ih rest]

/-- Taking the bits of a mask away. -/
theorem testBit_sub_and (a m i : Nat) : (a - (a &&& m)).testBit i = (a.testBit i && !m.testBit i) := by
  have apart : (a &&& m) &&& (a ^^^ (a &&& m)) = 0 := Nat.eq_of_testBit_eq fun j => by
    simp only [Nat.testBit_and, Nat.testBit_xor, Nat.zero_testBit]
    cases a.testBit j <;> cases m.testBit j <;> rfl
  have whole : (a &&& m) + (a ^^^ (a &&& m)) = a := Nat.eq_of_testBit_eq fun j => by
    rw [testBit_add_apart j apart]
    simp only [Nat.testBit_and, Nat.testBit_xor]
    cases a.testBit j <;> cases m.testBit j <;> rfl
  rw [show a - (a &&& m) = a ^^^ (a &&& m) by omega]
  simp only [Nat.testBit_and, Nat.testBit_xor]
  cases a.testBit i <;> cases m.testBit i <;> rfl

/-- A merged word takes the bits of the mask from the data and keeps the others. -/
theorem testBit_merge (old mask data i : Nat) : (merge old mask data).testBit i = if mask.testBit i then data.testBit i else old.testBit i := by
  have apart : (old - (old &&& mask)) &&& (data &&& mask) = 0 := Nat.eq_of_testBit_eq fun j => by
    simp only [Nat.testBit_and, testBit_sub_and, Nat.zero_testBit]
    cases mask.testBit j <;> simp
  rw [merge, testBit_add_apart i apart, testBit_sub_and, Nat.testBit_and]
  cases mask.testBit i <;> simp

/-! ### A write by the access codes -/

/-- The value a whole write leaves in a register without a mask field. -/
def writtenWhole (r : RegRow) (old data : Nat) : Nat :=
  merge old r.rw data - (merge old r.rw data &&& (data &&& r.w1c))

theorem testBit_writtenWhole (r : RegRow) (apart : r.rw &&& r.w1c = 0) (old data i : Nat) : (writtenWhole r old data).testBit i
    = if r.rw.testBit i then data.testBit i else if r.w1c.testBit i then old.testBit i && !data.testBit i else old.testBit i := by
  have one : (r.rw.testBit i && r.w1c.testBit i) = false := by rw [← Nat.testBit_and, apart, Nat.zero_testBit]
  rw [writtenWhole, testBit_sub_and, testBit_merge, Nat.testBit_and]
  cases rw_ : r.rw.testBit i <;> cases w1c_ : r.w1c.testBit i <;> simp_all

theorem writeFields_whole {off : Nat} {r : RegRow} (v : Word) (st : r.st = 0) (mask : r.mn = 0) (rw_ : r.rw < 2 ^ 64) :
    writeFields off r (2 ^ 64 - 1) v.toNat s = if r.rw = 0 ∧ r.w1c = 0 then s else rset off (word (writtenWhole r (rget s off).toNat v.toNat)) s := by
  have rwMask : (2 ^ 64 - 1) &&& r.rw = r.rw := by rw [Nat.and_comm, Nat.and_two_pow_sub_one_of_lt_two_pow rw_]
  have dataMask : v.toNat &&& (2 ^ 64 - 1) = v.toNat := Nat.and_two_pow_sub_one_of_lt_two_pow v.isLt
  unfold writeFields
  simp only [st, bne_self_eq_false, Bool.false_eq_true, if_false, Bool.and_eq_true, beq_iff_eq, rwMask, dataMask, clearMask, mask, Bool.false_and]
  rfl

/-- Settles O56: each bit of the word written is that of its access code. -/
theorem writeTakesEachBitByItsAccess : Obligations.WriteTakesEachBitByItsAccess := by
  unfold Obligations.WriteTakesEachBitByItsAccess
  intro s off r v st mask apart rw_ w1c_ t
  have written : t = _ := writeFields_whole (s := s) (off := off) v st mask rw_
  by_cases none_ : r.rw = 0 ∧ r.w1c = 0
  · rw [if_pos none_] at written
    rw [written, none_.1, none_.2]
    simp
  · rw [if_neg none_] at written
    rw [written]
    refine ⟨fun i inside => ?_, fun o other => rget_rset_other _ _ other, rfl, rfl, rfl⟩
    rw [rget_rset_self, BitVec.getLsbD, toNat_word, Nat.testBit_mod_two_pow, testBit_writtenWhole r apart]
    simp [inside, BitVec.getLsbD]

/-! ### The first failing field -/

section
variable {α : Type} {key : α → Nat}

theorem mem_insertBy (x y : α) (l : List α) : y ∈ insertBy key x l ↔ y = x ∨ y ∈ l := by
  induction l with
  | nil => simp [insertBy]
  | cons z r ih =>
    rw [insertBy]
    split
    · simp
    · simp [ih, or_left_comm]

/-- The head of a list is among the least of it. -/
def HeadLeast (key : α → Nat) (l : List α) : Prop := ∀ x, l.head? = some x → ∀ y ∈ l, key x ≤ key y

theorem headLeast_insertBy (x : α) {l : List α} (least : HeadLeast key l) : HeadLeast key (insertBy key x l) := by
  cases l with
  | nil =>
    intro y head z inList
    simp only [insertBy, List.head?_cons, Option.some.injEq, List.mem_singleton] at head inList
    rw [← head, inList]
  | cons w r =>
    intro y head z inList
    have first := least w rfl
    rw [mem_insertBy] at inList
    rw [insertBy] at head
    split at head
    next before =>
      obtain rfl : x = y := by simpa using head
      rcases inList with rfl | old
      · exact Nat.le_refl _
      · exact Nat.le_of_lt (Nat.lt_of_lt_of_le before (first z old))
    next after_ =>
      obtain rfl : w = y := by simpa using head
      rcases inList with rfl | old
      · omega
      · exact first z old

theorem sortBy_spec (l : List α) : ∀ {acc : List α}, HeadLeast key acc →
    HeadLeast key (l.foldl (fun acc x => insertBy key x acc) acc) ∧ ∀ y, y ∈ l.foldl (fun acc x => insertBy key x acc) acc ↔ y ∈ l ∨ y ∈ acc := by
  induction l with
  | nil => exact fun least => ⟨least, by simp⟩
  | cons x l ih =>
    intro acc least
    obtain ⟨sorted, same⟩ := ih (headLeast_insertBy x least)
    refine ⟨sorted, fun y => (same y).trans ?_⟩
    rw [mem_insertBy, List.mem_cons]
    tauto

theorem headLeast_sortBy (l : List α) : HeadLeast key (sortBy key l) := (sortBy_spec l (acc := []) (by simp [HeadLeast])).1

theorem mem_sortBy (l : List α) (y : α) : y ∈ sortBy key l ↔ y ∈ l := ((sortBy_spec l (acc := []) (by simp [HeadLeast])).2 y).trans (by simp)

end

/-- Settles O53: the field a check names heads the failing fields sorted by their place. -/
theorem checkNamesFirstFailingField : Obligations.CheckNamesFirstFailingField := by
  unfold Obligations.CheckNamesFirstFailingField
  intro s
  refine ⟨?_, fun x first => ⟨(mem_sortBy _ x).mp (List.mem_of_head? first), fun y failing => headLeast_sortBy _ x first y ((mem_sortBy _ y).mpr failing)⟩⟩
  rw [firstFail, List.head?_eq_none_iff, List.eq_nil_iff_forall_not_mem, List.eq_nil_iff_forall_not_mem]
  exact forall_congr' fun y => not_congr (mem_sortBy _ y)

end Sys2Proof.Machine
end

section
/-! Sequenced flits of a port (10 R275, R276, R277). -/

namespace Sys2Proof.Machine

variable {s t : State}

/-! ### Ports -/

theorem port_updPort_self {k : Nat} (f : PortSt → PortSt) (s : State) (known : k < s.ports.length) : port (updPort k f s) k = f (port s k) := by
  simp [port, List.getD_eq_getElem?_getD, List.getElem?_modify_eq, List.getElem?_eq_getElem known]

theorem port_updPort_other {k j : Nat} (f : PortSt → PortSt) (s : State) (other : j ≠ k) : port (updPort k f s) j = port s j := by
  simp [port, List.getD_eq_getElem?_getD, Ne.symm other]

/-- A part of a port's state that a change leaves alone. -/
theorem port_updPort_keeps {β : Type} (part : PortSt → β) (k : Nat) (f : PortSt → PortSt) (keeps : ∀ q, part (f q) = part q) (j : Nat) (s : State) :
    part (port (updPort k f s) j) = part (port s j) := by
  by_cases same : j = k
  · subst same
    by_cases known : j < s.ports.length
    · rw [port_updPort_self f s known, keeps]
    · rw [port, port, List.getD_eq_default _ _ (by simpa using known), List.getD_eq_default _ _ (by omega)]
  · rw [port_updPort_other f s same]

/-- Two changes that agree on a port's state are one change. -/
theorem updPort_congr {k : Nat} {f g : PortSt → PortSt} (s : State) (same : f (port s k) = g (port s k)) : updPort k f s = updPort k g s := by
  have ports : s.ports.modify k f = s.ports.modify k g := List.ext_getElem? fun i => by
    rw [List.getElem?_modify, List.getElem?_modify]
    by_cases at_ : k = i
    · subst at_
      cases found : s.ports[k]? with
      | none => rfl
      | some q =>
        rw [port, List.getD_eq_getElem?_getD, found] at same
        simpa using same
    · simp [at_]
  rw [updPort, ports]
  rfl

/-! ### What a port sends -/

/-- A flit sent changes what has left the block, and its port's count. -/
theorem emitFlit_keeps {β : Type} {k : Nat} (g : State → β) (ofOut : ∀ o (s : State), g { s with out := o } = g s)
    (ofCount : ∀ (f : PortSt → Nat) (s : State), g (updPort k (fun q => { q with flits := f q }) s) = g s) (hdr : Word) (payload : Bytes) (s : State) :
    g (emitFlit k hdr payload s) = g s := (ofOut _ _).trans (ofCount _ s)

/-- Whether the flit expected was asked for in the last 500 ns. -/
def nakSoon (s : State) (k : Nat) : Bool := (port s k).nakSent.any fun x => x.1 == (port s k).rxSeq && decide (s.aon < x.2 + 500)

theorem sendNak_eq (k : Nat) (s : State) : sendNak k s = if nakSoon s k then s
    else updPort k (fun q => { q with nakSent := some (q.rxSeq, s.aon) }) (sendIdle k (port s k).rxSeq true true 15 0 s) := by
  unfold sendNak nakSoon
  dsimp only
  cases (port s k).nakSent with
  | none => rfl
  | some x => rfl

theorem sendNak_keeps {β : Type} {k : Nat} (g : State → β) (ofOut : ∀ o (s : State), g { s with out := o } = g s)
    (ofCount : ∀ (f : PortSt → Nat) (s : State), g (updPort k (fun q => { q with flits := f q }) s) = g s)
    (ofNak : ∀ (f : PortSt → Option (Nat × Nat)) (s : State), g (updPort k (fun q => { q with nakSent := f q }) s) = g s) (s : State) : g (sendNak k s) = g s := by
  rw [sendNak_eq]
  split
  · rfl
  · exact (ofNak _ _).trans (emitFlit_keeps g ofOut ofCount _ _ s)

/-- An acknowledgement leaves what leaves out what is sent, its counts and what is owed. -/
theorem sendAck_keeps {β : Type} {k : Nat} (g : State → β) (ofOut : ∀ o (s : State), g { s with out := o } = g s)
    (ofCount : ∀ (f : PortSt → Nat) (s : State), g (updPort k (fun q => { q with flits := f q }) s) = g s)
    (ofOwed : ∀ (s : State), g (updPort k (fun q => { q with owed := 0, freed := [] }) s) = g s) (s : State) : g (sendAck k s) = g s := by
  unfold sendAck
  dsimp only
  refine (ofOwed _).trans ?_
  split
  · exact emitFlit_keeps g ofOut ofCount _ _ s
  · exact each_keeps g (fun x s => emitFlit_keeps g ofOut ofCount _ _ s) _ s

/-- Accepting a flit counts it and leaves what leaves out registers, what is sent and the port's counts. -/
theorem acceptFlit_keeps {β : Type} {k : Nat} (g : State → β) (ofRset : ∀ off w s, g (rset off w s) = g s) (ofOut : ∀ o (s : State), g { s with out := o } = g s)
    (ofCount : ∀ (f : PortSt → Nat) (s : State), g (updPort k (fun q => { q with flits := f q }) s) = g s)
    (ofOwed : ∀ (s : State), g (updPort k (fun q => { q with owed := 0, freed := [] }) s) = g s) (s : State) :
    g (acceptFlit k s) = g (updPort k (fun q => { q with rxSeq := q.rxSeq + 1, owed := q.owed + 1, nakSent := none }) s) := by
  have counted := pmc_keeps g ofRset PMC.peerRx none (some k) none 1 (updPort k (fun q => { q with rxSeq := q.rxSeq + 1, owed := q.owed + 1, nakSent := none }) s)
  unfold acceptFlit
  dsimp only
  split
  · exact (sendAck_keeps g ofOut ofCount ofOwed _).trans counted
  · exact counted

theorem rxSeq_acceptFlit {k : Nat} (known : k < s.ports.length) : (port (acceptFlit k s) k).rxSeq = (port s k).rxSeq + 1 := by
  rw [acceptFlit_keeps (fun s => (port s k).rxSeq) (fun _ _ _ => rfl) (fun _ _ => rfl) (fun f s => port_updPort_keeps (·.rxSeq) k _ (by intro _; rfl) k s)
    (fun s => port_updPort_keeps (·.rxSeq) k _ (by intro _; rfl) k s), port_updPort_self _ _ known]

theorem arrived_acceptFlit (k : Nat) (s : State) : (acceptFlit k s).arrived = s.arrived :=
  acceptFlit_keeps State.arrived (fun _ _ _ => rfl) (fun _ _ => rfl) (fun _ _ => rfl) (fun _ => rfl) s

/-- The IDLE flit of a NAK names the flit expected, with ACK_VALID and NAK set. -/
theorem nakHeader_fields (n : Nat) : wbits (idleHeader n true true 15 0) 19 12 = n % 4096 ∧ wbit (idleHeader n true true 15 0) 31 = true
    ∧ wbit (idleHeader n true true 15 0) 32 = true := by
  have value : (idleHeader n true true 15 0).toNat = (n % 4096) * 2 ^ 19 + (2 ^ 31 + 2 ^ 32 + 15 * 2 ^ 33) := by
    rw [idleHeader, toNat_word]
    simp only [fld, Nat.shiftLeft_eq, natOfBool, if_true]
    omega
  simp only [wbit, wbits, bits, value, Nat.shiftRight_eq_div_pow, beq_iff_eq]
  omega

/-! ### A sequenced flit -/

section
variable {k : Nat} {hdr : Word} {b : Bytes}

theorem flitSeq_old (apart : (wbits hdr 7 12 + 4096 - (port s k).rxSeq % 4096) % 4096 ≠ 0) (old : 2048 ≤ (wbits hdr 7 12 + 4096 - (port s k).rxSeq % 4096) % 4096) :
    flitSeq k hdr b s = s := by
  simp [flitSeq, apart, Nat.not_lt.mpr old]

theorem flitSeq_later (apart : (wbits hdr 7 12 + 4096 - (port s k).rxSeq % 4096) % 4096 ≠ 0) (later : (wbits hdr 7 12 + 4096 - (port s k).rxSeq % 4096) % 4096 < 2048) :
    flitSeq k hdr b s = sendNak k s := by
  simp [flitSeq, apart, later]

variable (next_ : (wbits hdr 7 12 + 4096 - (port s k).rxSeq % 4096) % 4096 = 0)
include next_

theorem flitSeq_next : flitSeq k hdr b s = if wbits hdr 0 2 == 3 then acceptFlit k s
    else if decide (5 ≤ wbits hdr 2 3) || wbits hdr 5 2 == 3 then takeFlit k (15 + 3 * (4 * wbits hdr 2 3 + wbits hdr 5 2)) (wbits hdr 0 2 == 1) b (acceptFlit k s)
    else if vcCap (wbits hdr 5 2) ≤ occupancy s k (3 * wbits hdr 2 3 + wbits hdr 5 2) then retrainPort k (vlog VK.creditOverrun (portSource k) 0 0 0 0 s)
    else takeFlit k (3 * wbits hdr 2 3 + wbits hdr 5 2) (wbits hdr 0 2 == 1) b (acceptFlit k s) := by
  simp only [flitSeq, next_, bne_self_eq_false, Bool.false_eq_true, if_false]

end

/-- Settles O45: the distance of a flit from the one expected decides, then its type, class and room. -/
theorem onlyNextFlitIsAccepted : Obligations.OnlyNextFlitIsAccepted := by
  unfold Obligations.OnlyNextFlitIsAccepted
  intro s k hdr b inRange six d
  have known : k < s.ports.length := by omega
  refine ⟨fun apart old => flitSeq_old apart old, fun apart later => ?_, fun spaced => ?_, nakHeader_fields, fun t sent soon => ?_, rxSeq_acceptFlit known,
    arrived_acceptFlit k s, fun next_ typ => ?_, fun next_ typ cls vc => ⟨fun room => ?_, fun full => ?_⟩, fun next_ typ reserved => ?_⟩
  · have asked : flitSeq k hdr b s = sendNak k s := flitSeq_later apart later
    rw [asked]
    have part_ : ∀ {β : Type} (part : PortSt → β), (∀ q n, part { q with flits := n } = part q) → (∀ q n, part { q with nakSent := n } = part q) →
        part (port (sendNak k s) k) = part (port s k) := fun part ofCount ofNak =>
      sendNak_keeps (fun s => part (port s k)) (fun _ _ => rfl) (fun f s => port_updPort_keeps part k _ (fun q => ofCount q _) k s)
        (fun f s => port_updPort_keeps part k _ (fun q => ofNak q _) k s) s
    exact ⟨part_ (·.rxSeq) (fun _ _ => rfl) (fun _ _ => rfl), part_ (·.part) (fun _ _ => rfl) (fun _ _ => rfl),
      sendNak_keeps State.arrived (fun _ _ => rfl) (fun _ _ => rfl) (fun _ _ => rfl) s,
      sendNak_keeps State.regs (fun _ _ => rfl) (fun _ _ => rfl) (fun _ _ => rfl) s, rfl⟩
  · have spaced_ : nakSoon s k = false := by
      rw [nakSoon, Option.any_eq_false]
      rintro ⟨n, at_⟩ sent
      have bound := spaced n at_ sent
      simpa using bound
    rw [sendNak_eq, spaced_, if_neg Bool.false_ne_true]
    refine updPort_congr _ ?_
    have seq : (port (sendIdle k (port s k).rxSeq true true 15 0 s) k).rxSeq = (port s k).rxSeq :=
      emitFlit_keeps (fun s => (port s k).rxSeq) (fun _ _ => rfl) (fun f s => port_updPort_keeps (·.rxSeq) k _ (by intro _; rfl) k s) _ _ s
    rw [seq]
  · rw [sendNak_eq, nakSoon, sent]
    simp [soon]
  · rw [flitSeq_next next_, typ]
    rfl
  · have open_ : (decide (5 ≤ wbits hdr 2 3) || wbits hdr 5 2 == 3) = false := by simp [vc]; omega
    rw [flitSeq_next next_, if_neg (by simpa using typ), open_, if_neg Bool.false_ne_true, if_neg (Nat.not_le.mpr room)]
  · have open_ : (decide (5 ≤ wbits hdr 2 3) || wbits hdr 5 2 == 3) = false := by simp [vc]; omega
    rw [flitSeq_next next_, if_neg (by simpa using typ), open_, if_neg Bool.false_ne_true, if_pos full]
  · have apart : (decide (5 ≤ wbits hdr 2 3) || wbits hdr 5 2 == 3) = true := by simpa using reserved
    rw [flitSeq_next next_, if_neg (by simpa using typ), apart, if_pos rfl]

end Sys2Proof.Machine
end

section
/-! What sending on the peer links leaves alone (10 R274 to R285): flits, packets, link records and the start of training. -/

namespace Sys2Proof.Machine

/-- The registers that sending on a link writes. -/
structure LinkRegs (unread : Nat → Prop) : Prop where
  pmc : ∀ i, unread (R.CNT_PMCi i)
  escape : unread R.CNT_LNK_ESCAPE
  compass : unread R.LNK_COMPASS_GEN
  host : unread R.HST_STATE

/-- A part of the state that no field of the links is in, and of whose registers sending writes none. -/
structure LinkFrame {β : Type} (unread : Nat → Prop) (g : State → β) : Prop extends LinkRegs unread where
  regs : ∀ off w s, unread off → g (rset off w s) = g s
  out : ∀ o (s : State), g { s with out := o } = g s
  ports : ∀ l (s : State), g { s with ports := l } = g s
  fresh : ∀ n (s : State), g { s with fresh := n } = g s
  streams : ∀ l (s : State), g { s with ostreams := l } = g s
  sendQ : ∀ l (s : State), g { s with sendQ := l } = g s
  linkMap : ∀ l (s : State), g { s with linkMap := l } = g s
  awaits : ∀ l (s : State), g { s with awaits := l } = g s

/-- Every register but one, where sending does not write that one. -/
theorem LinkRegs.but {o : Nat} (pmc : ∀ i, R.CNT_PMCi i ≠ o) (others : o ∉ [R.CNT_LNK_ESCAPE, R.LNK_COMPASS_GEN, R.HST_STATE]) :
    LinkRegs (· ≠ o) := by
  simp only [List.mem_cons, List.not_mem_nil, or_false, not_or] at others
  obtain ⟨escape, compass, host⟩ := others
  exact ⟨pmc, Ne.symm escape, Ne.symm compass, Ne.symm host⟩

/-- A part of the state that no register is in. -/
theorem LinkRegs.all : LinkRegs fun _ => True := ⟨fun _ => trivial, trivial, trivial, trivial⟩

namespace LinkFrame

variable {β : Type} {unread : Nat → Prop} {g : State → β} (frame : LinkFrame unread g)
include frame

theorem counted (ev : Nat) (part port job : Option Nat) (n : Nat) (s : State) : g (pmc ev part port job n s) = g s :=
  each_keeps g (fun i s => by
    split
    · exact frame.regs _ _ _ (frame.pmc i)
    · rfl) _ s

theorem emitFlit (k : Nat) (hdr : Word) (payload : Bytes) (s : State) : g (emitFlit k hdr payload s) = g s :=
  (frame.out _ _).trans (frame.ports _ s)

theorem pushFlit {k i : Nat} {s t : State} (sent : pushFlit k i s = some t) : g t = g s := by
  unfold Machine.pushFlit at sent
  split at sent
  · cases sent
  · obtain ⟨-, sent⟩ := Option.ite_none_left_eq_some.mp sent
    cases sent
    exact (frame.emitFlit _ _ _ _).trans <| (frame.counted _ _ _ _ _ _).trans (frame.ports _ s)

theorem pushFlits (k i n : Nat) (s : State) : g (pushFlits k i n s) = g s := by
  induction n generalizing s with
  | zero => rfl
  | succ n ih =>
    unfold Machine.pushFlits
    split
    next sent => exact (ih _).trans (frame.pushFlit sent)
    next => rfl

theorem pumpPort (k : Nat) (s : State) : g (pumpPort k s) = g s := by
  unfold Machine.pumpPort
  split
  · rfl
  · exact each_keeps g (fun _ _ => frame.pushFlits _ _ _ _) _ s

theorem transmit (k vc : Nat) (p : Packet) (s : State) : g (transmit k vc p s) = g s :=
  (frame.pumpPort _ _).trans (frame.ports _ s)

theorem sendLink (k : Nat) (payload : Bytes) (s : State) : g (sendLink k payload s) = g s :=
  (frame.pumpPort _ _).trans (frame.ports _ s)

theorem pickPort (l : List Nat) (s : State) : g (pickPort l s).2 = g s := by
  unfold Machine.pickPort
  split
  · rfl
  · rfl
  · exact frame.fresh _ s

theorem tryRoute {a : Option Nat} {p : Packet} {s t : State} (sent : tryRoute a p s = some t) : g t = g s := by
  rcases ite_eq_iff.mp sent with ⟨-, sent⟩ | ⟨-, sent⟩
  · cases sent
    exact (frame.transmit ..).trans (frame.pickPort _ s)
  · split at sent
    · cases sent
    · obtain ⟨-, sent⟩ := Option.ite_none_right_eq_some.mp sent
      cases sent
      refine (frame.transmit ..).trans ?_
      split
      · rfl
      · exact frame.regs _ _ _ frame.escape

theorem routePacket (a : Option Nat) (p : Packet) (s : State) : g (routePacket a p s) = g s := by
  unfold Machine.routePacket
  split
  next sent => exact frame.tryRoute sent
  next => exact frame.sendQ _ s

theorem sendPacket (dest cls kind jobId : Nat) (body : Bytes) (s : State) : g (sendPacket dest cls kind jobId body s) = g s := by
  unfold Machine.sendPacket
  dsimp only
  split
  · split
    · exact (frame.routePacket _ _ _).trans (frame.streams _ s)
    · exact frame.streams _ s
  · exact frame.routePacket _ _ s

theorem sendAwaited (kind what : Nat) (blocks : List Nat) (jobId : Nat) (body : Bytes) (s : State) : g (sendAwaited kind what blocks jobId body s) = g s := by
  unfold Machine.sendAwaited
  split
  · rfl
  · exact (each_keeps g (fun _ _ => frame.sendPacket _ _ _ _ _ _) _ _).trans (frame.awaits _ s)

theorem flood (but : Option Nat) (block rport : Nat) (r : LinkRec) (s : State) : g (flood but block rport r s) = g s :=
  each_keeps g (fun _ _ => frame.sendLink _ _ _) _ s

theorem compassDue (s : State) : g (compassDue s) = g s := frame.regs _ _ _ frame.compass

theorem raiseRecord (k : Nat) (s : State) : g (raiseRecord k s) = g s := by
  unfold Machine.raiseRecord
  dsimp only
  generalize (if portState s k == PS.retrain then PS.up else portState s k) = st
  split
  · rfl
  · exact (frame.flood _ _ _ _ _).trans <| (frame.compassDue _).trans (frame.linkMap _ s)

theorem setLanes {k : Nat} (status : unread (R.LNK_Pk_STATUS k)) (tx rx : Nat) (s : State) : g (setLanes k tx rx s) = g s :=
  (frame.regs _ _ _ status).trans <| (frame.regs _ _ _ status).trans <| (frame.regs _ _ _ status).trans (frame.regs _ _ s status)

theorem startTraining {k : Nat} (status : unread (R.LNK_Pk_STATUS k)) (s : State) : g (startTraining k s) = g s := by
  unfold Machine.startTraining
  split
  · rfl
  · exact (frame.raiseRecord _ _).trans <| (frame.ports _ _).trans <| (frame.regs _ _ _ status).trans <|
      (frame.setLanes status _ _ _).trans (frame.regs _ _ s status)

theorem hostStartTraining (s : State) : g (hostStartTraining s) = g s := by
  unfold Machine.hostStartTraining
  split
  · exact frame.regs _ _ s frame.host
  · rfl

end LinkFrame

end Sys2Proof.Machine
end

section
/-! The stages of a start (15 R389 to R398, R403). -/

namespace Sys2Proof.Machine

variable {s t : State}

/-! ### The end of a stage -/

/-- The survey of a stage that ends: what a stage shows whether or not it fails. -/
def surveyed (r : StageResult) (skipped : Bool) (fails degr : List (Nat × Bool)) (words : List Nat) (s : State) : State :=
  let bad := codesOf fails
  let low := codesOf degr
  let result := if !bad.isEmpty then 4 else if skipped then 5 else if !low.isEmpty then 3 else 2
  let code := (bad ++ low).headD 0
  let t := rset (R.SRV_REPORTk_Ww s.stage 0) (word (fld 0 4 s.stage + fld 4 3 result + fld 7 1 (natOfBool (warmStart s)) + fld 8 8 code + fld 16 32 (if skipped then 0 else r.elapsedUs))) s
  let t := rset (R.SRV_REPORTk_Ww s.stage 1) (word t.aon) t
  let t := each words.zipIdx (fun x t => rset (R.SRV_REPORTk_Ww s.stage (2 + x.2)) (word x.1) t) t
  if result == 3 then fset R.SRV_STATE F.SRV_STATE_DEGRADED 1 t else t

/-- A block that a stage has failed. -/
def refusedAt (k : Nat) (s : State) : State := errBit 5 (setBit R.MG_EVENT 1 (fset R.SRV_STATE F.SRV_STATE_REFUSED_AT k { s with stage := 10 }))

theorem endStage_eq (r : StageResult) (skipped : Bool) (fails degr : List (Nat × Bool)) (words : List Nat) (next : State → State) (s : State) :
    endStage r skipped fails degr words next s
      = if (codesOf fails).isEmpty then next (surveyed r skipped fails degr words s) else refusedAt s.stage (surveyed r skipped fails degr words s) := rfl

theorem surveyed_keeps {β : Type} (g : State → β) (ofRset : ∀ off w s, g (rset off w s) = g s) (r : StageResult) (skipped : Bool) (fails degr : List (Nat × Bool))
    (words : List Nat) (s : State) : g (surveyed r skipped fails degr words s) = g s := by
  have survey : ∀ l : List (Nat × Nat), ∀ k s, g (each l (fun x s => rset (R.SRV_REPORTk_Ww k (2 + x.2)) (word x.1) s) s) = g s :=
    fun l k => each_keeps g (fun _ _ => ofRset _ _ _) l
  simp only [surveyed, fset]
  simp only [apply_ite g, ofRset, survey, ite_self]

/-- A stage without a failure goes on. -/
theorem endStage_passes {r : StageResult} {skipped : Bool} {fails degr : List (Nat × Bool)} {words : List Nat} {next : State → State}
    (passes : codesOf fails = []) : endStage r skipped fails degr words next s = next (surveyed r skipped fails degr words s) := by
  rw [endStage_eq, passes]
  rfl

/-- One that fails makes the block REFUSED. -/
theorem endStage_fails {r : StageResult} {skipped : Bool} {fails degr : List (Nat × Bool)} {words : List Nat} {next : State → State}
    (fails_ : codesOf fails ≠ []) : endStage r skipped fails degr words next s = refusedAt s.stage (surveyed r skipped fails degr words s) := by
  rw [endStage_eq, if_neg (by simpa using fails_)]

theorem refusedAt_shows {k : Nat} (small : k < 2 ^ F.SRV_STATE_REFUSED_AT.n) (s : State) : fget (refusedAt k s) R.SRV_STATE F.SRV_STATE_REFUSED_AT = k := by
  rw [fget_of_rget_eq (s := fset R.SRV_STATE F.SRV_STATE_REFUSED_AT k { s with stage := 10 }) (by
    rw [refusedAt, errBit, setBit, rget_rset_other _ _ (by decide), setBit, rget_rset_other _ _ (by decide)]), fget_fset_same _ _ _ _ (by decide), Nat.mod_eq_of_lt small]

/-! ### Stage 1 -/

/-- The ports begin to train: what no link, host or voltage is part of stays. -/
theorem startPorts_keeps {β : Type} {unread : Nat → Prop} {g : State → β} (frame : LinkFrame unread g) (status : ∀ k < 6, unread (R.LNK_Pk_STATUS k)) (ofVolts : ∀ l (s : State), g { s with volts := l } = g s)
    (s : State) : g (startPorts s) = g s := by
  unfold startPorts
  dsimp only
  refine (frame.hostStartTraining _).trans ?_
  split
  · exact ofVolts _ s
  · refine Eq.trans ?_ (ofVolts ((List.range 4).map fun p => 10 * vtarget s p) s)
    generalize { s with volts := (List.range 4).map fun p => 10 * vtarget s p } = u
    simp only [each, List.range, List.range.loop, List.foldl, frame.startTraining (status _ _), Nat.reduceLT]

/-- A part of the state that no register and no field of the links is in. -/
theorem LinkFrame.plain {β : Type} {g : State → β} (regs : ∀ off w s, g (rset off w s) = g s) (out : ∀ o (s : State), g { s with out := o } = g s)
    (ports : ∀ l (s : State), g { s with ports := l } = g s) (fresh : ∀ n (s : State), g { s with fresh := n } = g s)
    (streams : ∀ l (s : State), g { s with ostreams := l } = g s) (sendQ : ∀ l (s : State), g { s with sendQ := l } = g s)
    (linkMap : ∀ l (s : State), g { s with linkMap := l } = g s) (awaits : ∀ l (s : State), g { s with awaits := l } = g s) : LinkFrame (fun _ => True) g :=
  ⟨LinkRegs.all, fun off w s _ => regs off w s, out, ports, fresh, streams, sendQ, linkMap, awaits⟩

theorem linkFrame_stage : LinkFrame (fun _ => True) State.stage :=
  .plain (fun _ _ _ => rfl) (fun _ _ => rfl) (fun _ _ => rfl) (fun _ _ => rfl) (fun _ _ => rfl) (fun _ _ => rfl) (fun _ _ => rfl) (fun _ _ => rfl)

theorem linkFrame_far : LinkFrame (fun _ => True) State.far :=
  .plain (fun _ _ _ => rfl) (fun _ _ => rfl) (fun _ _ => rfl) (fun _ _ => rfl) (fun _ _ => rfl) (fun _ _ => rfl) (fun _ _ => rfl) (fun _ _ => rfl)

theorem linkFrame_ops : LinkFrame (fun _ => True) State.ops :=
  .plain (fun _ _ _ => rfl) (fun _ _ => rfl) (fun _ _ => rfl) (fun _ _ => rfl) (fun _ _ => rfl) (fun _ _ => rfl) (fun _ _ => rfl) (fun _ _ => rfl)

/-- A register that sending does not write. -/
theorem linkFrame_rget {o : Nat} (pmc : ∀ i, R.CNT_PMCi i ≠ o)
    (others : o ∉ [R.CNT_LNK_ESCAPE, R.LNK_COMPASS_GEN, R.HST_STATE]) : LinkFrame (· ≠ o) fun s => rget s o :=
  ⟨LinkRegs.but pmc others, fun _ _ _ other => rget_rset_other _ _ other.symm, fun _ _ => rfl, fun _ _ => rfl, fun _ _ => rfl, fun _ _ => rfl, fun _ _ => rfl,
    fun _ _ => rfl, fun _ _ => rfl⟩

theorem linkFrame_srvState : LinkFrame (· ≠ R.SRV_STATE) fun s => rget s R.SRV_STATE :=
  linkFrame_rget (fun i => by simp only [R.CNT_PMCi, R.SRV_STATE]; omega) (by decide)

/-- The state in which stage 1 takes its survey. -/
def supplied (r : StageResult) (s : State) : State := fset R.PWR_RAIL F.PWR_RAIL_VIN_MV r.vinMv { s with fwRun := (bootSlot s).getD s.fwRun }

/-- What stage 1 checks: the supplies, and a slot that boots. -/
def supplyFails (r : StageResult) (s : State) : List (Nat × Bool) := [(1, r.supplyOk % 2 ^ 14 != 2 ^ 14 - 1), (3, (bootSlot s).isNone)]

theorem supplyStage_eq (r : StageResult) (s : State) : ∃ degr words, supplyStage r s = startPorts (endStage r false (supplyFails r s) degr words (beginStage 2) (supplied r s)) :=
  ⟨_, _, rfl⟩

theorem supplyFails_none {r : StageResult} (supply : r.supplyOk % 2 ^ 14 = 2 ^ 14 - 1) (boots : bootSlot s ≠ none) : codesOf (supplyFails r s) = [] := by
  obtain ⟨i, slot⟩ := Option.ne_none_iff_exists'.mp boots
  rw [supplyFails, supply, slot]
  rfl

theorem supplyFails_some {r : StageResult} (bad : r.supplyOk % 2 ^ 14 ≠ 2 ^ 14 - 1 ∨ bootSlot s = none) : codesOf (supplyFails r s) ≠ [] := by
  have members : ∀ a b : Bool, (a = true ∨ b = true) → codesOf [(1, a), (3, b)] ≠ [] := by decide
  refine members _ _ (bad.imp (fun supply => ?_) fun none_ => ?_)
  · exact bne_iff_ne.mpr supply
  · rw [none_]
    rfl

/-! ### Stage 2 -/

theorem trainHbm_keeps {β : Type} (g : State → β) (ofRset : ∀ off w s, g (rset off w s) = g s)
    (ofPort : ∀ a b (s : State), g { s with hbmReleased := a, selfRefresh := b } = g s) (ofRepair : ∀ l (s : State), g { s with fieldRepair := l } = g s)
    (r : StageResult) (k : Nat) (s : State) : g (trainHbm r k s) = g s := by
  unfold trainHbm
  dsimp only
  split
  · exact (ofRepair _ _).trans (by
      split
      · exact ofRset _ _ s
      · exact (ofPort _ _ _).trans (ofRset _ _ s))
  · split
    · exact ofRset _ _ s
    · exact (ofPort _ _ _).trans (ofRset _ _ s)

/-- Where a port fails, stage 2 fails. -/
theorem farStage_fails {r : StageResult} {k : Nat} (small : k < 8) (bad : hbmOk s r k = false) :
    ∃ degr words, farStage r s = refusedAt s.stage (surveyed r false [(1, true)] degr words (each (List.range 8) (trainHbm r) s)) := by
  have all : (List.range 8).all (fun k => hbmOk s r k) = false := by
    rw [List.all_eq_false]
    exact ⟨k, List.mem_range.mpr small, by simp [bad]⟩
  have stage : (each (List.range 8) (trainHbm r) s).stage = s.stage := each_keeps State.stage (trainHbm_keeps State.stage (fun _ _ _ => rfl) (fun _ _ _ => rfl) (fun _ _ => rfl) r) _ s
  rw [← stage]
  simp only [farStage, all, Bool.false_eq_true, if_false]
  exact ⟨_, _, endStage_fails (fails := [(1, true)]) (by decide)⟩

/-! ### Stage 8 -/

theorem freeNats_keeps {β : Type} (g : State → β) (ofFresh : ∀ n (s : State), g { s with fresh := n } = g s) (n : Nat) (s : State) : g (freeNats n s).2 = g s := by
  induction n generalizing s with
  | zero => rfl
  | succ n ih => exact (ih _).trans (ofFresh _ s)

theorem mapState_keeps {α β : Type} (g : State → β) {f : α → State → α × State} (keeps : ∀ x s, g (f x s).2 = g s) (l : List α) (s : State) :
    g (mapState f l s).2 = g s := by
  induction l generalizing s with
  | nil => rfl
  | cons x l ih => exact (ih _).trans (keeps x s)

/-- The regions under another key take free values; what holds none of them stays. -/
theorem privSync_keeps {β : Type} (g : State → β) (ofFresh : ∀ n (s : State), g { s with fresh := n } = g s)
    (ofRegions : ∀ a b c (s : State), g { s with gaz := a, jobs := b, ledger := c } = g s) (ofKey : ∀ k (s : State), g { s with privKey := k } = g s) (s : State) :
    g (privSync s) = g s := by
  have nats := freeNats_keeps g ofFresh
  have ints : ∀ n s, g (strangeInts n s).2 = g s := fun n s => nats n s
  have desc : ∀ d s, g (strangeDesc d s).2 = g s := fun _ s => nats 32 s
  have jobs : ∀ j s, g (strangeJob j s).2 = g s := fun j s =>
    (mapState_keeps g (fun (t : Total) s => ints t.vals.length s) _ _).trans (mapState_keeps g (fun (r : Resid) s => ints r.vals.length s) _ s)
  unfold privSync
  dsimp only
  split
  · rfl
  · exact (ofRegions _ _ _ _).trans <| (mapState_keeps g (fun (_ : Nat × LSlot) s => ofFresh _ s) _ _).trans <| (mapState_keeps g jobs _ _).trans <|
      (mapState_keeps g (fun (x : Nat × Desc) s => desc x.2 s) _ _).trans (ofKey _ s)

/-- The registers that no survey and no SRV_STATE is among. -/
theorem rget_surveyed_other {o : Nat} (low : o < 0x680000) (r : StageResult) (skipped : Bool) (fails degr : List (Nat × Bool)) (words : List Nat) (s : State) :
    rget (surveyed r skipped fails degr words s) o = rget s o := by
  have report : ∀ k w v (s : State), rget (rset (R.SRV_REPORTk_Ww k w) v s) o = rget s o := fun k w v s =>
    rget_rset_other _ _ (by simp only [R.SRV_REPORTk_Ww]; omega)
  have survey : ∀ l : List (Nat × Nat), ∀ k s, rget (each l (fun x s => rset (R.SRV_REPORTk_Ww k (2 + x.2)) (word x.1) s) s) o = rget s o :=
    fun l k => each_keeps (fun s => rget s o) (fun _ _ => report _ _ _ _) l
  have state : ∀ v (s : State), rget (rset R.SRV_STATE v s) o = rget s o := fun v s => rget_rset_other _ _ (by simp only [R.SRV_STATE]; omega)
  simp only [surveyed, fset]
  simp only [apply_ite (fun s => rget s o), report, survey, state, ite_self]

/-- The page that stage 8 writes is what it would write at once. -/
theorem writePage_page_congr (regs : t.regs = s.regs) (ids : t.stackId = s.stackId) (full : Bool) (kcv place : Nat) :
    (writePage full kcv place t).page = (writePage full kcv place s).page := by
  simp only [writePage, identMajor, identMinor, fget, rget, regs, ids]

/-- The work of stage 8 in FULL: the block-private regions are empty. -/
theorem ledgerWork_full (full : s.startMode = 1) : ledgerWork s = { s with gaz := [], ledger := [], journal := [], resuming := [] } := by
  simp [ledgerWork, warmStart, full]

/-- Ready, without a purge where no inset of before can be left. -/
theorem becomeReady_cold (full : s.startMode = 1) (cold : fbit s R.PWR_STATE F.PWR_STATE_WOKE = false) :
    becomeReady s = setBit R.MG_EVENT 0 { s with stage := 9 } := by
  have woke : fbit (setBit R.MG_EVENT 0 { s with stage := 9 }) R.PWR_STATE F.PWR_STATE_WOKE = fbit s R.PWR_STATE F.PWR_STATE_WOKE := by
    rw [fbit, fbit, fget, fget, setBit, rget_rset_other _ _ (by decide)]
    rfl
  have mode : warmStart (setBit R.MG_EVENT 0 { s with stage := 9 }) = false := by
    rw [warmStart, show (setBit R.MG_EVENT 0 { s with stage := 9 }).startMode = 1 from full]
    rfl
  unfold becomeReady
  dsimp only
  rw [mode, woke, cold]
  rfl

/-- What stage 8 of FULL leaves before its survey. -/
def fullWork (s : State) : State := writeJournal { privSync s with gaz := [], ledger := [], journal := [], resuming := [] }

/-- In FULL, stage 8 with its keys makes the block ready. -/
theorem ledgerStage_full (r : StageResult) (keys : s.keyWait = false) (full : s.startMode = 1) (cold : fbit s R.PWR_STATE F.PWR_STATE_WOKE = false) :
    ∃ degr words, ledgerStage r s = setBit R.MG_EVENT 0 { surveyed r false [] degr words (fullWork s) with stage := 9 } := by
  have mode : (privSync s).startMode = 1 := (privSync_keeps State.startMode (fun _ _ => rfl) (fun _ _ _ _ => rfl) (fun _ _ => rfl) s).trans full
  have regs : (privSync s).regs = s.regs := privSync_keeps State.regs (fun _ _ => rfl) (fun _ _ _ _ => rfl) (fun _ _ => rfl) s
  have cold' : ∀ degr words, fbit (surveyed r false [] degr words (fullWork s)) R.PWR_STATE F.PWR_STATE_WOKE = false := fun degr words => by
    rw [fbit, fget, rget_surveyed_other (by decide), rget, show (fullWork s).regs = s.regs from regs]
    exact cold
  have mode' : ∀ degr words, (surveyed r false [] degr words (fullWork s)).startMode = 1 := fun degr words =>
    (surveyed_keeps State.startMode (fun _ _ _ => rfl) r false [] degr words _).trans mode
  unfold ledgerStage
  simp only [keys, Bool.false_eq_true, if_false]
  rw [ledgerWork_full mode, endStage_passes rfl]
  exact ⟨_, _, becomeReady_cold (mode' _ _) (cold' _ _)⟩

/-! ### The boot slot -/

theorem bootSlot_iff (s : State) (i : Nat) :
    bootSlot s = some i ↔ (i = s.fwPref ∧ fwValid s i = true) ∨ (i = 1 - s.fwPref ∧ fwValid s s.fwPref = false ∧ fwValid s i = true) := by
  unfold bootSlot
  cases preferred : fwValid s s.fwPref with
  | true =>
    simp only [if_true, Option.some.injEq]
    constructor
    · rintro rfl
      exact Or.inl ⟨rfl, preferred⟩
    · rintro (⟨rfl, -⟩ | ⟨-, no, -⟩)
      · rfl
      · cases no
  | false =>
    simp only [Bool.false_eq_true, if_false, Option.ite_none_right_eq_some, Option.some.injEq]
    constructor
    · rintro ⟨other, rfl⟩
      exact Or.inr ⟨rfl, trivial, other⟩
    · rintro (⟨rfl, valid⟩ | ⟨rfl, -, valid⟩)
      · exact absurd (preferred.symm.trans valid) (by decide)
      · exact ⟨valid, rfl⟩

theorem stageEnd_none (r : StageResult) (here : s.stage = 0 ∨ 9 ≤ s.stage) : stageEnd r s = s := by
  have other : ∀ k ∈ [1, 2, 3, 4, 5, 6, 7, 8], (s.stage == k) = false := fun k inList => by
    simp only [List.mem_cons, List.not_mem_nil, or_false] at inList
    simp
    omega
  simp [stageEnd, other]

/-- Settles O50: each stage named ends as its survey says, and CLEAR_FIELD acts once the block is ready and idle. -/
theorem startGoesThroughItsStages : Obligations.StartGoesThroughItsStages := by
  unfold Obligations.StartGoesThroughItsStages
  intro s r up
  have run := exec_stageEnd_up r up
  have clear : exec .clearField s = .next (outcome s (if ready s then clearField s else s)) := act_up s _ up
  have stage_ : ∀ t, (outcome s t).stage = t.stage := fun t => outcome_keeps State.stage fun _ _ => rfl
  refine ⟨fun here supply boots => ⟨_, run, ?_⟩, fun here bad => ⟨_, run, ?_⟩, bootSlot_iff s, fun i => ?_, fun k here small bad => ⟨_, run, ?_⟩, fun here warm => ?_,
    fun here keys => ?_, fun here keys full gone cold => ⟨_, run, ?_⟩, fun here => ?_, fun isReady idle => ?_, fun early => ?_⟩
  · obtain ⟨degr, words, ended⟩ := supplyStage_eq r s
    have staged : stageEnd r s = startPorts (beginStage 2 (surveyed r false (supplyFails r s) degr words (supplied r s))) := by
      rw [show stageEnd r s = supplyStage r s by simp [stageEnd, here], ended, endStage_passes (supplyFails_none supply boots)]
    rw [stage_, outcome_far, outcome_ops, staged, startPorts_keeps linkFrame_stage (fun _ _ => trivial) fun _ _ => rfl,
      startPorts_keeps linkFrame_far (fun _ _ => trivial) fun _ _ => rfl, startPorts_keeps linkFrame_ops (fun _ _ => trivial) fun _ _ => rfl]
    exact ⟨rfl, surveyed_keeps State.far (fun _ _ _ => rfl) _ _ _ _ _ _, surveyed_keeps State.ops (fun _ _ _ => rfl) _ _ _ _ _ _⟩
  · obtain ⟨degr, words, ended⟩ := supplyStage_eq r s
    have staged : stageEnd r s = startPorts (refusedAt 1 (surveyed r false (supplyFails r s) degr words (supplied r s))) := by
      rw [show stageEnd r s = supplyStage r s by simp [stageEnd, here], ended, endStage_fails (supplyFails_some bad), show (supplied r s).stage = 1 from here]
    rw [stage_, outcome_far, staged, startPorts_keeps linkFrame_stage (fun _ _ => trivial) fun _ _ => rfl,
      startPorts_keeps linkFrame_far (fun _ _ => trivial) fun _ _ => rfl]
    refine ⟨rfl, ?_, surveyed_keeps State.far (fun _ _ _ => rfl) _ _ _ _ _ _⟩
    rw [fget, rget_outcome, startPorts_keeps linkFrame_srvState (fun k small => by simp only [R.LNK_Pk_STATUS, R.SRV_STATE]; omega) fun _ _ => rfl]
    exact refusedAt_shows (by decide) _
  · simp [fwValid, imageOk]
  · obtain ⟨degr, words, failed⟩ := farStage_fails (r := r) small bad
    rw [stage_, outcome_far, fget, rget_outcome, stageEnd_two r here, failed, here]
    refine ⟨rfl, refusedAt_shows (by decide) _, ?_⟩
    exact (surveyed_keeps State.far (fun _ _ _ => rfl) _ _ _ _ _ _).trans
      (each_keeps State.far (trainHbm_keeps State.far (fun _ _ _ => rfl) (fun _ _ _ => rfl) (fun _ _ => rfl) r) _ s)
  · rw [run, show stageEnd r s = testStage r s by simp [stageEnd, here], testStage, if_pos warm]
  · rw [run, stageEnd_eight r here, ledgerStage, if_pos keys]
  · obtain ⟨degr, words, ended⟩ := ledgerStage_full r keys full cold
    have regs : (privSync s).regs = s.regs := privSync_keeps State.regs (fun _ _ => rfl) (fun _ _ _ _ => rfl) (fun _ _ => rfl) s
    have ids : (privSync s).stackId = s.stackId := privSync_keeps State.stackId (fun _ _ => rfl) (fun _ _ _ _ => rfl) (fun _ _ => rfl) s
    have keys' : (privSync s).keys = s.keys := privSync_keeps State.keys (fun _ _ => rfl) (fun _ _ _ _ => rfl) (fun _ _ => rfl) s
    have place : placeEpoch (privSync s) = placeEpoch s := by rw [placeEpoch, placeEpoch, fget, fget, rget, rget, regs]
    have key0 : keyOf (privSync s) 0 = keyOf s 0 := by rw [keyOf, keyOf, keys']
    have written : (fullWork s).page = (writePage false (keyCheck (keyOf s 0)) (placeEpoch s) s).page := by
      rw [← key0, ← place]
      exact writePage_page_congr (t := { privSync s with gaz := [], ledger := [], journal := [], resuming := [] }) regs ids _ _ _
    have kept : ∀ {β : Type} (g : State → β), (∀ off w s, g (rset off w s) = g s) → (∀ n (s : State), g { s with stage := n } = g s) →
        g (stageEnd r s) = g (fullWork s) := fun g ofRset ofStage => by
      rw [stageEnd_eight r here, ended]
      exact (ofRset _ _ _).trans <| (ofStage _ _).trans (surveyed_keeps g ofRset _ _ _ _ _ _)
    refine ⟨(stage_ _).trans (by rw [stageEnd_eight r here, ended]; rfl), ?_, ?_, ?_, ?_, ?_⟩
    · exact (outcome_keeps State.ledger fun _ _ => rfl).trans (kept State.ledger (fun _ _ _ => rfl) fun _ _ => rfl)
    · exact (outcome_keeps State.gaz fun _ _ => rfl).trans (kept State.gaz (fun _ _ _ => rfl) fun _ _ => rfl)
    · exact (outcome_keeps State.journal fun _ _ => rfl).trans (kept State.journal (fun _ _ _ => rfl) fun _ _ => rfl)
    · exact (outcome_page _ _).trans ((kept State.page (fun _ _ _ => rfl) fun _ _ => rfl).trans written)
    · exact (outcome_far _ _).trans ((kept State.far (fun _ _ _ => rfl) fun _ _ => rfl).trans
        (privSync_keeps State.far (fun _ _ => rfl) (fun _ _ _ _ => rfl) (fun _ _ => rfl) s))
  · rw [run, stageEnd_none r here]
  · rw [clear, isReady, clearField, idle]
    rfl
  · rw [clear]
    rcases early with no | busy
    · rw [no]
      rfl
    · rw [clearField, busy, if_pos rfl, ite_self]

end Sys2Proof.Machine
end

section
/-! Pooling in any order (05 R126 to R134): what a term adds to a finished accumulator, and that such gains commute. -/

namespace Sys2Proof.Machine

namespace ColAcc

/-! ### A finished accumulator -/

/-- An accumulator without what it sums. -/
def unsummed (a : ColAcc) : ColAcc := { a with acc := 0, carry := 0, stage := 0, steps := 0 }

/-- A sum put into an accumulator. -/
def withSum (x : BitVec 128) (a : ColAcc) : ColAcc := { a with acc := x.extractLsb' 0 96, carry := x.extractLsb' 96 32 }

/-- Promotion leaves the total and what is not summed. -/
theorem promote_eq (a : ColAcc) : a.promote = withSum a.total a.unsummed := rfl

theorem unsummed_stageTerm (t : Int) (a : ColAcc) : (stageTerm t a).unsummed = a.unsummed := by
  unfold stageTerm
  dsimp only
  split <;> rfl

theorem unsummed_accept (t : Int) (k : Nat) (a : ColAcc) : (a.accept t k).unsummed = a.unsummed := by
  unfold accept
  split
  · induction k with
    | zero => rfl
    | succ k ih => rw [Nat.repeat, unsummed_stageTerm, ih]
  · rfl

/-! ### What a term adds -/

end ColAcc

/-- What the terms of an entry add to a finished accumulator. -/
structure Gain where
  sum : BitVec 128 := 0
  clamp : Int := 0
  n : Nat
  termOvf : Bool := false
  nan : Bool := false
  pinf : Bool := false
  ninf : Bool := false
  zinf : Bool := false

/-- The gain of a finite term whose grid integer is t. -/
def Gain.finite (t : Int) (k : Nat) : Gain :=
  if termLimit ≤ (t.natAbs : Int) then { n := k, termOvf := true, clamp := (k : Int) * (if t < 0 then -(termLimit - 1) else termLimit - 1) }
  else { n := k, sum := BitVec.ofInt 128 (k * t), clamp := (k : Int) * t }

/-- The gain of a term added k times on the grid G. -/
def Gain.ofTerm (G : Int) (v : Val) (k : Nat) : Gain :=
  if k == 0 then { n := 0 } else
  match v with
  | .nan => { n := k, nan := true }
  | .zeroInf => { n := k, zinf := true }
  | .inf neg => if neg then { n := k, ninf := true } else { n := k, pinf := true }
  | v => .finite (toGrid v G).1 k

namespace ColAcc

/-- The counts and marks of an accumulator with a gain. -/
def marked (a : ColAcc) (x : Gain) : ColAcc :=
  { a with
    clamp := a.clamp + x.clamp, n := a.n + x.n, termOvf := a.termOvf || x.termOvf, nan := a.nan || x.nan, pinf := a.pinf || x.pinf,
    ninf := a.ninf || x.ninf, zinf := a.zinf || x.zinf }

/-- A finished accumulator with a gain. -/
def gain (a : ColAcc) (x : Gain) : ColAcc := withSum (a.grid + x.sum) (a.marked x)

theorem gain_grid (a : ColAcc) (x : Gain) : (a.gain x).grid = a.grid + x.sum := addGrid_grid a x.sum

theorem gain_right_comm (a : ColAcc) (x y : Gain) : (a.gain x).gain y = (a.gain y).gain x := by
  rw [gain, gain_grid, gain.eq_def (a.gain y), gain_grid, add_right_comm a.grid]
  simp only [withSum, gain, marked, Bool.or_right_comm, Nat.add_right_comm, Int.add_right_comm]

/-- The gain of a promoted accumulator. -/
theorem gain_promote (a : ColAcc) (x : Gain) : a.promote.gain x = withSum (a.total + x.sum) (a.unsummed.marked x) := by
  rw [gain, show a.promote.grid = a.total from addGrid_grid a _]
  rfl

/-- An accumulator whose sum stays and whose counts and marks change. -/
theorem promote_of_marked {a b : ColAcc} (x : Gain) (none_ : x.sum = 0) (total : b.total = a.total) (marks : b.unsummed = a.unsummed.marked x) :
    b.promote = a.promote.gain x := by
  rw [promote_eq, gain_promote, total, marks, none_]
  exact congrArg (withSum · _) (add_zero a.total).symm

/-- A finite term is clamped beyond the limit, and otherwise added whole. -/
theorem promote_finite {a : ColAcc} (inStep : a.InStep) (t : Int) (k : Nat) :
    (if termLimit ≤ (t.natAbs : Int) then
        { a with n := a.n + k, termOvf := true, clamp := a.clamp + (k : Int) * (if t < 0 then -(termLimit - 1) else termLimit - 1) }
      else { ({ a with n := a.n + k } : ColAcc).accept t k with clamp := a.clamp + (k : Int) * t }).promote = a.promote.gain (.finite t k) := by
  unfold Gain.finite
  split
  · refine promote_of_marked _ rfl rfl ?_
    simp [unsummed, marked]
  · have kept : ({ a with n := a.n + k } : ColAcc).InStep := inStep
    have total : (({ a with n := a.n + k } : ColAcc).accept t k).total = a.total + BitVec.ofInt 128 (k * t) := (accept_inStep_and_total kept t k).2
    have marks := unsummed_accept t k { a with n := a.n + k }
    rw [promote_eq, gain_promote]
    refine congrArg₂ withSum total ?_
    calc _ = { (({ a with n := a.n + k } : ColAcc).accept t k).unsummed with clamp := a.clamp + (k : Int) * t } := rfl
      _ = _ := by rw [marks]; simp [unsummed, marked]

/-- A term leaves its gain in the finished accumulator, whether it goes through staging, past it, or is special. -/
theorem promote_add {mode : Nat} (notMax : mode ≠ 2) (notMin : mode ≠ 3) {a : ColAcc} (inStep : a.InStep) (G : Int) (v : Val) (k : Nat) :
    (a.add mode G v k).1.promote = a.promote.gain (.ofTerm G v k) := by
  have sums : (mode == 2 || mode == 3) = false := by simp [notMax, notMin]
  unfold add Gain.ofTerm
  by_cases nothing : k = 0
  · rw [if_pos (by simpa using nothing), if_pos (by simpa using nothing)]
    exact promote_of_marked _ rfl rfl (by simp [unsummed, marked])
  have counted : (k == 0) = false := by simpa using nothing
  simp only [counted, sums, Bool.false_eq_true, if_false]
  cases v with
  | nan => exact promote_of_marked _ rfl rfl (by simp [unsummed, marked])
  | zeroInf => exact promote_of_marked _ rfl rfl (by simp [unsummed, marked])
  | inf neg => cases neg <;> exact promote_of_marked _ rfl rfl (by simp [unsummed, marked])
  | num m e =>
    refine Eq.trans ?_ (promote_finite inStep (toGrid (.num m e) G).1 k)
    dsimp only
    split <;> rfl
  | negZero =>
    refine Eq.trans ?_ (promote_finite inStep (toGrid .negZero G).1 k)
    dsimp only
    split <;> rfl

/-! ### The columns of a bag -/

/-- A column with the terms of an entry. -/
def addTerms (mode : Nat) (G : Int) (k : Nat) (a : ColAcc) (ts : List Val) : ColAcc := ts.foldl (fun a t => (a.add mode G t k).1) a

/-- A finished column with the gains of an entry. -/
def gainTerms (G : Int) (k : Nat) (a : ColAcc) (ts : List Val) : ColAcc := ts.foldl (fun a t => a.gain (.ofTerm G t k)) a

theorem gainTerms_cons (G : Int) (k : Nat) (a : ColAcc) (t : Val) (ts : List Val) : gainTerms G k a (t :: ts) = gainTerms G k (a.gain (.ofTerm G t k)) ts := rfl

theorem addTerms_cons (mode : Nat) (G : Int) (k : Nat) (a : ColAcc) (t : Val) (ts : List Val) :
    addTerms mode G k a (t :: ts) = addTerms mode G k (a.add mode G t k).1 ts := rfl

theorem addTerms_inStep {mode : Nat} (G : Int) (k : Nat) (ts : List Val) : ∀ {a : ColAcc}, a.InStep → (addTerms mode G k a ts).InStep := by
  induction ts with
  | nil => exact fun inStep => inStep
  | cons t ts ih => exact fun inStep => ih (add_inStep inStep mode G t k)

theorem promote_addTerms {mode : Nat} (notMax : mode ≠ 2) (notMin : mode ≠ 3) (G : Int) (k : Nat) (ts : List Val) :
    ∀ {a : ColAcc}, a.InStep → (addTerms mode G k a ts).promote = gainTerms G k a.promote ts := by
  induction ts with
  | nil => exact fun _ => rfl
  | cons t ts ih =>
    intro a inStep
    rw [addTerms_cons, ih (add_inStep inStep mode G t k), promote_add notMax notMin inStep, gainTerms_cons]

theorem gainTerms_gain (G : Int) (k : Nat) (x : Gain) (ts : List Val) : ∀ a : ColAcc, gainTerms G k (a.gain x) ts = (gainTerms G k a ts).gain x := by
  induction ts with
  | nil => exact fun _ => rfl
  | cons t ts ih =>
    intro a
    rw [gainTerms_cons, gainTerms_cons, gain_right_comm, ih]

theorem gainTerms_right_comm (G : Int) (j k : Nat) (us ts : List Val) : ∀ a : ColAcc, gainTerms G k (gainTerms G j a us) ts = gainTerms G j (gainTerms G k a ts) us := by
  induction us with
  | nil => exact fun _ => rfl
  | cons u us ih =>
    intro a
    rw [gainTerms_cons, gainTerms_cons, ih, gainTerms_gain]

end ColAcc

/-- The pairs that an entry makes, without its flags. -/
theorem addEntry_columns (mode : Nat) (G : Int) (accs : List ColAcc) (ts : List (List Val)) (k : Nat) :
    (addEntry mode G accs ts k).1 = List.zipWith (ColAcc.addTerms mode G k) accs ts := by
  have column : ∀ (l : List Val) (y : ColAcc × Flags),
      (l.foldl (fun (y : ColAcc × Flags) t => let (a, f) := y.1.add mode G t k; (a, y.2.or f)) y).1 = ColAcc.addTerms mode G k y.1 l := fun l => by
    induction l with
    | nil => exact fun _ => rfl
    | cons t l ih => exact fun y => ih _
  simp only [addEntry, List.map_map]
  refine (List.map_congr_left (g := fun x => ColAcc.addTerms mode G k x.1 x.2) fun x _ => column x.2 (x.1, {})).trans ?_
  rw [List.zip, List.map_zipWith]

/-- Finished columns with the gains of an entry. -/
def gainEntry (G : Int) (accs : List ColAcc) (e : List (List Val) × Nat) : List ColAcc := List.zipWith (ColAcc.gainTerms G e.2) accs e.1

theorem zipWith_right_comm {α β γ : Type} {f : α → β → α} {g : α → γ → α} (comm : ∀ a b c, g (f a b) c = f (g a c) b) :
    ∀ (l : List α) (m : List β) (n : List γ), List.zipWith g (List.zipWith f l m) n = List.zipWith f (List.zipWith g l n) m
  | [], _, _ => by simp
  | _ :: _, [], _ => by simp
  | _ :: _, _ :: _, [] => by simp
  | a :: l, b :: m, c :: n => by simp [comm, zipWith_right_comm comm l m n]

theorem gainEntry_right_comm (G : Int) (accs : List ColAcc) (e e' : List (List Val) × Nat) :
    gainEntry G (gainEntry G accs e) e' = gainEntry G (gainEntry G accs e') e :=
  zipWith_right_comm (fun a us ts => ColAcc.gainTerms_right_comm G e.2 e'.2 us ts a) accs e.1 e'.1

section
variable {mode : Nat} (notMax : mode ≠ 2) (notMin : mode ≠ 3) (G : Int)
include notMax notMin

/-- Adding an entry and then finishing is finishing and then gaining, and staging stays within its bound. -/
theorem addEntry_promote (e : List (List Val) × Nat) (accs : List ColAcc) (inStep : ∀ a ∈ accs, a.InStep) :
    (addEntry mode G accs e.1 e.2).1.map ColAcc.promote = gainEntry G (accs.map ColAcc.promote) e ∧ ∀ a ∈ (addEntry mode G accs e.1 e.2).1, a.InStep := by
  rw [addEntry_columns, gainEntry]
  refine ⟨List.ext_getElem (by simp) fun i left right => ?_, fun a inList => ?_⟩
  · simp only [List.getElem_map, List.getElem_zipWith]
    exact ColAcc.promote_addTerms notMax notMin G e.2 _ (inStep _ (List.getElem_mem _))
  · obtain ⟨i, inside, rfl⟩ := List.getElem_of_mem inList
    rw [List.getElem_zipWith]
    exact ColAcc.addTerms_inStep G e.2 _ (inStep _ (List.getElem_mem _))

theorem foldl_addEntry_promote (l : List (List (List Val) × Nat)) : ∀ accs : List ColAcc, (∀ a ∈ accs, a.InStep) →
    (l.foldl (fun a e => (addEntry mode G a e.1 e.2).1) accs).map ColAcc.promote = l.foldl (gainEntry G) (accs.map ColAcc.promote) := by
  induction l with
  | nil => exact fun _ _ => rfl
  | cons e l ih =>
    intro accs inStep
    obtain ⟨gained, kept⟩ := addEntry_promote notMax notMin G e accs inStep
    rw [List.foldl_cons, List.foldl_cons, ih _ kept, gained]

end

/-- Settles O60: finished accumulators take gains, which commute. -/
theorem poolingDoesNotDependOnOrder : Obligations.PoolingDoesNotDependOnOrder := by
  unfold Obligations.PoolingDoesNotDependOnOrder
  intro mode G l1 l2 accs notMax notMin inStep same
  rw [foldl_addEntry_promote notMax notMin G l1 accs inStep, foldl_addEntry_promote notMax notMin G l2 accs inStep]
  exact same.foldl_eq' (fun e _ e' _ accs => gainEntry_right_comm G accs e e') _

end Sys2Proof.Machine
end

section
/-! The gazetteer's commands (02 R28 to R49), the release of versions (02 R48), and the units of an update (07 R195, R196). -/

namespace Sys2Proof.Machine

variable {s t : State}

/-! ### GZ_DEFINE -/

section
variable {o : Op}

theorem defineTable_bad {x : Nat × Nat × Nat} (bad : descFail { words := o.descWords } (nblocks s) ((liveDescs s o.queue ({ words := o.descWords } : Desc).tableId).map Desc.version) = some x) :
    defineTable o s = descriptorFault o.queue o.seq x s := by
  simp only [defineTable, bad]

theorem defineTable_good (good : descFail { words := o.descWords } (nblocks s) ((liveDescs s o.queue ({ words := o.descWords } : Desc).tableId).map Desc.version) = none) :
    defineTable o s = if 3 ≤ (liveDescs s o.queue ({ words := o.descWords } : Desc).tableId).length then opEnd o.queue o.seq SC.capacity s
      else putDesc o.queue (storeDesc o.descWords) s := by
  simp only [defineTable, good]

/-! ### GZ_SWITCH, GZ_DROP and GZ_ROWMODE -/

/-- The version that is CURRENT drains to the step before a switch. -/
def drainCurrent (o : Op) (s : State) : State := match (liveDescs s o.queue o.tableId).find? (fun d => d.state == 2) with
  | some old => drainVersion o.queue old (o.effStep - 1) s
  | none => s

theorem switchTable_taken {d : Desc} (loaded : (liveDescs s o.queue o.tableId).find? (fun d => d.version == o.version && d.state == 1) = some d)
    (later : max o.step (queue s o.queue).maxStep < o.effStep) (idle : (liveDescs s o.queue o.tableId).any (fun d => d.state == 3) = false) :
    switchTable o s = putDesc o.queue ((d.setState 2).setW 21 0 48 o.effStep) (drainCurrent o s) := by
  simp only [switchTable, loaded, if_neg (Nat.not_le.mpr later), idle, Bool.false_eq_true, if_false]
  rfl

theorem dropTable_none (none_ : (liveDescs s o.queue o.tableId).find? (fun d => d.version == o.version) = none) :
    dropTable o s = tableState o.queue o.seq o.tableId o.version s := by
  simp only [dropTable, none_]

theorem dropTable_some {d : Desc} (found : (liveDescs s o.queue o.tableId).find? (fun d => d.version == o.version) = some d) :
    dropTable o s = if d.rowmode || d.state == 3 then tableState o.queue o.seq o.tableId o.version s
      else if d.state == 1 then delDesc o.queue o.tableId o.version (purgeVersion o.queue o.tableId o.version s)
      else if (liveDescs s o.queue o.tableId).any (fun d => d.state == 3) then opEnd o.queue o.seq SC.capacity s
      else if boundLater s o.queue o.tableId o.version o.step then tableState o.queue o.seq o.tableId o.version s
      else drainVersion o.queue d o.step s := by
  simp only [dropTable, found]

theorem rowmodeTable_none (none_ : findDesc s o.queue o.tableId o.version = none) : rowmodeTable o s = tableState o.queue o.seq o.tableId o.version s := by
  simp only [rowmodeTable, none_]

theorem rowmodeTable_refused {d : Desc} (found : findDesc s o.queue o.tableId o.version = some d) (drains : d.state = 3) :
    rowmodeTable o s = tableState o.queue o.seq o.tableId o.version s := by
  simp only [rowmodeTable, found, drains, beq_self_eq_true, Bool.true_or, if_true]

theorem rowmodeTable_taken {d : Desc} (found : findDesc s o.queue o.tableId o.version = some d) (live : d.state ≠ 3)
    (quiet : o.flag28 = true → d.state = 2 → writerInFlight s o.queue o.tableId o.version = false) :
    rowmodeTable o s = if !o.flag28 then putDesc o.queue (d.setRowmode o.flag28) s
      else withdrawRange 0 o.queue o.tableId o.version ((d.sheetOf (self s)).getD 0) 0 (sheetRows d ((d.sheetOf (self s)).getD 0)) (fun _ => true)
        (putDesc o.queue (d.setRowmode o.flag28) s) := by
  have taken : (d.state == 3 || (o.flag28 && d.state == 2 && writerInFlight s o.queue o.tableId o.version)) = false := by
    rw [Bool.or_eq_false_iff, Bool.and_eq_false_imp]
    exact ⟨by simpa using live, fun both => by
      rw [Bool.and_eq_true, beq_iff_eq] at both
      exact quiet both.1 both.2⟩
  simp only [rowmodeTable, found, taken, Bool.false_eq_true, if_false]
  rfl

/-- A command of the gazetteer that is due has its effect, once, and what follows of it. -/
theorem act_gazEffect (up : s.up = true) {code : Nat} (due : dueGaz s code = some o) (f : Op → State → State) :
    act s (gazEffect code f) = .next (after s (f o (effectDone o.queue o.seq s))) := by
  rw [act_up s _ up]
  simp only [gazEffect, due, after]

end

/-- Settles O22: each command of the gazetteer by what it finds. -/
theorem gazetteerCommandsChangeOrRefuseVersions : Obligations.GazetteerCommandsChangeOrRefuseVersions := by
  unfold Obligations.GazetteerCommandsChangeOrRefuseVersions
  constructor
  · intro s o up t ds
    refine ⟨fun due good room => ?_, fun d due loaded later idle => ?_, fun d due found table loaded => ?_, fun d due found table current idle unbound => ?_,
      fun d due clear found live => ?_, fun d due set_ found live quiet => ?_⟩
    · refine (act_gazEffect up due defineTable).trans ?_
      rw [defineTable_good good, if_neg (by omega)]
    · refine (act_gazEffect up due switchTable).trans ?_
      rw [switchTable_taken loaded later idle]
      rfl
    · refine (act_gazEffect up due dropTable).trans ?_
      rw [dropTable_some found, table, loaded]
      rfl
    · refine (act_gazEffect up due dropTable).trans ?_
      rw [dropTable_some found, table, current, if_neg (by decide), if_neg (by decide), if_neg (by simpa using idle), if_neg (by simpa using unbound)]
    · refine (act_gazEffect up due rowmodeTable).trans ?_
      rw [rowmodeTable_taken found live (by simp [clear]), clear]
      rfl
    · refine (act_gazEffect up due rowmodeTable).trans ?_
      rw [rowmodeTable_taken found live (fun _ => quiet), set_]
      rfl
  · intro s o up t ds refused
    refine ⟨fun x due bad => ?_, fun due good full => ?_, fun due none_ => ?_, fun due none_ => ?_, fun d due found out => ?_, fun due none_ => ?_, fun d due found drains => ?_⟩
    · refine (act_gazEffect up due defineTable).trans ?_
      rw [defineTable_bad bad]
    · refine (act_gazEffect up due defineTable).trans ?_
      rw [defineTable_good good, if_pos full]
    · refine (act_gazEffect up due switchTable).trans ?_
      rw [switchTable_not_ready none_]
    · refine (act_gazEffect up due dropTable).trans ?_
      rw [dropTable_none none_]
    · refine (act_gazEffect up due dropTable).trans ?_
      rw [dropTable_some found, if_pos (by simpa using out)]
    · refine (act_gazEffect up due rowmodeTable).trans ?_
      rw [rowmodeTable_none none_]
    · refine (act_gazEffect up due rowmodeTable).trans ?_
      rw [rowmodeTable_refused found drains]

/-! ### The release of a version -/

theorem exec_versionRelease {slot table version : Nat} (up : s.up = true) (on : slotOn s slot = true) :
    exec (.versionRelease slot table version) s = .next (after s (releaseVersion slot table version s)) := by
  rw [show exec (.versionRelease slot table version) s = actSettle s (fun s => if slotOn s slot then releaseVersion slot table version s else s) from rfl,
    actSettle_up _ _ up, if_pos on]

/-- Settles O32: a version that may not be released stays, and one that may is purged and its notices sent. -/
theorem releaseWaitsForLastStepAndReaders : Obligations.ReleaseWaitsForLastStepAndReaders := by
  unfold Obligations.ReleaseWaitsForLastStepAndReaders
  intro s slot table version d up on found
  rw [exec_versionRelease up on]
  refine ⟨fun may => ?_, fun may => ?_⟩
  · simp only [releaseVersion, found, may, Bool.not_false, if_true]
  · simp only [releaseVersion, found, may, Bool.not_true, Bool.false_eq_true, if_false]

/-! ### The units of an update -/

section
variable {id : Nat} {f : Flight} (found : mfind id s.flights = some f)
include found

theorem unitAck_found : unitAck id s =
    if f.stage == 0 then { bump1 R.CNT_UPD_LOGGED { s with ledger := mput id f.entry s.ledger } with
      flights := mput id { f with stage := if f.desc.sstride == 0 then 2 else 1 } s.flights }
    else if f.stage == 1 then { writeRecord f s with flights := mput id { f with stage := 2 } (writeRecord f s).flights }
    else if f.stage == 2 then { newCopy f (writeWeights f s) with flights := mput id { f with stage := 3 } (newCopy f (writeWeights f s)).flights }
    else retireRow f s := by
  simp only [unitAck, found]
  rfl

end

/-- Settles O31: the stage of an update says which write is issued next. -/
theorem updateUnitsAreWrittenInOrder : Obligations.UpdateUnitsAreWrittenInOrder := by
  unfold Obligations.UpdateUnitsAreWrittenInOrder
  intro s id f up found
  have run : exec (.updateWriteAck id) s = .next (after s (unitAck id s)) := actSettle_up s (unitAck id) up
  rw [run, unitAck_found found]
  refine ⟨fun stage => ?_, fun stage => ?_, fun stage => ?_, fun stage => ?_⟩
  · simp only [stage, beq_self_eq_true, if_true, beq_iff_eq]
  · rw [stage, if_neg (by decide), if_pos (by decide)]
  · rw [stage, if_neg (by decide), if_neg (by decide), if_pos (by decide)]
  · rw [stage, if_neg (by decide), if_neg (by decide), if_neg (by decide)]

end Sys2Proof.Machine
end

section
/-! Packets at their destination, in the order of their stream, and on their way (10 R277 to R279, R283 to R285, R290, R291; 06 R170). -/

namespace Sys2Proof.Machine

variable {s t : State}

/-! ### A packet that is handled at once -/

section
variable {kind port : Nat} {p : Packet}

theorem wakeFor_running (kind : Nat) (mode : s.pmode = 0) : wakeFor kind s = s := by
  simp [wakeFor, wake_running mode]

theorem crossPacket_flows (flows : partReset s (portPart port) = false) : crossPacket kind port p s = settle (packetIn port p s) := by
  simp [crossPacket, flows]

theorem PacketHere.act_packet (packet : PacketHere kind port p s) : actPacket kind port p s = .next (after s (packetIn port p s)) := by
  rw [actPacket, act_up _ _ packet.up, if_pos packet.here, wakeFor_running kind packet.mode, crossPacket_flows packet.flows]
  rfl

theorem PacketHere.kind_eq (packet : PacketHere kind port p s) : p.kind = kind := by
  have here := packet.here
  simp only [forHere, Bool.and_eq_true, beq_iff_eq] at here
  exact here.2

/-- One of an unordered class is delivered as it leaves its buffer. -/
theorem FreePacket.act_packet (packet : FreePacket kind port p s) :
    actPacket kind port p s = .next (after s (deliverPacket port p (leaveBuffer port p s))) := by
  rw [packet.toPacketHere.act_packet, packetIn]
  simp only [packet.form, packet.cls, Bool.false_eq_true, if_false]

/-- One of an ordered class that is next in its stream is counted, delivered, and followed by what waited for it. -/
theorem NextPacket.packetIn_eq (packet : NextPacket kind port p s) : packetIn port p s = streamOn p (deliverPacket port p (counted port p s)) := by
  rw [packetIn]
  simp only [packet.form, packet.cls, Bool.false_eq_true, if_false, if_true]
  refine orderedIn_next ?_ packet.next.symm
  by_cases first : p.eseq = 0
  · exact Or.inr (packet.next.symm.trans first)
  · exact Or.inl first

theorem NextPacket.act_packet (packet : NextPacket kind port p s) :
    actPacket kind port p s = .next (after s (streamOn p (deliverPacket port p (counted port p s)))) := by
  rw [packet.toPacketHere.act_packet, packet.packetIn_eq]

/-- A RESTART packet of a phase. -/
theorem NextPacket.act_restart {phase : Nat} (packet : NextPacket K.restart port p s) (named : bits (leAt p.body 0 8) 0 2 = phase) :
    actRestart phase port p s = .next (after s (streamOn p (deliverPacket port p (counted port p s)))) := by
  have here : (bits (leAt p.body 0 8) 0 2 == phase && forHere K.restart port p s) = true := by simp [named, packet.here]
  rw [actRestart, act_up _ _ packet.up, if_pos here, wake_running packet.mode, crossPacket_flows packet.flows, packet.packetIn_eq]
  rfl

/-! ### What a packet does, by its kind -/

theorem deliverPacket_restart (kind_ : p.kind = K.restart) : deliverPacket port p s = recvRestart port p s := by
  rw [deliverPacket, kind_]
  rfl

/-- An access of a register waits for no stage once the management space answers. -/
theorem deliverPacket_regRead (kind_ : p.kind = K.regRead) (open_ : 2 ≤ s.stage) : deliverPacket port p s = recvRegRead port p s := by
  rw [deliverPacket, kind_]
  exact if_pos (decide_eq_true open_)

theorem deliverPacket_regWrite (kind_ : p.kind = K.regWrite) (open_ : 2 ≤ s.stage) : deliverPacket port p s = recvRegWrite port p s := by
  rw [deliverPacket, kind_]
  exact if_pos (decide_eq_true open_)

end

/-- A packet of an unordered class whose kind has a handler. -/
theorem FreePacket.act_handler {kind port : Nat} {p : Packet} {handler : State → State} (packet : FreePacket kind port p s)
    (delivered : p.kind = kind → ∀ t, deliverPacket port p t = handler t) : actPacket kind port p s = .next (after s (handler (leaveBuffer port p s))) := by
  rw [packet.act_packet, delivered packet.kind_eq]

/-- One of an ordered class. -/
theorem NextPacket.act_handler {kind port : Nat} {p : Packet} {handler : State → State} (packet : NextPacket kind port p s)
    (delivered : p.kind = kind → deliverPacket port p (counted port p s) = handler (counted port p s)) :
    actPacket kind port p s = .next (after s (streamOn p (handler (counted port p s)))) := by
  rw [packet.act_packet, delivered packet.kind_eq]

/-- Settles O24: the kind of a packet that is delivered names its handler. -/
theorem unorderedPacketsActAtDestination : Obligations.UnorderedPacketsActAtDestination := by
  unfold Obligations.UnorderedPacketsActAtDestination
  intro port p s
  refine ⟨fun packet => packet.act_handler (handler := serveRequest true port p false) ?_, fun packet => packet.act_handler (handler := serveRequest true port p true) ?_,
    fun packet => packet.act_handler (handler := rowRsp port p) ?_, fun packet => packet.act_handler (handler := partRsp port p) ?_,
    fun packet => packet.act_handler (handler := recvError port p) ?_, fun packet => packet.act_handler (handler := recvWindow p) ?_,
    fun packet => packet.act_handler (handler := recvWindow p) ?_, fun packet => packet.act_handler (handler := recvWinData port p) ?_,
    fun packet => packet.act_handler (handler := recvWinAck port p) ?_, fun packet => packet.act_handler (handler := recvAck p) ?_,
    fun packet => packet.act_handler (handler := gradArrive true port p) ?_, fun packet => packet.act_handler (handler := markArrive port p) ?_,
    fun packet => packet.act_handler (handler := markArrive port p) ?_, fun packet => packet.act_handler (handler := recvMigData p) ?_,
    fun packet => packet.act_handler (handler := recvMigAck p) ?_⟩
  all_goals
    intro kind_ t
    rw [deliverPacket, kind_]
    rfl

/-- Settles O25: the same for the ordered classes, with the stream counted before and gone on with after. -/
theorem orderedPacketsActInTheirOrder : Obligations.OrderedPacketsActInTheirOrder := by
  unfold Obligations.OrderedPacketsActInTheirOrder
  intro port p s t ends
  refine ⟨fun packet => packet.act_handler (handler := recvRefresh port p) ?_, fun packet => packet.act_handler (handler := recvRefreshMark port p) ?_,
    fun packet => packet.act_handler (handler := recvWithdraw port p) ?_, fun packet => packet.act_handler (handler := recvPurge p) ?_,
    fun packet => packet.act_handler (handler := recvRelease p) ?_, fun packet => packet.act_handler (handler := recvHandoff p) ?_,
    fun packet => packet.act_handler (handler := recvMigReady p) ?_, fun packet named => ?_, fun packet named => ?_, fun packet named => ?_,
    fun packet open_ => packet.act_handler (handler := recvRegRead port p) fun kind_ => deliverPacket_regRead kind_ open_,
    fun packet open_ => packet.act_handler (handler := recvRegWrite port p) fun kind_ => deliverPacket_regWrite kind_ open_,
    fun packet => packet.act_handler (handler := recvRegRsp p) ?_, fun packet => packet.act_handler (handler := recvEvent p) ?_⟩
  case refine_8 | refine_9 | refine_10 =>
    refine (packet.act_restart named).trans ?_
    rw [deliverPacket_restart packet.kind_eq, recvRestart, named]
    rfl
  all_goals
    intro kind_
    rw [deliverPacket, kind_]
    rfl

/-! ### On the way -/

theorem exec_packetForward {port : Nat} {p : Packet} (up : s.up = true) (known : port < 6) (other : p.dest ≠ self s) :
    exec (.packetForward port p) s = .next (outcome s (if partReset s (portPart port) then { s with crossing := s.crossing ++ [.passing port p] } else passOn port p s)) := by
  have passes : (p.dest == self s || decide (6 ≤ port)) = false := by simp [other, Nat.not_le.mpr known]
  rw [show exec (.packetForward port p) s = act s (fun s =>
    if p.dest == self s || decide (6 ≤ port) then s
    else if partReset s (portPart port) then { s with crossing := s.crossing ++ [.passing port p] }
    else passOn port p s) from rfl, act_up _ _ up, passes, if_neg Bool.false_ne_true]

theorem exec_addHoldExpire {port : Nat} {h : AddHold} (up : s.up = true) (found : s.holds.find? (fun h => h.port == port) = some h) :
    exec (.addHoldExpire port) s = .next (outcome s (routePacket (some port) h.p { s with holds := s.holds.erase h })) := by
  rw [show exec (.addHoldExpire port) s = act s (fun s => match s.holds.find? fun h => h.port == port with
    | some h => routePacket (some port) h.p { s with holds := s.holds.erase h }
    | none => s) from rfl, act_up _ _ up]
  simp only [found]

/-- Settles O27: what goes on at once, what its partition's reset holds, and the timers. -/
theorem forwardingAndTimersOfPackets : Obligations.ForwardingAndTimersOfPackets := by
  unfold Obligations.ForwardingAndTimersOfPackets
  intro s up
  refine ⟨fun port p known other flows form => ?_, fun port p known other flows form => ?_, fun port p known resets => ⟨fun other => ?_, fun mode here => ?_⟩,
    fun port h found => exec_addHoldExpire up found, fun src cls ordered_ owed => ?_, fun id => actSettle_up s (fwdExpire id) up, act_up s eventAgain up⟩
  · rw [exec_packetForward up known other, flows, if_neg Bool.false_ne_true, passOn]
    simp only [form, Bool.false_eq_true, if_false]
  · rw [exec_packetForward up known other, flows, if_neg Bool.false_ne_true, passOn]
    simp only [form, if_true]
  · rw [exec_packetForward up known other, if_pos resets]
  · rw [show exec (.rowReq port p) s = actPacket K.rowReq port p s from rfl, actPacket, act_up _ _ up, if_pos here, wakeFor_running _ mode, crossPacket, if_pos resets]
  · rw [show exec (.orderedAckTimer src cls) s
      = actSettle s (fun s => if ordered cls && decide (0 < (ostream s src cls).owed) then sendStreamAck src cls s else s) from rfl, actSettle_up _ _ up, if_pos (by simp [ordered_, owed])]

end Sys2Proof.Machine
end

section
/-! Tags, reads of far memory and errors of near memory (04 R87, R92; 08 R217, R228 to R230, R234). -/

namespace Sys2Proof.Machine

variable {s t : State}

/-! ### Tags -/

theorem grantTag_granted {service : Bool} {x : Pool × Dest} (up : s.up = true)
    (first : s.tagWait.find? (fun x => isService x.1 == service && !(s.spillWait.contains x.2 && (tripped s || spillShut s))) = some x) (free : tagFree x.1 s = true) :
    let rest := s.tagWait.erase x
    let t := askAgain x.2 { s with spillWait := s.spillWait.filter (fun d => d != x.2), tagWait := rest.filter fun y => isService y.1 != service }
    exec (.tagGrant service) s = .next (after s { t with tagWait := (rest.filter fun y => isService y.1 == service) ++ t.tagWait }) := by
  rw [show exec (.tagGrant service) s = act s (grantTag service) from rfl, act_up _ _ up]
  simp only [grantTag, first, free, Bool.not_true, Bool.false_eq_true, if_false]
  rfl

theorem grantTag_none {service : Bool} (up : s.up = true)
    (none_ : ∀ x, s.tagWait.find? (fun x => isService x.1 == service && !(s.spillWait.contains x.2 && (tripped s || spillShut s))) = some x → tagFree x.1 s = false) :
    exec (.tagGrant service) s = .next (outcome s s) := by
  rw [show exec (.tagGrant service) s = act s (grantTag service) from rfl, act_up _ _ up]
  have stays : grantTag service s = s := by
    unfold grantTag
    split
    next => rfl
    next x first => rw [if_pos (by simp [none_ x first])]
  rw [stays]

theorem tagFree_own (s : State) : tagFree .own s = true ↔ (s.fetches.filter fun f => f.pool != .service).length < 229376 := by
  simp only [tagFree, ownOut, ownTags, show isService .own = false from rfl, Bool.false_eq_true, if_false, Bool.and_eq_true]
  exact (and_iff_left rfl).trans decide_eq_true_iff

theorem tagFree_prefetch (s : State) : tagFree .prefetch s = true
    ↔ (s.fetches.filter fun f => f.pool != .service).length < 229376 ∧ (s.fetches.filter fun f => f.pool == .prefetch).length < 57344 := by
  simp only [tagFree, ownOut, ownTags, pfOut, prefetchTags, show isService .prefetch = false from rfl, Bool.false_eq_true, if_false, Bool.and_eq_true,
    bne_self_eq_false, Bool.false_or]
  exact and_congr decide_eq_true_iff decide_eq_true_iff

theorem tagFree_service (s : State) : tagFree .service s = true ↔ (s.fetches.filter fun f => f.pool == .service).length < 32768 := by
  simp only [tagFree, serveOut, serviceTags, show isService .service = true from rfl, if_true]
  exact decide_eq_true_iff

/-! ### Reads of far memory -/

section
variable {tag : Nat} {f : Fetch} (found : findFetch s tag = some f) (src : f.src = .far ∨ f.src = .host) (wanted : f.dest ≠ .nobody)
include found src wanted

/-- A read that still has its requester, by what the stack reports. -/
theorem farReturn_wanted (ecc : Ecc) : farReturn tag ecc s = match ecc with
    | .good => tryFill f s
    | .corrected => tryFill f (hbmCE (firstFar f) s)
    | .uncorrectable => if f.repeated then tryFill f (markUE (firstFar f / 64) s)
      else { s with fetches := updWhere (fun x => x.tag == tag) (fun x => { x with repeated := true }) s.fetches } := by
  have kept : (f.dest == .nobody) = false := by simpa using wanted
  rcases src with far | host
  · simp only [farReturn, found, far, kept]
    rfl
  · simp only [farReturn, found, host, kept]
    rfl

end

/-! ### Errors of near memory -/

section
variable {core set line group : Nat} (on : enabled s core = true) (live : (posOf s core).isolated = false)
include on live

/-- The band of a line says what an error discards. -/
theorem parityFound_live : parityFound core set line group s =
    if set < 1024 then replayed { s with contours := mdel (core * 2 ^ 21 + (set * 64 + line) * 32 + group) s.contours }
    else if set < 2048 then sendPurge (replayed { s with idir := s.idir.filter fun e => !(e.vault == core && e.set == ((set - 1024) * 64 + line) / 4) })
    else if set < firstCacheSet s then pinParity core set line s
    else if line < 4 then tagParity core set line s
    else dataParity core set line s := by
  have inService : (!enabled s core || (posOf s core).isolated) = false := by simp [on, live]
  rw [parityFound, inService, if_neg Bool.false_ne_true]
  rfl

end

theorem pinParity_none {core set line : Nat} (none_ : pinSlotAt s core ((set - 2048) * 64 + line) = none) : pinParity core set line s = s := by
  simp only [pinParity, none_]

theorem pinParity_some {core set line : Nat} {x : Nat × Nat} (found : pinSlotAt s core ((set - 2048) * 64 + line) = some x) :
    pinParity core set line s = if erredBefore (replayed (pinDrop x.1 x.2 (stalePin x.1 x.2 s))) core set line then
        retireData core set line (setPinState x.1 3 { replayed (pinDrop x.1 x.2 (stalePin x.1 x.2 s)) with
          pins := (replayed (pinDrop x.1 x.2 (stalePin x.1 x.2 s))).pins.filter fun y => y.1 / 2 ^ 32 != x.1 })
      else noteErr core set line (replayed (pinDrop x.1 x.2 (stalePin x.1 x.2 s))) := by
  obtain ⟨k, i⟩ := x
  simp only [pinParity, found]

theorem tagParity_dead {core set line : Nat} (dead : (vset s core set).dead = true) : tagParity core set line s = s := by
  simp only [tagParity, dead, if_true]

theorem tagParity_live {core set line : Nat} (live : (vset s core set).dead = false) :
    tagParity core set line s = if erredBefore (replayed (each (s.near.filter fun e => hasPiece e core set) replayEntry s)) core set line
      then retireSet core set (replayed (each (s.near.filter fun e => hasPiece e core set) replayEntry s))
      else noteErr core set line (replayed (each (s.near.filter fun e => hasPiece e core set) replayEntry s)) := by
  simp only [tagParity, live, Bool.false_eq_true, if_false]

theorem dataParity_none {core set line : Nat} (none_ : lineHolder s core set (line - 4) = none) : dataParity core set line s = s := by
  simp only [dataParity, none_]

/-- An entry replayed keeps the record of lines in error. -/
theorem dataParity_some {core set line : Nat} {x : NEntry × Nat × Nat} (found : lineHolder s core set (line - 4) = some x) :
    dataParity core set line s = if erredBefore s core set line then retireData core set line (replayed (replayEntry x.1 s))
      else noteErr core set line (replayed (replayEntry x.1 s)) := by
  have same : erredBefore (replayed (replayEntry x.1 s)) core set line = erredBefore s core set line := rfl
  simp only [dataParity, found, same]

theorem memRead_right {r : MemRead} {ecc : Ecc} (right : ReadsNothingWrong s r ecc) : memRead r ecc s = s := by
  have notUE : ∀ {u : State}, ecc ≠ .uncorrectable → (if ecc == .uncorrectable then u else s) = s := fun good => if_neg (by simpa using good)
  cases r with
  | far tag => exact right.elim
  | near core set line group =>
    rcases right with good | off | isolated
    · exact notUE good
    · simp [memRead, parityFound, off]
    · simp [memRead, parityFound, isolated]
  | victim i =>
    rcases right with good | out
    · exact notUE good
    · simp [memRead, victimUE, Nat.not_lt.mpr out]
  | prefetch i =>
    rcases right with good | gone
    · exact notUE good
    · simp only [memRead, prefetchUE]
      split
      next x =>
        split
        next p found => rw [gone p found, if_neg Bool.false_ne_true]
        next => rfl
      next => rfl

theorem replayed_shows (s : State) : fbit (replayed s) R.NM_STATUS F.NM_STATUS_PARITY = true
    ∧ rget (replayed s) R.CNT_NM_PARITY = word (sat 64 ((rget s R.CNT_NM_PARITY).toNat + 1))
    ∧ rget (replayed s) R.CNT_NM_REPLAY = word (sat 64 ((rget s R.CNT_NM_REPLAY).toNat + 1)) := by
  refine ⟨wbit_setBit_self R.NM_STATUS (i := 0) _ (by decide), ?_, ?_⟩
  · rw [replayed, setBit, rget_rset_other _ _ (by decide), bump1, rget_bump_other _ _ (by decide), bump1, bump, rget_rset_self]
  · rw [replayed, setBit, rget_rset_other _ _ (by decide), bump1, bump, rget_rset_self, bump1, rget_bump_other _ _ (by decide)]

/-- Settles O33: tags, far reads by their report, and each band of near memory. -/
theorem tagsAreGrantedAndFarReadsReturn : Obligations.TagsAreGrantedAndFarReadsReturn := by
  unfold Obligations.TagsAreGrantedAndFarReadsReturn
  have run : ∀ {s : State} (r : MemRead) (ecc : Ecc), s.up = true → exec (.farReadComplete r ecc) s = .next (after s (memRead r ecc s)) :=
    fun r ecc up => actSettle_up _ (memRead r ecc) up
  refine ⟨fun s up => ⟨fun service x first free => grantTag_granted up first free, fun service none_ => grantTag_none up none_, fun o runs cool go live => ?_,
    tagFree_own s, tagFree_prefetch s, tagFree_service s⟩, fun s tag up => ⟨fun f found src wanted => ?_, fun none_ ecc => ?_⟩, fun s core set line group up on live => ?_,
    fun s i up inside => ?_, fun s i p up found usable => ?_, fun s r ecc up right => ?_, replayed_shows⟩
  · rw [show exec .tileDispatch s = act s dispatchNext from rfl, act_up _ _ up]
    simp only [dispatchNext, runs, cool, go, live, Bool.or_self, Bool.false_eq_true, if_false]
    rfl
  · have returned := fun ecc => (run (s := s) (.far tag) ecc up).trans (congrArg (fun u => Host.Outcome.next (after s u)) (farReturn_wanted found src wanted ecc))
    refine ⟨returned .good, returned .corrected, fun first => ?_, fun second new_ => ?_⟩
    · rw [returned]
      simp only [first, Bool.false_eq_true, if_false]
    · rw [returned]
      simp only [second, if_true, markUE, new_, Bool.false_eq_true, if_false]
  · rw [run _ _ up]
    simp only [memRead, farReturn, none_]
  · intro found
    have found_ : found = .next (after s (parityFound core set line group s)) := run _ _ up
    rw [parityFound_live on live] at found_
    have band : 2048 ≤ firstCacheSet s := Nat.le_add_right _ _
    refine ⟨fun contour => ?_, fun above below => ?_, fun above below => ⟨fun none_ => ?_, fun x slot => ⟨fun first => ?_, fun again => ?_⟩⟩,
      fun cache tagLine => ⟨fun dead => ?_, fun dead first => ?_, fun dead again => ?_⟩, fun cache dataLine none_ => ?_, fun x cache dataLine holder first => ?_,
      fun x cache dataLine holder again => ?_⟩
    · rw [found_, if_pos contour]
    · rw [found_, if_neg (by omega), if_pos below]
    · rw [found_, if_neg (by omega), if_neg (by omega), if_pos below, pinParity_none none_]
    · rw [found_, if_neg (by omega), if_neg (by omega), if_pos below, pinParity_some slot, if_neg (by simpa using first)]
    · rw [found_, if_neg (by omega), if_neg (by omega), if_pos below, pinParity_some slot, if_pos again]
    · rw [found_, if_neg (by omega), if_neg (by omega), if_neg (by omega), if_pos tagLine, tagParity_dead dead]
    · rw [found_, if_neg (by omega), if_neg (by omega), if_neg (by omega), if_pos tagLine, tagParity_live dead, if_neg (by simpa using first)]
    · rw [found_, if_neg (by omega), if_neg (by omega), if_neg (by omega), if_pos tagLine, tagParity_live dead, if_pos again]
    · rw [found_, if_neg (by omega), if_neg (by omega), if_neg (by omega), if_neg (by omega), dataParity_none none_]
    · rw [found_, if_neg (by omega), if_neg (by omega), if_neg (by omega), if_neg (by omega), dataParity_some holder, if_neg (by simpa using first)]
    · rw [found_, if_neg (by omega), if_neg (by omega), if_neg (by omega), if_neg (by omega), dataParity_some holder, if_pos again]
  · rw [run _ _ up]
    simp only [memRead, victimUE, inside, if_true, beq_self_eq_true]
  · rw [run _ _ up]
    simp only [memRead, prefetchUE, found, usable, if_true, beq_self_eq_true]
  · rw [run _ _ up, memRead_right right]

end Sys2Proof.Machine
end

section
/-! Answers to faults, invalidations, roots, keys, hot counts and pinned regions (08 R222; 09 R247, R251, R252, R257 to R262, R266). -/

namespace Sys2Proof.Machine

variable {s t : State}

/-! ### Answers to a fault -/

section
variable {i gen : Nat}

theorem answerRetry_stale (none_ : pendingFault s i gen = none) : answerRetry i gen s = bump1 R.CNT_FQ_STALE_RESP s := by
  simp only [answerRetry, none_]

theorem answerFatal_stale (none_ : pendingFault s i gen = none) : answerFatal i gen s = bump1 R.CNT_FQ_STALE_RESP s := by
  simp only [answerFatal, none_]

theorem answerRetry_served {f : FqSlot} {e : TEnt} (pending : pendingFault s i gen = some f) (served : rewalk (countRewalk f s) f = .inl e) :
    answerRetry i gen s = serveFault i R.CNT_FQ_RETRY f e (countRewalk f s) := by
  simp only [answerRetry, pending, served]

theorem answerRetry_renewed {f : FqSlot} {k lo hi : Nat} (pending : pendingFault s i gen = some f) (renewed : rewalk (countRewalk f s) f = .inr (k, lo, hi)) :
    answerRetry i gen s = bump1 R.CNT_FQ_REFAULT { countRewalk f s with fq := mput i { f with kind := k, lo := lo, hi := hi } (countRewalk f s).fq } := by
  simp only [answerRetry, pending, renewed]

theorem answerFatal_pending {f : FqSlot} (pending : pendingFault s i gen = some f) : answerFatal i gen s = fatalFault i f s := by
  simp only [answerFatal, pending]

theorem faultTimeout_pending {f : FqSlot} (pending : mfind i s.fq = some f) : faultTimeout i s
    = if fget s R.TLB_CFG F.TLB_CFG_FAULT_TIMEOUT == 0 then s else fatalFault i f (bump1 R.CNT_FQ_TIMEOUT s) := by
  simp only [faultTimeout, pending]

end

/-- Settles O35: a stale answer, the two outcomes of a renewed walk, FATAL and the time limit. -/
theorem faultAnswersNameTheirGeneration : Obligations.FaultAnswersNameTheirGeneration := by
  unfold Obligations.FaultAnswersNameTheirGeneration
  intro s i gen up
  have retry : ready s = true → exec (.fqRetry i gen) s = .next (after s (answerRetry i gen s)) := fun isReady => actReady_up s _ up isReady
  have fatal : ready s = true → exec (.fqFatal i gen) s = .next (after s (answerFatal i gen s)) := fun isReady => actReady_up s _ up isReady
  have timeout : exec (.faultTimeout i) s = .next (after s (faultTimeout i s)) := actSettle_up s _ up
  refine ⟨fun isReady none_ => ⟨?_, ?_⟩, fun f e isReady pending served => ?_, fun f k lo hi isReady pending renewed => ?_, fun f isReady pending => ?_,
    fun f pending limit => ?_, fun f pending limit => ?_⟩
  · rw [retry isReady, answerRetry_stale none_]
  · rw [fatal isReady, answerFatal_stale none_]
  · rw [retry isReady, answerRetry_served pending served]
  · rw [retry isReady, answerRetry_renewed pending renewed]
  · rw [fatal isReady, answerFatal_pending pending]
  · rw [timeout, faultTimeout_pending pending, if_neg (by simpa using limit)]
  · rw [timeout, faultTimeout_pending pending, if_pos (by simpa using limit)]

/-! ### Invalidations -/

theorem invComplete_idle {v : Inval} (running : s.inval = some v) (acked : s.awaits.any (fun a => a.what == 1) = false) (idle : ctxBusy s v = false) (none_ : s.fq = []) :
    invComplete s = bump1 R.CNT_TLB_INV (invSeq v.seq 0 0 { s with inval := none }) := by
  have faults : invFaults (bump1 R.CNT_TLB_INV (invSeq v.seq 0 0 { s with inval := none })) v = [] := by
    rw [invFaults, show (bump1 R.CNT_TLB_INV (invSeq v.seq 0 0 { s with inval := none })).fq = [] from none_]
    rfl
  simp only [invComplete, running, acked, idle, Bool.or_self, Bool.false_eq_true, if_false, faults]
  rfl

/-- Settles O36: a refusal at once, the two that start, and completion. -/
theorem invalidationsStartAndComplete : Obligations.InvalidationsStartAndComplete := by
  unfold Obligations.InvalidationsStartAndComplete
  intro s ctx seq up
  have context : ∀ all, ready s = true → exec (.invContext ctx all seq) s = .next (after s (invContext ctx all seq s)) := fun all isReady => actReady_up s _ up isReady
  have range : ∀ win, ready s = true → exec (.invRange ctx win seq) s = .next (after s (invRange ctx win seq s)) := fun win isReady => actReady_up s _ up isReady
  refine ⟨fun all win isReady busy => ⟨?_, ?_⟩, fun all isReady idle wide => ?_, fun all isReady idle small => ?_, fun isReady idle => ?_, fun v running acked idle none_ => ?_⟩
  · rw [context _ isReady, invContext, if_pos busy]
  · rw [range _ isReady, invRange, if_pos busy]
  · rw [context _ isReady, invContext, idle, Option.isSome_none, if_neg Bool.false_ne_true, if_pos (decide_eq_true wide)]
  · rw [context _ isReady, invContext, idle, Option.isSome_none, if_neg Bool.false_ne_true, if_neg (by simpa using small)]
  · rw [range _ isReady, invRange, idle, Option.isSome_none, if_neg Bool.false_ne_true]
    rfl
  · refine (actSettle_up s invComplete up).trans ?_
    rw [invComplete_idle running acked idle none_]

/-! ### Keys -/

theorem keyWrite_open (open_ : 2 ≤ s.stage) (f : State → State) : keyWrite f s = settle (f s) := if_pos (decide_eq_true open_)

/-- A change that nothing under its selector holds up takes effect at once. -/
theorem keyChange_idle {sel : Nat} (new : Option Nat) (none_ : s.keyPend = []) (idle : keyBusy s sel = false) : keyChange sel new s = keyEffect sel new s := by
  have same : { s with keyPend := [] } = s := (congrArg (fun l => ({ s with keyPend := l } : State)) none_).symm
  have idle_ : keyBusy { s with keyPend := [] } sel = false := idle
  simp only [keyChange, pumpKeys, none_, List.nil_append, each, List.foldl_cons, List.foldl_nil, idle_, List.any_nil, Bool.or_self, Bool.false_eq_true, if_false]
  rw [same]

theorem loadKey_refused (equal : key1 (keyInput s) = key2 (keyInput s)) : loadKey s = setBit R.TLB_STATUS 4 { s with keyData := List.replicate 8 0 } := by
  simp only [loadKey, equal, beq_self_eq_true, if_true]

theorem loadKey_idle (differ : key1 (keyInput s) ≠ key2 (keyInput s)) (none_ : s.keyPend = []) (idle : keyBusy s (keySel s) = false) :
    loadKey s = keyEffect (keySel s) (some (keyInput s)) { s with keyData := List.replicate 8 0 } := by
  rw [loadKey, if_neg (by simpa using differ)]
  exact keyChange_idle (s := { s with keyData := List.replicate 8 0 }) _ none_ idle

theorem unloadKey_loaded (loaded : keyLoaded s (keySel s) = true) (none_ : s.keyPend = []) (idle : keyBusy s (keySel s) = false) :
    unloadKey s = keyEffect (keySel s) none s := by
  rw [unloadKey, loaded, Bool.true_or, if_pos rfl, keyChange_idle _ none_ idle]

theorem unloadKey_absent (absent : keyLoaded s (keySel s) = false) (none_ : s.keyPend = []) : unloadKey s = s := by
  rw [unloadKey, absent, none_]
  rfl

/-! ### Pinned regions -/

theorem pinLoad_found {k : Nat} {d : Desc} {sheet : Nat} (loads : pinState s k = 1) (cool : tripped s = false)
    (found : findDesc s (pinA s k F.NM_PINk_A_SLOT) (pinA s k F.NM_PINk_A_TABLE_ID) (pinA s k F.NM_PINk_A_VERSION) = some d) (here : d.sheetOf (self s) = some sheet) :
    pinLoad k s = match quietLegend (pinA s k F.NM_PINk_A_SLOT) d s with
      | (none, t) => t
      | (some legend, t) => each (List.range (pinA t k F.NM_PINk_A_COUNT)) (pinLoadSlot k (pinA s k F.NM_PINk_A_SLOT) sheet d legend) t := by
  have goes : (pinState s k != 1 || tripped s) = false := by simp [loads, cool]
  simp only [pinLoad, goes, Bool.false_eq_true, if_false, found, here] <;> rfl

/-- Settles O37: roots, keys, the ledger's discard, decay and the loading of a region. -/
theorem rootsKeysHotCountsAndPins : Obligations.RootsKeysHotCountsAndPins := by
  unfold Obligations.RootsKeysHotCountsAndPins
  refine ⟨fun s up => ?_, fun s up => ⟨⟨_, act_up s hotDecay up, ?_, ?_, ?_, ?_⟩, fun k d sheet loads cool found here => ?_⟩⟩
  · have key : ∀ {f : State → State}, 2 ≤ s.stage → act s (keyWrite f) = .next (after s (f s)) := fun {f} open_ => by
      rw [act_up _ _ up, keyWrite_open open_]
      rfl
    have root : ∀ win i w, ready s = true → exec (.rootWrite win i w) s = .next (outcome s (writeRoot win i w s)) := fun win i w isReady => by
      rw [show exec (.rootWrite win i w) s = act s (fun s => if ready s then writeRoot win i w s else s) from rfl, act_up _ _ up, if_pos isReady]
    refine ⟨fun i w isReady known => ?_, fun i w isReady known => ?_, fun open_ equal => ?_, fun open_ differ none_ idle => ?_, fun open_ loaded none_ idle => ?_,
      fun open_ absent none_ => ?_, fun open_ waits warm => ?_⟩
    · rw [root _ _ _ isReady, writeRoot, if_neg Bool.false_ne_true, Nat.mod_eq_of_lt known]
      rfl
    · rw [root _ _ _ isReady, writeRoot, if_pos rfl, Nat.mod_eq_of_lt known]
      rfl
    · exact (key open_).trans (by rw [loadKey_refused equal])
    · exact (key open_).trans (by rw [loadKey_idle differ none_ idle])
    · exact (key open_).trans (by rw [unloadKey_loaded loaded none_ idle])
    · exact (key open_).trans (by rw [unloadKey_absent absent none_])
    · refine (key open_).trans ?_
      have goes : (!s.keyWait || s.startMode != 2) = false := by simp [waits, warm]
      rw [discardLedger, goes, if_neg Bool.false_ne_true]
  · exact outcome_keeps State.hot fun _ _ => rfl
  · exact outcome_regs _ _
  · exact outcome_far _ _
  · exact outcome_ops _ _
  · have load := act_up s (pinLoad k) up
    rw [pinLoad_found loads cool found here] at load
    refine ⟨fun none_ => ?_, fun legend t read => ?_, fun t unread => ?_⟩
    · have legend : quietLegend (pinA s k F.NM_PINk_A_SLOT) d s = (some [], s) := by simp [quietLegend, none_]
      rw [legend] at load
      exact load
    · rw [read] at load
      exact load
    · rw [unread] at load
      exact load

end Sys2Proof.Machine
end

section
/-! The host port: its state machine, and what a retrain holds (11 R309, R310; 12 R322). -/

namespace Sys2Proof.Machine

variable {s t : State}

/-- The host port is in one of the states in which it serves, retrains or is held. -/
theorem inService_iff (s : State) : (lstate s == LS.up || lstate s == LS.retrain || lstate s == LS.held) = true ↔
    lstate s = LS.up ∨ lstate s = LS.retrain ∨ lstate s = LS.held := by
  simp [or_assoc]

theorem hostRetrain_up (h : lstate s = LS.up) :
    hostRetrain s = setBit R.HST_STATUS 1 (bump1 R.CNT_HST_RETRAIN (setLstate LS.retrain { s with hstHeld := false })) := by
  rw [hostRetrain, h]
  rfl

theorem hostRetrain_held (h : lstate s = LS.held) :
    hostRetrain s = setBit R.HST_STATUS 1 (bump1 R.CNT_HST_RETRAIN (setLstate LS.retrain { s with hstHeld := true })) := by
  rw [hostRetrain, h]
  rfl

theorem hostRetrainDone_retrain (h : lstate s = LS.retrain) : hostRetrainDone s = hostDrain (each (s.hwrites.filter (·.sent))
    (fun w s => emit (.hostWrite w.path w.addr w.data) (bump1 R.CNT_HST_WR_REPLAY s)) (setLstate (if s.hstHeld then LS.held else LS.up) { s with hstHeld := false })) := by
  rw [hostRetrainDone, h]
  rfl

/-- With nothing in the crossings, taking what they hold changes nothing. -/
theorem uncross_empty (empty : s.crossing = []) : uncross s = s := by
  rw [uncross, empty]
  exact (congrArg (fun l => ({ s with crossing := l } : State)) empty).symm

/-- With every write sent, every read issued and no completion that waits, nothing queues behind a retrain. -/
theorem hostDrain_idle (writes : ∀ w ∈ s.hwrites, w.sent = true) (reads : s.hreads = []) (cpls : s.hostCpls = []) : hostDrain s = s := by
  have kept : s.hwrites.filter (fun w => w.sent) = s.hwrites := List.filter_eq_self.2 writes
  have none_ : s.hwrites.filter (fun w => !w.sent) = [] := List.filter_eq_nil_iff.2 fun w hw => by simp [writes w hw]
  rw [hostDrain]
  split
  · rfl
  · rw [kept, none_, reads, cpls]
    exact congrArg₂ (fun r c => ({ s with hreads := r, hostCpls := c } : State)) reads.symm cpls.symm

/-- A retrain behind which nothing queued replays the one write that it held. -/
theorem hostRetrainDone_replay {w : HWrite} (retrain : lstate s = LS.retrain) (unheld : s.hstHeld = false) (writes : s.hwrites = [w]) (sent : w.sent = true)
    (reads : s.hreads = []) (cpls : s.hostCpls = []) :
    hostRetrainDone s = emit (.hostWrite w.path w.addr w.data) (bump1 R.CNT_HST_WR_REPLAY (setLstate LS.up s)) := by
  have same : ({ s with hstHeld := false } : State) = s := (congrArg (fun b => ({ s with hstHeld := b } : State)) unheld).symm
  have held : s.hwrites.filter (·.sent) = [w] := by simp [writes, sent]
  rw [hostRetrainDone_retrain retrain, held, unheld, same]
  refine hostDrain_idle (s := emit (.hostWrite w.path w.addr w.data) (bump1 R.CNT_HST_WR_REPLAY (setLstate LS.up s))) (fun x hx => ?_) reads cpls
  have : x ∈ s.hwrites := hx
  rw [writes, List.mem_singleton] at this
  rw [this, sent]

theorem hostLost_inService {c : HostLossCause} (h : lstate s = LS.up ∨ lstate s = LS.retrain ∨ lstate s = LS.held) (noPin : c ≠ .resetPin) :
    hostLost c s = loseHost s := by
  have noPin' : (c == HostLossCause.resetPin) = false := by simp [noPin]
  simp only [hostLost, noPin', Bool.false_and, Bool.false_eq_true, if_false, (inService_iff s).2 h, if_true]

/-- The reset pin of a module that is there: it is recorded, and the host is lost from a state of service. -/
theorem hostLost_pin (h : lstate s = LS.up ∨ lstate s = LS.retrain ∨ lstate s = LS.held) (present : s.straps.host = true) :
    hostLost .resetPin s = loseHost { s with hstRst := true } := by
  have service : (lstate { s with hstRst := true } == LS.up || lstate { s with hstRst := true } == LS.retrain || lstate { s with hstRst := true } == LS.held) = true :=
    (inService_iff s).2 h
  simp only [hostLost, beq_self_eq_true, present, Bool.not_true, Bool.and_false, Bool.false_eq_true, if_false, if_true, service]

theorem hostLost_pin_training (training : lstate s = LS.training) (present : s.straps.host = true) :
    hostLost .resetPin s = if rget s R.CNT_HST_LOST == 0 then setLstate LS.down { s with hstRst := true } else loseHost { s with hstRst := true } := by
  have lstate_ : lstate { s with hstRst := true } = LS.training := training
  have rget_ : rget { s with hstRst := true } R.CNT_HST_LOST = rget s R.CNT_HST_LOST := rfl
  simp only [hostLost, beq_self_eq_true, present, Bool.not_true, Bool.and_false, Bool.false_eq_true, if_false, if_true, lstate_, rget_]
  rfl

theorem hostTraining_of (may : hostMayTrain s = true) (training : lstate s = LS.training) : hostTraining s = true := by
  rw [hostTraining, may, training]
  rfl

theorem lstate_ne_of (h : lstate s = a) (other : a ≠ b) : (lstate s == b) = false := by simp [h, other]

/-- Settles O42. -/
theorem hostPortRetrainsIsLostAndResumes : Obligations.HostPortRetrainsIsLostAndResumes := by
  intro s up
  refine ⟨fun h => ?_, fun h => ?_, fun h isReady => ?_, fun h => ?_, fun h => ?_, fun w h unheld writes sent reads cpls cross _ => ?_, fun h => ?_, fun c h noPin trained => ?_,
    fun h present => ?_, fun present stage clocks h => ?_, fun may h => ⟨?_, ?_⟩, fun h present => ⟨fun first => ?_, fun again => ?_⟩, fun isReady h => ?_⟩
  · rw [← hostRetrain_up h]
    exact act_up s hostRetrain up
  · rw [← hostRetrain_held h]
    exact act_up s hostRetrain up
  · rw [← hostRetrain_up h, show exec .hstRetrain s = act s (fun s => if ready s then hostRetrainReg s else s) from rfl, act_up _ _ up]
    simp only [isReady, if_true, hostRetrainReg, h, beq_self_eq_true]
  · rw [show exec .hstRetrain s = act s (fun s => if ready s then hostRetrainReg s else s) from rfl, act_up _ _ up]
    simp only [hostRetrainReg, beq_eq_false_iff_ne.2 h, Bool.false_eq_true, if_false, ite_self]
  · rw [← hostRetrainDone_retrain h]
    exact actSettle_up s (fun s => uncross (hostRetrainDone s)) up
  · rw [← hostRetrainDone_replay h unheld writes sent reads cpls, show exec .hostRetrainDone s = actSettle s (fun s => uncross (hostRetrainDone s)) from rfl,
      actSettle_up _ _ up, uncross_empty]
    rw [hostRetrainDone_replay h unheld writes sent reads cpls]
    exact cross
  · have e : retrainLimit s = loseHost s := by simp [retrainLimit, h]
    rw [← e]
    exact actSettle_up s retrainLimit up
  · rw [← hostLost_inService h noPin, show exec (.hostLost c) s = actInput s _ _ from rfl, actInput_up _ _ up]
    simp only [beq_eq_false_iff_ne.2 trained, Bool.false_eq_true, if_false]
    rfl
  · rw [← hostLost_pin h present, show exec (.hostLost .resetPin) s = actInput s _ _ from rfl, actInput_up _ _ up]
    rfl
  · have may : hostMayTrain { s with hstRst := false } = true := by simp [hostMayTrain, present, stage, clocks]
    have down : (lstate { s with hstRst := false } == LS.down || lstate { s with hstRst := false } == LS.lost) = true := by
      have : lstate s = LS.down ∨ lstate s = LS.lost := h
      rw [show lstate { s with hstRst := false } = lstate s from rfl]
      simpa using this
    rw [show exec .hstRstRelease s = actInput s (fun s => hostStartTraining { s with hstRst := false }) _ from rfl, actInput_up _ _ up, hostStartTraining, may, down]
    rfl
  · rw [show exec .hostModuleTrained s = actSettle s hostTrained from rfl, actSettle_up _ _ up, hostTrained, hostTraining_of may h, if_pos rfl]
  · rw [show exec (.hostLost .untrained) s = actInput s _ _ from rfl, actInput_up _ _ up]
    simp only [beq_self_eq_true, if_true, hostUntrained, hostTraining_of may h]
    rfl
  · have e : hostLost .resetPin s = setLstate LS.down { s with hstRst := true } := by simp [hostLost_pin_training h present, first]
    rw [← e, show exec (.hostLost .resetPin) s = actInput s _ _ from rfl, actInput_up _ _ up]
    rfl
  · have e : hostLost .resetPin s = loseHost { s with hstRst := true } := by
      rw [hostLost_pin_training h present, if_neg (by simpa using again)]
    rw [← e, show exec (.hostLost .resetPin) s = actInput s _ _ from rfl, actInput_up _ _ up]
    rfl
  · have e : hostResume s = setLstate LS.up s := by simp [hostResume, h]
    rw [← e]
    exact actReady_up s hostResume up isReady

end Sys2Proof.Machine
end

section
/-! The host's requests to the management space and the window, and the completions of the block's own reads (10 R290; 11 R297 to R304, R313). -/

namespace Sys2Proof.Machine

variable {s t : State} {q : HostReq}

/-! ### Data that comes by the host port -/

theorem hostRx_keeps {β : Type} (g : State → β) (ofRset : ∀ off w s, g (rset off w s) = g s) (n : Nat) (s : State) : g (hostRx n s) = g s := by
  unfold hostRx
  split
  · rfl
  · exact pmc_keeps g ofRset _ _ _ _ _ s

theorem rget_hostRx_other {o : Nat} (other : ∀ i, o ≠ R.CNT_PMCi i) (n : Nat) (s : State) : rget (hostRx n s) o = rget s o := by
  unfold hostRx
  split
  · rfl
  · exact rget_pmc_other other _ _ _ _ _ s

theorem hostRx_nothing (s : State) : hostRx 0 s = s := rfl

theorem lstate_hostRx (n : Nat) (s : State) : lstate (hostRx n s) = lstate s :=
  lstate_of_rget (rget_hostRx_other (fun i => by simp only [R.CNT_PMCi, R.HST_STATE]; omega) n s)

theorem rootBlock_hostRx (n : Nat) (s : State) : rootBlock (hostRx n s) = rootBlock s :=
  fget_of_rget_eq (rget_hostRx_other (fun i => by simp only [R.CNT_PMCi, R.LNK_CFG]; omega) n s) _

theorem straps_hostRx (n : Nat) (s : State) : (hostRx n s).straps = s.straps := hostRx_keeps State.straps (fun _ _ _ => rfl) n s

theorem self_hostRx (n : Nat) (s : State) : self (hostRx n s) = self s := congrArg strapNumber (straps_hostRx n s)

theorem nblocks_hostRx (n : Nat) (s : State) : nblocks (hostRx n s) = nblocks s := congrArg strapBlocks (straps_hostRx n s)

/-- What a request waits for does not depend on the counters. -/
theorem hostBlocked_hostRx (n : Nat) (s : State) (q : HostReq) : hostBlocked (hostRx n s) q = hostBlocked s q := by
  have reqs : (hostRx n s).winReqs = s.winReqs := hostRx_keeps State.winReqs (fun _ _ _ => rfl) n s
  have fwd : (hostRx n s).fwd = s.fwd := hostRx_keeps State.fwd (fun _ _ _ => rfl) n s
  rw [hostBlocked, lstate_hostRx, reqs, fwd, self_hostRx, fwdOut, fwd, ← fwdOut, ← hostBlocked]

/-! ### A request that need not wait is carried out as it comes -/

theorem hostArrives_inService (awake : s.pmode = 0) (service : lstate s = LS.up ∨ lstate s = LS.retrain ∨ lstate s = LS.held) (part : partReset s hostPart = false) :
    hostArrives q s = settle (hostRequest q s) := by
  rw [hostArrives, (inService_iff s).2 service, if_neg (by simp), wake_running awake]
  dsimp only
  rw [part, if_neg Bool.false_ne_true]

/-- The one request that waits is carried out, or waits on. -/
theorem pumpHost_single (idle : t.hostHeld = []) : pumpHost { t with hostHeld := [q] } = if hostBlocked t q then { t with hostHeld := [q] } else hostPerform q t := by
  have same : ({ t with hostHeld := [] } : State) = t := (congrArg (fun l => ({ t with hostHeld := l } : State)) idle).symm
  rw [pumpHost]
  dsimp only
  rw [each_cons, each_nil, same, idle]
  rfl

theorem hostRequest_inService (service : lstate s = LS.up ∨ lstate s = LS.retrain ∨ lstate s = LS.held) (idle : s.hostHeld = []) :
    hostRequest q s = if hostBlocked s q then { hostRx q.data.length s with hostHeld := [q] } else hostPerform q (hostRx q.data.length s) := by
  have held : (hostRx q.data.length s).hostHeld = [] := (hostRx_keeps State.hostHeld (fun _ _ _ => rfl) _ s).trans idle
  rw [hostRequest, if_neg (by rcases service with e | e | e <;> rw [e] <;> decide)]
  dsimp only
  rw [held, List.nil_append, pumpHost_single held, hostBlocked_hostRx]

theorem exec_hostArrives {c : Instr} (serves : HostServes s) (is : exec c s = act s (hostArrives q)) (open_ : hostBlocked s q = false) :
    exec c s = .next (after s (hostPerform q (hostRx q.data.length s))) := by
  obtain ⟨up, awake, state, idle, part⟩ := serves
  rw [is, act_up _ _ up, hostArrives_inService awake (.inl state) part, hostRequest_inService (.inl state) idle, open_]
  rfl

/-! ### The management space -/

/-- A request that lies in the management space of one block. -/
theorem hostPerform_mgmt {b off : Nat} (good : q.bad = none) (fits : q.write = true → q.len ≤ 512) (at_ : q.addr = b * 2 ^ 26 + off) (small : b < 64) (inside : off + q.len ≤ 2 ^ 26)
    (some_ : 1 ≤ q.len) (s : State) : hostPerform q s = mgmtRequest q s := by
  have long : (q.write && decide (512 < q.len)) = false := by
    rw [Bool.and_eq_false_iff]
    by_cases w : q.write = true
    · exact .inr (decide_eq_false (by have := fits w; omega))
    · exact .inl (by simpa using w)
  have below : q.addr < winBase := by unfold winBase; omega
  have stop : ¬ winBase < q.addr + q.len := by unfold winBase; omega
  rw [hostPerform, good]
  dsimp only
  rw [long, if_neg Bool.false_ne_true, if_pos below, if_neg stop]

/-- The block and the offset of an address of the management space. -/
theorem mgmtAddr_eq {b off width : Nat} (inside : off + width ≤ 2 ^ 26) (some_ : 1 ≤ width) : (b * 2 ^ 26 + off) / 2 ^ 26 = b ∧ (b * 2 ^ 26 + off) % 2 ^ 26 = off := by
  omega

section
variable {b off : Nat} (at_ : q.addr / 2 ^ 26 = b ∧ q.addr % 2 ^ 26 = off)
include at_

theorem mgmtRequest_ownRead (own : b = self s) (read : q.write = false) : mgmtRequest q s =
    hostCplOk q.tc q.addr (leBytes q.len (accessRead (.host q.tc) off q.len s).1.toNat) (accessRead (.host q.tc) off q.len s).2 := by
  rw [mgmtRequest, at_.1, at_.2, own]
  dsimp only
  rw [if_pos (beq_self_eq_true _), read, if_neg Bool.false_ne_true]

theorem mgmtRequest_ownWrite (own : b = self s) (write : q.write = true) : mgmtRequest q s = accessWrite (.host q.tc) off q.len (word (leNat q.data)) s := by
  rw [mgmtRequest, at_.1, at_.2, own]
  dsimp only
  rw [if_pos (beq_self_eq_true _), write, if_pos rfl]

theorem mgmtRequest_outOfSpace (other : b ≠ self s) (beyond : nblocks s ≤ b) : mgmtRequest q s = refuseHost VH.outOfSpace q s := by
  rw [mgmtRequest, at_.1]
  dsimp only
  rw [if_neg (by simpa using other), if_pos beyond]

theorem mgmtRequest_notRoot (other : b ≠ self s) (known : b < nblocks s) (root : rootBlock s ≠ self s) : mgmtRequest q s = refuseHost VH.notRoot q s := by
  rw [mgmtRequest, at_.1]
  dsimp only
  rw [if_neg (by simpa using other), if_neg (by omega), if_pos (by simpa using root)]

theorem mgmtRequest_forward (other : b ≠ self s) (known : b < nblocks s) (root : rootBlock s = self s) (ok : accessOk off q.len = true) :
    mgmtRequest q s = forwardAccess b q off q.len s := by
  rw [mgmtRequest, at_.1, at_.2]
  dsimp only
  rw [if_neg (by simpa using other), if_neg (by omega), if_neg (by simp [root]), if_neg (by simp [ok])]

end

/-! ### Breaches of the host side -/

theorem exec_unsupportedRequest (serves : HostServes s) (req : BadRequest) (addr : Nat) (hdr : Word) :
    exec (.unsupportedRequest req addr hdr) s = .next (after s (unsupportedRequest req addr hdr s)) := by
  refine exec_hostArrives (q := { tc := breachPath req, write := false, addr := addr, len := 0, data := [], bad := some (req, hdr) }) serves rfl ?_
  rw [hostBlocked, serves.2.2.1]
  rfl

/-- Settles O39. -/
theorem hostRequestsAreServedOrRefused : Obligations.HostRequestsAreServedOrRefused := by
  refine ⟨?_, fun s addr hdr serves => ?_, fun s req addr hdr up awake retrain idle part => ?_⟩
  · intro s tc off width v serves small inside some_ q req
    have run : ∀ b write, b < 64 → (write = true → width ≤ 512) → hostBlocked s (q b write) = false →
        req b write = .next (after s (mgmtRequest (q b write) (hostRx (q b write).data.length s))) := fun b write known fits open_ => by
      rw [← hostPerform_mgmt (q := q b write) rfl fits rfl known inside some_]
      exact exec_hostArrives serves rfl open_
    have at_ : ∀ b write, (q b write).addr / 2 ^ 26 = b ∧ (q b write).addr % 2 ^ 26 = off := fun b _ => mgmtAddr_eq inside some_
    refine ⟨fun open_ => ?_, fun fits open_ => ?_, fun b write known inTorus other root ok open_ fits => ?_, fun b known beyond own open_ => ?_, fun b known inTorus other root open_ => ?_⟩
    · rw [run _ _ small (by simp) open_, show hostRx (q (self s) false).data.length s = s from rfl, mgmtRequest_ownRead (at_ _ _) rfl rfl]
    · rw [run _ _ small (fun _ => fits) open_, mgmtRequest_ownWrite (at_ _ _) (self_hostRx _ s).symm rfl, show (q (self s) true).data.length = width from length_leBytes _ _]
      rfl
    · rw [run _ _ known (fun _ => fits) open_, mgmtRequest_forward (at_ _ _) (by rwa [self_hostRx]) (by rwa [nblocks_hostRx]) (by rwa [rootBlock_hostRx, self_hostRx]) ok]
    · rw [run _ _ known (by simp) open_, mgmtRequest_outOfSpace (at_ _ _) (by rw [self_hostRx]; omega) (by rwa [nblocks_hostRx])]
      rfl
    · rw [run _ _ known (by simp) open_, mgmtRequest_notRoot (at_ _ _) (by rwa [self_hostRx]) (by rwa [nblocks_hostRx]) (by rwa [rootBlock_hostRx, self_hostRx])]
      rfl
  · exact ⟨fun _ => exec_unsupportedRequest serves _ addr hdr, exec_unsupportedRequest serves _ addr hdr, fun _ => exec_unsupportedRequest serves _ addr hdr,
      exec_unsupportedRequest serves _ addr hdr, exec_unsupportedRequest serves _ addr hdr, exec_unsupportedRequest serves _ addr hdr, exec_unsupportedRequest serves _ addr hdr⟩
  · rw [show exec (.unsupportedRequest req addr hdr) s = act s (hostArrives { tc := breachPath req, write := false, addr := addr, len := 0, data := [], bad := some (req, hdr) }) from rfl,
      act_up _ _ up, hostArrives_inService awake (.inr (.inl retrain)) part, hostRequest_inService (.inr (.inl retrain)) idle, hostBlocked, retrain]
    rfl

/-! ### The window -/

/-- A request that lies in the window. -/
theorem hostPerform_window {off : Nat} (good : q.bad = none) (fits : q.write = true → q.len ≤ 512) (at_ : q.addr = 2 ^ 32 + off) (inside : off + q.len ≤ 2 ^ 32)
    (some_ : 1 ≤ q.len) (s : State) : hostPerform q s = winStart q.tc q.write off q.len q.data s := by
  have long : (q.write && decide (512 < q.len)) = false := by
    rw [Bool.and_eq_false_iff]
    by_cases w : q.write = true
    · exact .inr (decide_eq_false (by have := fits w; omega))
    · exact .inl (by simpa using w)
  have above : ¬ q.addr < winBase := by unfold winBase; omega
  have below : q.addr < 2 * winBase := by unfold winBase; omega
  have stop : ¬ 2 * winBase < q.addr + q.len := by unfold winBase; omega
  have off_ : q.addr - winBase = off := by unfold winBase; omega
  rw [hostPerform, good]
  dsimp only
  rw [long, if_neg Bool.false_ne_true, if_neg above, if_pos below, if_neg stop, off_]

/-- A write of more than the maximum payload is malformed. -/
theorem hostPerform_longWrite (good : q.bad = none) (write : q.write = true) (long : 512 < q.len) (s : State) : hostPerform q s = hostVlogOpen VH.badTlp q.addr s := by
  rw [hostPerform, good]
  dsimp only
  rw [if_pos (by simp [write, long])]

/-- The data of a window write of its own length is taken as it is. -/
theorem take_padTo {len : Nat} {d : Bytes} (whole : d.length = len) : (padTo len d).take len = d := by
  rw [padTo, List.take_append_of_le_length (by omega), List.take_of_length_le (by omega)]

theorem exec_hostWindowRequest_write {len : Nat} {d : Bytes} (tc addr : Nat) (whole : d.length = len) (s : State) :
    exec (.hostWindowRequest tc true addr len d) s = act s (hostArrives { tc := tc, write := true, addr := addr, len := len, data := d }) := by
  rw [show exec (.hostWindowRequest tc true addr len d) s
    = act s (hostArrives { tc := tc, write := true, addr := addr, len := len, data := (padTo len d).take len }) from rfl, take_padTo whole]

theorem winStart_disabled (tc : Nat) (write : Bool) (off len : Nat) (d : Bytes) (off_ : fbit s R.HST_WIN_CFG F.HST_WIN_CFG_ENABLE = false) :
    winStart tc write off len d s = (let u := hostVlogOpen VH.winDisabled (2 ^ 32 + off) (bump1 (if write then R.CNT_HST_WIN_WR else R.CNT_HST_WIN_RD) s)
      if write then u else hostCplFail .unsupported tc u) := by
  have same : fbit (bump1 (if write then R.CNT_HST_WIN_WR else R.CNT_HST_WIN_RD) s) R.HST_WIN_CFG F.HST_WIN_CFG_ENABLE = false := by
    rw [fbit, fget, bump1, rget_bump_other _ _ (by cases write <;> decide), ← fget, ← fbit, off_]
  rw [winStart]
  dsimp only
  rw [same, if_pos (by rfl)]
  rfl

/-- The window unit's configuration does not depend on the window's counters. -/
theorem winCfg_bump (write : Bool) (s : State) (f : Fld) :
    fget (bump1 (if write then R.CNT_HST_WIN_WR else R.CNT_HST_WIN_RD) s) R.HST_WIN_CFG f = fget s R.HST_WIN_CFG f := by
  rw [fget, bump1, rget_bump_other _ _ (by cases write <;> decide), ← fget]

/-- A request whose lines do not all translate fails at the first that does not. -/
theorem winStart_fails {tc off len : Nat} {write : Bool} {d : Bytes} {x : List (Nat × TEnt)} {line kind : Nat} {u : State} (on : fbit s R.HST_WIN_CFG F.HST_WIN_CFG_ENABLE = true)
    (fails : winLines (fget s R.HST_WIN_CFG F.HST_WIN_CFG_BASE * 4096) write (spanLines off len) (lineOf off) []
      (bump1 (if write then R.CNT_HST_WIN_WR else R.CNT_HST_WIN_RD) s) = ((x, some (line, kind)), u)) :
    winStart tc write off len d s = winFail tc write off line kind u := by
  have enabled : fbit (bump1 (if write then R.CNT_HST_WIN_WR else R.CNT_HST_WIN_RD) s) R.HST_WIN_CFG F.HST_WIN_CFG_ENABLE = true := by rw [fbit, winCfg_bump, ← fbit, on]
  rw [winStart]
  dsimp only
  rw [enabled, if_neg (by simp), winCfg_bump, fails]

/-! ### A request of the window that fails -/

theorem rget_vlog_other {o : Nat} (kind source q seq w1 w2 : Nat) (s : State) (count : o ≠ R.MG_VLOG_COUNT) (wrap : o ≠ R.CMD_CPT_STATUS) :
    rget (vlog kind source q seq w1 w2 s) o = rget s o := by
  unfold vlog
  dsimp only
  split
  · rw [setBit, rget_rset_other _ _ wrap, rget_rset_other _ _ count]
    rfl
  · rw [rget_rset_other _ _ count]
    rfl

theorem rget_hostVlogOpen_other {o : Nat} (kind addr : Nat) (s : State) (count : o ≠ R.MG_VLOG_COUNT) (wrap : o ≠ R.CMD_CPT_STATUS) :
    rget (hostVlogOpen kind addr s) o = rget s o := rget_vlog_other _ _ _ _ _ _ _ count wrap

theorem hostVlogOpen_keeps {β : Type} (g : State → β) (ofRset : ∀ off w s, g (rset off w s) = g s) (ofLog : ∀ l (s : State), g { s with vlog := l } = g s)
    (ofFresh : ∀ n (s : State), g { s with fresh := n } = g s) (kind addr : Nat) (s : State) : g (hostVlogOpen kind addr s) = g s :=
  (vlog_keeps g ofRset ofLog _ _ _ _ _ _ _).trans (ofFresh _ s)

/-- A request of the window that fails at a line, before a read is answered. -/
def winFailed (write : Bool) (off line kind : Nat) (s : State) : State :=
  let s := hostVlogOpen VH.winFault (winBase + off) (bump1 R.CNT_HST_WIN_FAULT s)
  setBit R.HST_STATUS 2 (if fbit s R.HST_WIN_FAULT F.HST_WIN_FAULT_VALID then s
    else rset R.HST_WIN_FAULT (word (fld 0 32 line + fld 32 4 kind + fld 36 1 (natOfBool write) + fld 37 1 1)) s)

theorem winFail_read (tc off line kind : Nat) (s : State) : winFail tc false off line kind s = hostCplFail .abort tc (winFailed false off line kind s) := rfl

theorem winFailed_keeps {β : Type} (g : State → β) (ofRset : ∀ off w s, g (rset off w s) = g s) (ofLog : ∀ l (s : State), g { s with vlog := l } = g s)
    (ofFresh : ∀ n (s : State), g { s with fresh := n } = g s) (write : Bool) (off line kind : Nat) (s : State) : g (winFailed write off line kind s) = g s := by
  have logged := (hostVlogOpen_keeps g ofRset ofLog ofFresh VH.winFault (winBase + off) (bump1 R.CNT_HST_WIN_FAULT s)).trans (ofRset _ _ s)
  unfold winFailed
  dsimp only
  split
  · exact (ofRset _ _ _).trans logged
  · exact (ofRset _ _ _).trans ((ofRset _ _ _).trans logged)

theorem rget_winFailed_other {o : Nat} (write : Bool) (off line kind : Nat) (s : State)
    (others : o ∉ [R.HST_STATUS, R.HST_WIN_FAULT, R.MG_VLOG_COUNT, R.CMD_CPT_STATUS]) :
    rget (winFailed write off line kind s) o = rget (bump1 R.CNT_HST_WIN_FAULT s) o := by
  simp only [List.mem_cons, List.not_mem_nil, or_false, not_or] at others
  obtain ⟨status, fault, count, wrap⟩ := others
  unfold winFailed
  dsimp only
  rw [setBit, rget_rset_other _ _ status]
  split
  · exact rget_hostVlogOpen_other _ _ _ count wrap
  · rw [rget_rset_other _ _ fault]
    exact rget_hostVlogOpen_other _ _ _ count wrap

/-- The line of the first failure is recorded, and kept until it is cleared. -/
theorem rget_winFailed_fault (write : Bool) (off line kind : Nat) (s : State) : rget (winFailed write off line kind s) R.HST_WIN_FAULT =
    if fbit s R.HST_WIN_FAULT F.HST_WIN_FAULT_VALID then rget s R.HST_WIN_FAULT
    else word (fld 0 32 line + fld 32 4 kind + fld 36 1 (natOfBool write) + fld 37 1 1) := by
  have same : rget (hostVlogOpen VH.winFault (winBase + off) (bump1 R.CNT_HST_WIN_FAULT s)) R.HST_WIN_FAULT = rget s R.HST_WIN_FAULT := by
    rw [rget_hostVlogOpen_other _ _ _ (by decide) (by decide), bump1, rget_bump_other _ _ (by decide)]
  have valid : fbit (hostVlogOpen VH.winFault (winBase + off) (bump1 R.CNT_HST_WIN_FAULT s)) R.HST_WIN_FAULT F.HST_WIN_FAULT_VALID
      = fbit s R.HST_WIN_FAULT F.HST_WIN_FAULT_VALID := by rw [fbit, fget, same, ← fget, ← fbit]
  unfold winFailed
  dsimp only
  rw [setBit, rget_rset_other _ _ (by decide), valid]
  split
  · exact same
  · rw [rget_rset_self]

theorem hostFlows_of (up : lstate s ≠ LS.retrain) (part : partReset s hostPart = false) : hostFlows s = true := by simp [hostFlows, up, part]

/-- The abort of a read that fails leaves at once. -/
theorem hostCplFail_flows (st : CplStatus) (tc : Nat) (flows : hostFlows (bump1 R.CNT_HST_REFUSED s) = true) :
    hostCplFail st tc s = emit (.hostCpl tc st []) (bump1 R.CNT_HST_REFUSED s) := by
  rw [hostCplFail, hostCplSend, flows]
  rfl

theorem winFail_flows (tc off line kind : Nat) (serves : HostServes s) :
    winFail tc false off line kind s = emit (.hostCpl tc .abort []) (bump1 R.CNT_HST_REFUSED (winFailed false off line kind s)) := by
  obtain ⟨up, awake, state, idle, part⟩ := serves
  have lstate_ : lstate (bump1 R.CNT_HST_REFUSED (winFailed false off line kind s)) = lstate s :=
    lstate_of_rget ((rget_bump_other _ _ (by decide)).trans ((rget_winFailed_other false off line kind s (by decide)).trans (rget_bump_other _ _ (by decide))))
  have scopes : (bump1 R.CNT_HST_REFUSED (winFailed false off line kind s)).scopes = s.scopes :=
    winFailed_keeps State.scopes (fun _ _ _ => rfl) (fun _ _ => rfl) (fun _ _ => rfl) false off line kind s
  rw [winFail_read, hostCplFail_flows _ _ (hostFlows_of (by rw [lstate_, state]; decide) (by rw [partReset, scopes]; exact part))]

/-- Settles O40. -/
theorem hostWindowServesOrFails : Obligations.HostWindowServesOrFails := by
  intro s serves
  refine ⟨fun tc off len inside some_ open_ => ?_, fun tc off len d inside some_ fits whole open_ => ?_, fun tc off len d _ long whole open_ => ?_, fun disabled tc off len d => ?_,
    fun on tc write off len d x line kind u fails => winStart_fails on fails, fun tc off line kind => ?_, fun tag f rid i found dest => ?_, fun w isReady => ?_⟩
  · rw [exec_hostArrives (c := .hostWindowRequest tc false (2 ^ 32 + off) len []) serves rfl open_, hostPerform_window rfl (by simp) rfl inside some_]
    dsimp only
    rw [if_neg Bool.false_ne_true, List.length_nil, hostRx_nothing]
  · rw [exec_hostArrives serves (exec_hostWindowRequest_write tc _ whole s) open_, hostPerform_window rfl (fun _ => fits) rfl inside some_, whole]
  · rw [exec_hostArrives serves (exec_hostWindowRequest_write tc _ whole s) open_, hostPerform_longWrite rfl rfl long, whole]
  · exact ⟨winStart_disabled tc false off len [] disabled, winStart_disabled tc true off len d disabled⟩
  · intro t
    have is : t = emit (.hostCpl tc .abort []) (bump1 R.CNT_HST_REFUSED (winFailed false off line kind s)) := winFail_flows tc off line kind serves
    have reg : ∀ o, o ≠ R.CNT_HST_REFUSED → rget t o = rget (winFailed false off line kind s) o := fun o other => by
      rw [is]
      exact rget_bump_other (s := winFailed false off line kind s) 1 other
    refine ⟨?_, ?_, ?_, ?_, fun invalid => ?_, fun valid => ?_⟩
    · rw [reg _ (by decide), rget_winFailed_other _ _ _ _ _ (by decide), bump1, rget_bump]
    · rw [is, emit_out, List.getLast?_concat]
    · rw [is]
      exact winFailed_keeps State.far (fun _ _ _ => rfl) (fun _ _ => rfl) (fun _ _ => rfl) false off line kind s
    · rw [is]
      exact winFailed_keeps State.ops (fun _ _ _ => rfl) (fun _ _ => rfl) (fun _ _ => rfl) false off line kind s
    · rw [reg _ (by decide), rget_winFailed_fault, invalid, if_neg Bool.false_ne_true, show fld 36 1 (natOfBool false) = 0 from by decide, Nat.add_zero]
    · rw [reg _ (by decide), rget_winFailed_fault, valid, if_pos rfl]
  · have e : remoteTimeout tag s = winPieceFail rid i WF.timeout s := by simp only [remoteTimeout, found, dest]
    rw [← e]
    exact actSettle_up s (remoteTimeout tag) serves.1
  · rw [show exec (.hstWinCfgWrite w) s = act s (fun s => if ready s then writeWinCfg w s else s) from rfl, act_up _ _ serves.1]
    simp only [isReady, if_true]
    rfl

/-! ### The reads of host memory -/

theorem exec_hostCompletion_taken (up : s.up = true) (open_ : completionHeld s = false) (tag : Nat) (st : CplStatus) (data : Bytes) :
    exec (.hostCompletion tag st data) s = .next (after s (completeAll (settle (hostCompletion tag st data s)))) := by
  rw [show exec (.hostCompletion tag st data) s = actSettle s (fun s => if completionHeld s then { s with crossing := s.crossing ++ [.completion tag st data] }
    else completionArrives tag st data s) from rfl, actSettle_up _ _ up, open_, if_neg Bool.false_ne_true, completionArrives]

theorem hostCompletion_read {tag : Nat} {r : HRead} (state : lstate s = LS.up) (found : findRead s tag = some r) (st : CplStatus) (data : Bytes) :
    hostCompletion tag st data s = hostReadPump (if st == .success && (data.length == r.len || r.flush) then readGot r data s else failRead r s) := by
  rw [hostCompletion, state, found]
  rfl

theorem hostCompletion_unexpected {tag : Nat} (state : lstate s = LS.up) (found : findRead s tag = none) (st : CplStatus) (data : Bytes) :
    hostCompletion tag st data s = hostVlogOpen VH.unexpectedCpl (freeNat s).1 (freeNat s).2 := by
  rw [hostCompletion, state, found]
  rfl

/-- Settles O41. -/
theorem hostReadsEndByCompletionOrTimeout : Obligations.HostReadsEndByCompletionOrTimeout := by
  refine ⟨fun s tag st data up waits => ?_, fun s tag up state part => ?_⟩
  · have held : completionHeld s = true := by rcases waits with e | e <;> simp [completionHeld, e]
    rw [show exec (.hostCompletion tag st data) s = actSettle s (fun s => if completionHeld s then { s with crossing := s.crossing ++ [.completion tag st data] }
      else completionArrives tag st data s) from rfl, actSettle_up _ _ up, held, if_pos rfl]
  · have open_ : completionHeld s = false := by
      rw [completionHeld, part, state]
      rfl
    have timeout : exec (.cplTimeout tag) s = .next (after s (cplTimeout tag s)) := actSettle_up s (cplTimeout tag) up
    refine ⟨fun found st data => ?_, fun r data found good => ?_, fun r st data found bad => ?_, fun r data found short noFlush => ?_, fun r found => ?_, fun found => ?_⟩
    · rw [exec_hostCompletion_taken up open_, hostCompletion_unexpected state found]
    · rw [exec_hostCompletion_taken up open_, hostCompletion_read state found, if_pos (by simpa using good)]
    · rw [exec_hostCompletion_taken up open_, hostCompletion_read state found, if_neg (by simp [bad])]
    · rw [exec_hostCompletion_taken up open_, hostCompletion_read state found, if_neg (by simp [short, noFlush])]
    · rw [timeout, cplTimeout, state, found]
      rfl
    · rw [timeout, cplTimeout, state, found]
      rfl

end Sys2Proof.Machine
end

section
/-! Flits, the training of ports, link records and the compass (10 R271 to R289; 14 R379 to R382), and the start and end of a migration (14 R383, R386). -/

namespace Sys2Proof.Machine

variable {s t : State} {k : Nat}

/-! ### Flits -/

section
variable (known : k < 6) (state : portState s k = PS.up)
include known state

theorem flitReceive_unreadable (hdr : Word) (b : Bytes) (crc : Nat) :
    flitReceive k hdr b crc .uncorrectable s = sendNak k (bump1 (R.CNT_LNK_Pk_FEC_UNCORR k) s) := by
  rw [flitReceive, state, decide_eq_false (by omega)]
  rfl

/-- A flit that is read without a correction is checked by its CRC. -/
theorem flitReceive_good {hdr : Word} {b : Bytes} {crc : Nat} (whole : b.length = 116) : flitReceive k hdr b crc .good s =
    if crc32 (leBytes 8 hdr.toNat ++ b) != crc then sendNak k (bump1 (R.CNT_LNK_Pk_CRC k) s)
    else pumpLinks (let u := flitCredit k hdr (flitAck k hdr s); if portState u k == PS.up && wbits hdr 0 2 != 0 then flitSeq k hdr b u else u) := by
  rw [flitReceive, state, decide_eq_false (by omega), take_padTo whole]
  rfl

end

/-- Settles O44. -/
theorem flitsAreTakenInSequence : Obligations.FlitsAreTakenInSequence := by
  intro s k hdr b crc up known state whole
  have run : ∀ cw, exec (.flitReceive k hdr b crc cw) s = .next (outcome s (flitReceive k hdr b crc cw s)) := fun cw => act_up s (flitReceive k hdr b crc cw) up
  have timer : ∀ j, exec (.linkAckTimer j) s = .next (outcome s (if decide (j < 6) && portState s j == PS.up then sendAck j s else s)) := fun j =>
    act_up s (fun s => if decide (j < 6) && portState s j == PS.up then sendAck j s else s) up
  refine ⟨?_, fun bad => ?_, fun good idle => ?_, fun good seq still => ?_, ?_, fun j down => ?_⟩
  · rw [run, flitReceive_unreadable known state]
  · rw [run, flitReceive_good known state whole, if_pos (by simpa using bad)]
  · rw [run, flitReceive_good known state whole, if_neg (by simpa using good)]
    dsimp only
    rw [if_neg (by simp [idle])]
  · rw [run, flitReceive_good known state whole, if_neg (by simpa using good)]
    dsimp only
    rw [if_pos (by simp [still, seq])]
  · rw [timer, if_pos (by simp [known, state])]
  · rw [timer, if_neg (by simp [down])]

/-! ### Training -/

section
variable (known : k < 6) (training : portState s k = PS.training)
include known training

/-- The guard of every event of training. -/
theorem inTraining : (decide (6 ≤ k) || portState s k != PS.training) = false := by simp [training, known]

theorem trainingStep_goodLanes (tx rx : Nat) (early : (port s k).step ≤ 4) : trainingStep k (.goodLanes tx rx) s =
    fset (R.LNK_Pk_STATUS k) F.LNK_Pk_STATUS_TX_GOOD tx (fset (R.LNK_Pk_STATUS k) F.LNK_Pk_STATUS_RX_GOOD rx s) := by
  rw [trainingStep, inTraining known training, if_neg Bool.false_ne_true]
  dsimp only
  rw [if_pos early]

theorem trainingStep_identity (p : PartnerId) (at_ : (port s k).step = 5) : trainingStep k (.identity p) s = takeIdentity k p s := by
  rw [trainingStep, inTraining known training, if_neg Bool.false_ne_true]
  dsimp only
  rw [if_pos (by simp [at_])]

theorem trainingStep_failed (i : Nat) (at_ : (port s k).step = i) : trainingStep k (.stepFailed i) s = trainingFails k s := by
  rw [trainingStep, inTraining known training, if_neg Bool.false_ne_true]
  dsimp only
  rw [if_pos (by simp [at_])]

/-- A step that is done goes on by its number. -/
theorem trainingStep_done (i : Nat) (at_ : (port s k).step = i) (some_ : i ≠ 0) (other : i ≠ 5) : trainingStep k (.stepDone i) s =
    if i == 6 then applyWidths k s else if i == 7 then portUp k s else if i == 1 && clockBad s (11 + k) then trainingFails k s
    else let u := updPort k (fun q => { q with step := i + 1 }) s
      if i == 4 then emit (.partner k (ownIdentity u k)) u else u := by
  rw [trainingStep, inTraining known training, if_neg Bool.false_ne_true]
  dsimp only
  rw [at_, if_neg (by simp [some_, other])]

end

/-- Before step 5 a port whose step fails begins again, but the third time is DEAD. -/
theorem trainingFails_again (early : (port s k).step ≤ 4) (few : fget s (R.LNK_Pk_STATUS k) F.LNK_Pk_STATUS_TRIES < 2) :
    trainingFails k s = updPort k (fun q => { q with step := 1 }) (setTries k (fget s (R.LNK_Pk_STATUS k) F.LNK_Pk_STATUS_TRIES + 1) s) := by
  rw [trainingFails]
  rw [if_neg (by rw [decide_eq_true_iff]; omega), if_pos (by omega)]

theorem trainingFails_dead (early : (port s k).step ≤ 4) (many : 2 ≤ fget s (R.LNK_Pk_STATUS k) F.LNK_Pk_STATUS_TRIES) :
    trainingFails k s = trainingLost k PS.dead (setTries k 3 s) := by
  rw [trainingFails]
  rw [if_neg (by rw [decide_eq_true_iff]; omega), if_neg (by omega)]

theorem retrainPort_up (known : k < 6) (state : portState s k = PS.up) : retrainPort k s =
    linkEvent 0 k (bump1 R.CNT_LNK_RETRAIN (setPortState k PS.retrain (updPort k (fun q => { q with naks := 0 }) s))) := by
  rw [retrainPort, if_neg (by simp [known, state])]

theorem fastRetrainEnd_retrain (known : k < 6) (state : portState s k = PS.retrain) (tx rx : Nat) : fastRetrainEnd k tx rx s =
    (let u := updPort k (fun q => { q with flits := 0 }) (setLanes k tx rx s)
    if widthOf tx == 0 || widthOf rx == 0 then portGone k PS.dead u
    else pumpLinks (sendMap k (raiseRecord k (markNarrow k (resend k (port u k).acked (setPortState k PS.up u)))))) := by
  rw [fastRetrainEnd, if_neg (by simp [known, state])]

theorem handoffTimeout_awaited {b : Nat} (known : k < 6) (awaited : (port s k).handoff = true) (wired : neighbour s.straps (self s) k = some b) :
    handoffTimeout k s = updPort k (fun q => { q with handoff := false })
      (if (linkEvent 4 k s).unreach.contains b then linkEvent 4 k s else declareUnreachable b (linkEvent 4 k s)) := by
  rw [handoffTimeout, if_neg (by simp [known, awaited]), wired]

/-- Settles O46. -/
theorem portsTrainRetrainAndLeave : Obligations.PortsTrainRetrainAndLeave := by
  intro s k up known
  have step_ : ∀ ev, exec (.portTrainingStep k ev) s = .next (outcome s (trainingStep k ev s)) := fun ev => act_up s (trainingStep k ev) up
  have handoff : exec (.handoffTimeout k) s = .next (after s (handoffTimeout k s)) := actSettle_up s (handoffTimeout k) up
  have fast : ∀ tx rx, exec (.fastRetrainEnd k tx rx) s = .next (outcome s (fastRetrainEnd k tx rx s)) := fun tx rx => act_up s (fastRetrainEnd k tx rx) up
  refine ⟨fun i training at_ low high clock => ?_, fun training at_ clock => ?_, fun training at_ => ?_, fun tx rx training early => ?_, fun training at_ => ?_,
    fun i training at_ low high few => ?_, fun i training at_ low high many => ?_, fun p training at_ bad => ?_, fun p training at_ good => ?_, fun training at_ => ?_,
    fun c state => ?_, fun isReady state => ?_, fun tx rx state someTx someRx => ?_, fun tx rx state none_ => ?_, fun bg dead notEntering notDeep => ?_, fun isReady state => ?_,
    fun isReady state => ?_, fun b awaited wired _ fresh => ?_, fun b awaited wired known_ => ?_, fun none_ => ?_, fun unwired => ?_⟩
  · have clock_ : (i == 1 && clockBad s (11 + k)) = false := by
      by_cases first : i = 1
      · simp [clock first]
      · simp [first]
    rw [step_, trainingStep_done known training i at_ (by omega) (by omega), if_neg (by simp; omega), if_neg (by simp; omega), clock_, if_neg Bool.false_ne_true]
    dsimp only
    rw [if_neg (by simp; omega)]
  · rw [step_, trainingStep_done known training 1 at_ (by omega) (by omega), clock]
    rfl
  · rw [step_, trainingStep_done known training 4 at_ (by omega) (by omega)]
    rfl
  · rw [step_, trainingStep_goodLanes known training tx rx early]
  · rw [step_, trainingStep_done known training 6 at_ (by omega) (by omega), if_pos (by rfl), applyWidths]
    simp only [Bool.or_eq_true, beq_iff_eq]
  · rw [step_, trainingStep_failed known training i at_, trainingFails_again (by omega) few]
  · rw [step_, trainingStep_failed known training i at_, trainingFails_dead (by omega) many]
  · rw [step_, trainingStep_identity known training p at_, takeIdentity, bad, if_neg Bool.false_ne_true]
  · rw [step_, trainingStep_identity known training p at_, takeIdentity, good, if_pos rfl]
  · rw [step_, trainingStep_done known training 7 at_ (by omega) (by omega)]
    rfl
  · rw [← retrainPort_up known state]
    exact act_up s (retrainPort k) up
  · rw [show exec (.lnkRetrain k) s = act s (fun s => if ready s then retrainPort k s else s) from rfl, act_up _ _ up, isReady, if_pos rfl, retrainPort_up known state]
  · rw [fast, fastRetrainEnd_retrain known state]
    dsimp only
    rw [if_neg (by simp [someTx, someRx])]
  · rw [fast, fastRetrainEnd_retrain known state]
    dsimp only
    rw [if_pos (by simpa using none_)]
  · rw [show exec (.bgRetrain k) s = act s (fun s => if fbit s R.LNK_CFG F.LNK_CFG_BG_RETRAIN && portState s k == PS.dead && s.pmode != 3 && s.pmode != 5
      then startTraining k s else s) from rfl, act_up _ _ up, if_pos (by simp [bg, dead, notEntering, notDeep])]
  · have e : disablePort k s = portGone k PS.disabled s := by
      rw [disablePort]
      rw [if_neg (by rw [decide_eq_true_iff]; omega), if_pos (by simpa using state)]
    rw [show exec (.lnkDisable k) s = act s (fun s => if ready s then disablePort k s else s) from rfl, act_up _ _ up, isReady, if_pos rfl, e]
  · have e : enablePort k s = startTraining k s := by
      rw [enablePort]
      rw [if_pos (by simpa [or_assoc] using state)]
    rw [show exec (.lnkEnable k) s = act s (fun s => if ready s then enablePort k s else s) from rfl, act_up _ _ up, isReady, if_pos rfl, e]
  · rw [handoff, handoffTimeout_awaited known awaited wired, show (linkEvent 4 k s).unreach = s.unreach from rfl, fresh, if_neg Bool.false_ne_true]
  · rw [handoff, handoffTimeout_awaited known awaited wired, show (linkEvent 4 k s).unreach = s.unreach from rfl, known_, if_pos rfl]
  · rw [handoff, handoffTimeout, if_pos (by simp [none_])]
  · rw [startTraining, if_pos (by simp [unwired])]

/-! ### Link records and the compass -/

/-- A record of another block's port replaces an older one and goes on. -/
theorem linkRecord_other {b r st w v : Nat} (known : b < nblocks s) (six : r < 6) (other : b ≠ self s) : linkRecord k b r st w v s =
    if v ≤ ((mfind (b * 8 + r) s.linkMap).map (·.version)).getD 0 then s
    else flood (some k) b r { state := st, width := w, version := v } (compassDue { s with linkMap := mput (b * 8 + r) { state := st, width := w, version := v } s.linkMap }) := by
  have version_ : ((mfind (b * 8 + r) s.linkMap).getD { state := 0, width := 0, version := 0 }).version = ((mfind (b * 8 + r) s.linkMap).map (·.version)).getD 0 := by
    cases mfind (b * 8 + r) s.linkMap <;> rfl
  rw [linkRecord, if_neg (by simp; omega), if_neg (by simpa using other)]
  dsimp only
  rw [version_]

theorem declareUnreachable_known {b : Nat} (known : b = self s ∨ s.unreach.contains b = true) : declareUnreachable b s = s := by
  rw [declareUnreachable, if_pos (by rcases known with e | e <;> rw [e] <;> simp)]

/-- Declaring blocks that are known to be unreachable, or this one, changes nothing. -/
theorem each_declareUnreachable_known : ∀ {l : List Nat}, (∀ b ∈ l, b = self s ∨ s.unreach.contains b = true) → each l declareUnreachable s = s
  | [], _ => rfl
  | b :: l, known => by
    rw [each_cons, declareUnreachable_known (known b List.mem_cons_self)]
    exact each_declareUnreachable_known fun x hx => known x (List.mem_cons_of_mem _ hx)

/-- A compass whose escape routes are those of the one before, and which declares no block, changes the routes alone. -/
theorem compassInstall_unchanged (due : fget s R.LNK_COMPASS_GEN F.LNK_COMPASS_GEN_PENDING ≠ 0) (owes : ∀ k < 6, (port s k).owes = false)
    (routed : ∀ x ∈ (computeCompass s.straps s.linkMap (self s)).2, x.2.esc = 7 → x.1 = self s ∨ s.unreach.contains x.1 = true)
    (same : ((computeCompass s.straps s.linkMap (self s)).2.map fun x => (x.1, x.2.esc)) = ((List.range (nblocks s)).map fun d => (d, (compassOf s d).esc))) :
    compassInstall s = pumpLinks (rset R.LNK_COMPASS_GEN (word (fld 0 8 (compassGen s) + fld 8 1 (computeCompass s.straps s.linkMap (self s)).1))
      { s with compass := (computeCompass s.straps s.linkMap (self s)).2 }) := by
  have gone : ∀ b ∈ ((computeCompass s.straps s.linkMap (self s)).2.filter fun x => x.2.esc == 7).map (·.1), b = self s ∨ s.unreach.contains b = true := fun b hb => by
    obtain ⟨x, hx, rfl⟩ := List.mem_map.1 hb
    obtain ⟨mem, esc⟩ := List.mem_filter.1 hx
    exact routed x mem (by simpa using esc)
  have none_ : (List.range 6).filter (fun k => (port s k).owes) = [] := List.filter_eq_nil_iff.2 fun j hj => by simp [owes j (List.mem_range.1 hj)]
  have kept := each_declareUnreachable_known (s := rset R.LNK_COMPASS_GEN (word (fld 0 8 (compassGen s) + fld 8 1 (computeCompass s.straps s.linkMap (self s)).1))
    { s with compass := (computeCompass s.straps s.linkMap (self s)).2 }) gone
  rw [compassInstall, if_neg (by simpa using due)]
  dsimp only
  rw [same, bne_self_eq_false, if_neg Bool.false_ne_true, kept]
  exact congrArg pumpLinks (congrArg (fun l => each l sendHandoff _) none_)

/-- Settles O47. -/
theorem linkStatesCompassAndLostBlocks : Obligations.LinkStatesCompassAndLostBlocks := by
  intro s up
  have record : ∀ k b r st w v, exec (.linkStateRecord k b r st w v) s
      = .next (outcome s (if decide (k < 6) && portState s k == PS.up then linkRecord k b r st w v s else s)) := fun k b r st w v =>
    act_up s (fun s => if decide (k < 6) && portState s k == PS.up then linkRecord k b r st w v s else s) up
  refine ⟨fun k b r st w v six state known rsix other newer => ?_, fun k b r st w v known rsix other older => ?_, fun _ => actSettle_up s compassInstall up,
    fun due owes => ?_, fun g => act_up s (compassExpire g) up, fun b gone kept => ?_⟩
  · rw [record, if_pos (by simp [six, state]), linkRecord_other known rsix other, if_neg (by omega)]
  · rw [record, linkRecord_other known rsix other, if_pos older, ite_self]
  · intro c routed same
    rw [← compassInstall_unchanged due owes routed same]
    exact actSettle_up s compassInstall up
  · rw [show exec (.lostTimeout b) s = actSettle s (fun s => if s.unreach.contains b && !s.lost.contains b then migPeerGone b (loseBlock b s) else s) from rfl,
      actSettle_up _ _ up, if_pos (by rw [gone, kept]; rfl)]

/-! ### Migrations -/

/-- Settles O48. -/
theorem migrationsStartFailAndCancel : Obligations.MigrationsStartFailAndCancel := by
  intro s up isReady a step why
  have start : exec .migStart s = .next (after s (migStart s)) := actReady_up s migStart up isReady
  have cancel : exec .migCancel s = .next (after s (migCancel s)) := actReady_up s migCancel up isReady
  refine ⟨fun r refused => ?_, fun d accepted found => ?_, fun m running early => ?_, fun m running late => ?_⟩
  · have refused_ : migRefusal s (bits a 0 4) (bits a 4 12) (bits a 16 16) (bits a 32 6) (bits a 38 6) step = some r := refused
    have e : migStart s = setBit R.MG_FENCE_STATUS 4 (migShow 4 0 r 0 s) := by
      unfold migStart
      dsimp only
      rw [refused_]
    rw [start, e]
  · intro m
    have accepted_ : migRefusal s (bits a 0 4) (bits a 4 12) (bits a 16 16) (bits a 32 6) (bits a 38 6) step = none := accepted
    have e : migStart s = migPump (migShow (if migRole s m == 0 then 2 else 1) (migRole s m) 0 0 { s with mig := some m, migHeld := [] }) := by
      unfold migStart
      dsimp only
      rw [accepted_, found]
      rfl
    rw [start, e]
  · rw [cancel, migCancel, running]
    dsimp only
    rw [early, if_neg Bool.false_ne_true]
  · rw [cancel, migCancel, running]
    dsimp only
    rw [late, if_pos rfl]

end Sys2Proof.Machine
end

section
/-! What the work of a queue and of a meridian leaves alone: the messages that wait for their place, the step of each MERIDIAN, and the modules of the compute port. -/

namespace Sys2Proof.Machine

variable {s t : State}

/-- The messages that wait in each queue, the step of each slot's MERIDIAN, and the states of the modules. -/
def aside (s : State) : List (List (Nat × Early)) × List (Option Nat) × List Nat :=
  (s.queues.map (·.early), s.jobs.map (fun j => j.mer.map (·.step)), s.cptMods)

/-- What sending on a link leaves alone. -/
theorem linkFrame_aside : LinkFrame (fun _ => True) aside where
  toLinkRegs := .all
  regs _ _ _ _ := rfl
  out _ _ := rfl
  ports _ _ := rfl
  fresh _ _ := rfl
  streams _ _ := rfl
  sendQ _ _ := rfl
  linkMap _ _ := rfl
  awaits _ _ := rfl

/-! ### Lists of queues and of jobs -/

/-- A part of each member that a change of one leaves alone. -/
theorem map_modify_same {α β : Type} (part : α → β) {f : α → α} (same : ∀ x, part (f x) = part x) (l : List α) (j : Nat) : (l.modify j f).map part = l.map part := by
  refine List.ext_getElem? fun i => ?_
  rw [List.getElem?_map, List.getElem?_map, List.getElem?_modify]
  cases l[i]? with
  | none => rfl
  | some x =>
    refine congrArg some ?_
    dsimp only
    split
    · exact same x
    · rfl

theorem aside_updQueue {f : Queue → Queue} (same : ∀ x, (f x).early = x.early) (q : Nat) (s : State) : aside (updQueue q f s) = aside s :=
  congrArg (fun l => (l, s.jobs.map (fun j => j.mer.map (·.step)), s.cptMods)) (map_modify_same (·.early) same s.queues q)

theorem aside_updJob {f : Job → Job} (same : ∀ j, (f j).mer.map (·.step) = j.mer.map (·.step)) (slot : Nat) (s : State) : aside (updJob slot f s) = aside s :=
  congrArg (fun l => (s.queues.map (·.early), l, s.cptMods)) (map_modify_same (fun j => j.mer.map (·.step)) same s.jobs slot)

theorem aside_updMer {f : Mer → Mer} (same : ∀ m, (f m).step = m.step) (slot : Nat) (s : State) : aside (updMer slot f s) = aside s :=
  aside_updJob (fun j => by
    rw [Option.map_map]
    exact congrArg (fun g => Option.map g j.mer) (funext same)) slot s

theorem aside_updPass (f : PassAt → PassAt) (slot : Nat) (s : State) : aside (updPass slot f s) = aside s := aside_updMer (by intro _; rfl) slot s

theorem early_of_aside (same : aside t = aside s) (q : Nat) : (queue t q).early = (queue s q).early := by
  have lists : t.queues.map (·.early) = s.queues.map (·.early) := congrArg Prod.fst same
  rw [queue, queue, ← List.getD_map (f := Queue.early), ← List.getD_map (f := Queue.early), lists]

theorem merStep_of_aside (same : aside t = aside s) (slot : Nat) : (job t slot).mer.map (·.step) = (job s slot).mer.map (·.step) := by
  have lists : t.jobs.map (fun j => j.mer.map (·.step)) = s.jobs.map (fun j => j.mer.map (·.step)) := congrArg (·.2.1) same
  have at_ : ∀ u : State, (u.jobs.map (fun j => j.mer.map (·.step))).getD slot none = (job u slot).mer.map (·.step) := fun u =>
    List.getD_map (l := u.jobs) (d := ({} : Job)) (f := fun j : Job => j.mer.map (·.step))
  rw [← at_, ← at_, lists]

theorem cptMods_of_aside (same : aside t = aside s) : t.cptMods = s.cptMods := congrArg (·.2.2) same

/-! ### Registers, logs and counters -/

theorem aside_elog (cls unit index detail w1 w2 : Nat) (s : State) : aside (elog cls unit index detail w1 w2 s) = aside s :=
  elog_keeps aside (fun _ _ _ => rfl) (fun _ _ => rfl) _ _ _ _ _ _ s

theorem aside_vlog (kind source q seq w1 w2 : Nat) (s : State) : aside (vlog kind source q seq w1 w2 s) = aside s :=
  vlog_keeps aside (fun _ _ _ => rfl) (fun _ _ => rfl) _ _ _ _ _ _ s

theorem aside_pmc (ev : Nat) (part port job : Option Nat) (n : Nat) (s : State) : aside (pmc ev part port job n s) = aside s :=
  pmc_keeps aside (fun _ _ _ => rfl) _ _ _ _ _ s

theorem aside_sendPacket (dest cls kind jobId : Nat) (body : Bytes) (s : State) : aside (sendPacket dest cls kind jobId body s) = aside s :=
  linkFrame_aside.sendPacket _ _ _ _ _ s

theorem aside_each {α : Type} {f : α → State → State} (same : ∀ x s, aside (f x s) = aside s) (l : List α) (s : State) : aside (each l f s) = aside s :=
  each_keeps aside same l s

theorem aside_ite {c : Prop} [Decidable c] (yes : aside s = aside u) (no : aside t = aside u) : aside (if c then s else t) = aside u := by
  split
  · exact yes
  · exact no

/-- The state that a result comes with. -/
theorem aside_done {α : Type} {x : α × State} {r : α} (moved : aside x.2 = aside s) (done : x = (r, t)) : aside t = aside s := by
  rw [done] at moved
  exact moved

/-! ### Memory and translation -/

theorem aside_hbmUE (pa : Nat) (s : State) : aside (hbmUE pa s) = aside s := aside_elog ..

theorem aside_farWriteLine (key : Nat) (p : Nat × Bytes) (s : State) : aside (farWriteLine key p s) = aside s :=
  by
  unfold farWriteLine
  exact aside_ite rfl (aside_pmc ..)

theorem aside_farWrite (key pa : Nat) (data : Bytes) (s : State) : aside (farWrite key pa data s) = aside s := aside_each (aside_farWriteLine key) _ s

theorem aside_faultRaised (kind : Nat) (s : State) : aside (faultRaised kind s) = aside s := faultRaised_keeps aside (fun _ _ _ => rfl) kind s

theorem aside_queueFault {kind lo hi : Nat} {r : TReq} (queued : queueFault kind lo hi r s = some t) : aside t = aside s := by
  unfold queueFault at queued
  split at queued
  · cases queued
    rfl
  · obtain ⟨-, queued⟩ := Option.ite_none_left_eq_some.mp queued
    cases queued
    exact aside_faultRaised kind _

theorem aside_raiseFault (kind lo hi : Nat) (r : TReq) (s : State) : aside (raiseFault kind lo hi r s) = aside s := by
  unfold raiseFault
  split
  next queued => exact aside_queueFault queued
  next => rfl

theorem aside_faultLost (kind : Nat) (r : TReq) (lo hi : Nat) (s : State) : aside (faultLost kind r lo hi s) = aside s := aside_faultRaised kind _

theorem aside_hotAccess (ctx va : Nat) (s : State) : aside (hotAccess ctx va s) = aside s := by
  unfold hotAccess
  exact aside_ite rfl rfl

theorem aside_lookup (keep : Bool) (client ctx va : Nat) (s : State) : aside (lookup keep client ctx va s).2.2 = aside s := by
  unfold lookup
  dsimp only
  split
  · rfl
  · have missed : aside (if client == CLI.winRecv then s else bump1 R.CNT_TLB_L1_MISS s) = aside s := aside_ite rfl rfl
    generalize (if client == CLI.winRecv then s else bump1 R.CNT_TLB_L1_MISS s) = t at missed ⊢
    refine Eq.trans ?_ missed
    split
    · split
      · rfl
      · exact aside_ite rfl rfl
    · split
      · exact aside_ite rfl rfl
      · exact aside_ite rfl rfl
      next ue _ =>
        cases ue with
        | none => rfl
        | some pa => exact aside_hbmUE pa _

theorem aside_translate (nowait : Bool) (r : TReq) (s : State) : aside (translate nowait r s).2 = aside s := by
  unfold translate
  split
  · rfl
  · have found := aside_lookup (!nowait) r.client r.ctx r.va s
    generalize lookup (!nowait) r.client r.ctx r.va s = x at found ⊢
    obtain ⟨w, fatal, t⟩ := x
    have fault : ∀ kind lo hi, aside (if nowait then (TRes.fatal, t) else if fget t R.HST_STATE F.HST_STATE_LSTATE == 4 then (TRes.fatal, faultLost kind r lo hi t)
        else (TRes.wait, raiseFault kind lo hi r t)).2 = aside t := fun kind lo hi => by
      split
      · rfl
      · split
        · exact aside_faultLost ..
        · exact aside_raiseFault ..
    refine Eq.trans ?_ found
    dsimp only
    split
    · exact fault ..
    · split
      · rfl
      · exact fault ..
    · split
      · exact aside_ite (aside_hotAccess ..) rfl
      · split
        · rfl
        · exact fault ..

theorem aside_unitLines (slot : Nat) (write : Bool) (who : Waiter) (n va : Nat) (acc : List (Nat × Nat)) (s : State) :
    aside (unitLines slot write who n va acc s).2 = aside s := by
  induction n generalizing va acc s with
  | zero => rfl
  | succ n ih =>
    unfold unitLines
    split
    next e u done =>
      refine Eq.trans ?_ (aside_done (aside_translate ..) done)
      split
      · exact ih _ _ u
      · rfl
    next done => exact aside_done (aside_translate ..) done

theorem aside_unitReady (slot va n : Nat) (s : State) : aside (unitReady slot va n s).2 = aside s :=
  aside_unitLines slot true (.update slot admKey) (spanLines va n) (lineOf va) [] s

theorem aside_spansReady (slot : Nat) (l : List (Nat × Nat)) (s : State) : aside (spansReady slot l s).2 = aside s := by
  induction l generalizing s with
  | nil => exact aside_unitReady ..
  | cons x r ih =>
    unfold spansReady
    split
    next done => exact (ih _).trans (aside_done (aside_unitReady ..) done)
    next => exact aside_unitReady ..

theorem aside_unitRead (slot va n : Nat) (who : Waiter) (s : State) : aside (unitRead slot va n who s).2 = aside s := by
  unfold unitRead
  split
  next done =>
    refine Eq.trans ?_ (aside_done (aside_unitLines ..) done)
    split
    · exact aside_hbmUE ..
    · exact aside_each (fun _ _ => aside_pmc ..) _ _
  next done => exact aside_done (aside_unitLines ..) done
  next done => exact aside_done (aside_unitLines ..) done

theorem aside_writeLines (l : List (Nat × Nat)) (off : Nat) (d : Bytes) (s : State) : aside (writeLines l off d s) = aside s := by
  induction l generalizing off d s with
  | nil => rfl
  | cons x r ih => exact (ih _ _ _).trans (aside_farWrite ..)

theorem aside_unitWrite (slot va : Nat) (data : Bytes) (who : Waiter) (s : State) : aside (unitWrite slot va data who s).2 = aside s := by
  unfold unitWrite
  split
  next done => exact (aside_writeLines ..).trans (aside_done (aside_unitLines ..) done)
  next done => exact aside_done (aside_unitLines ..) done

theorem aside_lineAt (slot va : Nat) (s : State) : aside (lineAt slot va s).2 = aside s :=
  aside_unitLines slot true (.update slot admKey) 1 (lineOf va) [] s

/-! ### The admission pass -/

theorem aside_pinDrop (k i : Nat) (s : State) : aside (pinDrop k i s) = aside s := by
  unfold pinDrop
  split
  · split
    · split
      · rfl
      · rfl
    · rfl
  · rfl

theorem aside_invalidateRow (slot : Nat) (d : Desc) (row : Nat) (s : State) : aside (invalidateRow slot d row s) = aside s := by
  unfold invalidateRow
  dsimp only
  split
  · exact aside_pinDrop ..
  · rfl

theorem aside_admitRow (slot : Nat) (d : Desc) (st id row : Nat) (s : State) : aside (admitRow slot d st id row s).2 = aside s := by
  unfold admitRow
  dsimp only
  split
  next done => exact (aside_each (fun p s => aside_unitWrite ..) _ _).trans ((aside_invalidateRow ..).trans (aside_done (aside_spansReady ..) done))
  next => exact aside_spansReady ..

theorem aside_passFault (slot : Nat) (s : State) : aside (passFault slot s) = aside s := aside_updMer (by intro _; rfl) slot s

theorem aside_migBucket (slot : Nat) (d : Desc) (b : Nat) (words rows : List Nat) (s : State) : aside (migBucket slot d b words rows s) = aside s := by
  unfold migBucket
  split
  · exact aside_ite rfl rfl
  · rfl

theorem aside_writeBucket (e : LSlot) (s : State) : aside (writeBucket e s) = aside s :=
  (aside_each (fun _ _ => aside_farWrite ..) _ _).trans (aside_farWrite ..)

theorem aside_passRows (slot : Nat) (d : Desc) (sheet st b : Nat) (l : List (Nat × Nat)) (s : State) : aside (passRows slot d sheet st b l s).2 = aside s := by
  induction l generalizing s with
  | nil =>
    unfold passRows
    dsimp only
    refine (aside_updPass ..).trans ((aside_updJob (by intro _; rfl) ..).trans ?_)
    split
    · rfl
    · rfl
  | cons x r ih =>
    unfold passRows
    split
    next done => exact (aside_updPass ..).trans (aside_done (aside_admitRow ..) done)
    next done => exact (ih _).trans ((aside_passFault ..).trans (aside_done (aside_admitRow ..) done))
    next done => exact (ih _).trans (aside_done (aside_admitRow ..) done)

/-- The lines of a bucket's bitmap, one after another. -/
theorem aside_bitmapLines (slot : Nat) (at_ : Nat → Nat) (bytes : Nat → Bytes) (l : List Nat) (acc : List (Nat × Bytes × Nat)) (s : State) :
    aside (l.foldl (fun (x : List (Nat × Bytes × Nat) × State) w => let (a, s) := lineAt slot (at_ w) x.2; (x.1 ++ [(a.1, bytes w, a.2)], s)) (acc, s)).2 = aside s := by
  induction l generalizing acc s with
  | nil => rfl
  | cons w l ih => exact (ih _ _).trans (aside_lineAt ..)

theorem aside_when {f : State → State} (same : ∀ s, aside (f s) = aside s) (c : Bool) (s : State) : aside (when c f s) = aside s := when_keeps aside same c s

theorem aside_bump (off n : Nat) (s : State) : aside (bump off n s) = aside s := rfl

/-- A bucket that cannot be read, or written, is passed without its rows. -/
theorem aside_passSkip {u : State} (slot : Nat) (d : Desc) (sheet st b : Nat) (same : aside u = aside s) :
    aside (passRows slot d sheet st b [] (passFault slot u)).2 = aside s := (aside_passRows ..).trans ((aside_passFault ..).trans same)

theorem aside_passOne (slot : Nat) (d : Desc) (sheet st rows b : Nat) (s : State) : aside (passOne slot d sheet st rows b s).2 = aside s := by
  unfold passOne
  extract_lets skip va bv
  split
  next done => exact aside_done (aside_unitRead ..) done
  next u bucket =>
    refine Eq.trans ?_ (aside_done (aside_unitRead ..) bucket)
    split
    next done => exact aside_done (aside_unitRead ..) done
    next v bitmap =>
      refine Eq.trans ?_ (aside_done (aside_unitRead ..) bitmap)
      extract_lets mine
      split
      extract_lets words
      split
      next done => exact aside_done (aside_spansReady ..) done
      next done => exact aside_passSkip _ _ _ _ _ (aside_done (aside_spansReady ..) done)
      next w done =>
        refine Eq.trans ?_ (aside_done (aside_spansReady ..) done)
        split
        next at0 x first =>
        split
        next ws y lines =>
        extract_lets fresh i e logged
        refine (aside_passRows ..).trans ?_
        rw [aside_bump, aside_bump, aside_bump, aside_bump]
        refine (aside_when (f := jobBit R.CMD_GZ_STATUS 0 slot) (fun s => rfl) _ _).trans ?_
        refine (aside_migBucket ..).trans ((aside_writeBucket ..).trans ((aside_updPass ..).trans ?_))
        exact (aside_done (aside_bitmapLines ..) lines).trans (aside_done (aside_lineAt ..) first)
    next done => exact aside_passSkip _ _ _ _ _ (aside_done (aside_unitRead ..) done)
  next done => exact aside_passSkip _ _ _ _ _ (aside_done (aside_unitRead ..) done)

theorem aside_passBuckets (slot : Nat) (d : Desc) (sheet st rows : Nat) (l : List Nat) (s : State) : aside (passBuckets slot d sheet st rows l s).2 = aside s := by
  induction l generalizing s with
  | nil => rfl
  | cons b r ih =>
    unfold passBuckets
    dsimp only
    split
    next done =>
      refine aside_done ?_ done
      split
      · exact aside_passRows ..
      · exact aside_passOne ..
    next done =>
      refine (ih _).trans (aside_done ?_ done)
      split
      · exact aside_passRows ..
      · exact aside_passOne ..

theorem aside_passMoved (slot : Nat) (d : Desc) (cv cur : Nat) (s : State) : aside (passMoved slot d cv cur s).2 = aside s := by
  unfold passMoved
  dsimp only
  split
  next done => exact aside_done (aside_spansReady ..) done
  next done => exact (aside_updPass ..).trans ((aside_passFault ..).trans (aside_done (aside_spansReady ..) done))
  next done => exact (aside_updPass ..).trans ((aside_unitWrite ..).trans (aside_done (aside_spansReady ..) done))

theorem aside_passSheet (slot : Nat) (d : Desc) (sheet st : Nat) (s : State) : aside (passSheet slot d sheet st s).2 = aside s := by
  unfold passSheet
  extract_lets j cv leave
  split
  · exact aside_updPass ..
  · split
    next done => exact aside_done (aside_unitRead ..) done
    next u cursor =>
      refine Eq.trans ?_ (aside_done (aside_unitRead ..) cursor)
      extract_lets cur p bs v
      split
      next done => exact (aside_done (aside_passBuckets ..) done).trans (aside_updPass ..)
      next done => exact (aside_passMoved ..).trans ((aside_done (aside_passBuckets ..) done).trans (aside_updPass ..))
    next done => exact (aside_updPass ..).trans ((aside_passFault ..).trans (aside_done (aside_unitRead ..) done))

theorem aside_passSheets (slot st : Nat) (l : List (Nat × Nat)) (s : State) : aside (passSheets slot st l s).2 = aside s := by
  induction l generalizing s with
  | nil => rfl
  | cons x r ih =>
    unfold passSheets
    dsimp only
    split
    next done =>
      refine aside_done ?_ done
      split
      · split
        · exact aside_passSheet ..
        · exact aside_updPass ..
      · exact aside_updPass ..
    next done =>
      refine (ih _).trans (aside_done ?_ done)
      split
      · split
        · exact aside_passSheet ..
        · exact aside_updPass ..
      · exact aside_updPass ..

theorem aside_passBegin (slot : Nat) (s : State) : aside (passBegin slot s) = aside s := aside_updMer (by intro _; rfl) slot s

theorem aside_passEnd (slot : Nat) (s : State) : aside (passEnd slot s) = aside s := by
  refine (aside_updJob (by intro _; rfl) ..).trans (aside_each (fun d s => ?_) _ s)
  exact aside_ite rfl (aside_unitWrite ..)

/-- A pass that has begun goes on with its sheets. -/
theorem aside_admissionPass_begun {slot : Nat} {p : PassAt} (begun : ((job s slot).mer.bind fun m => m.pass) = some p) (st : Nat) :
    aside (admissionPass slot st s).2 = aside s := by
  simp only [admissionPass, begun]
  split
  · rfl
  · split
    next done => exact (aside_updPass ..).trans (aside_done (aside_passSheets ..) done)
    next done => exact (aside_passEnd ..).trans (aside_done (aside_passSheets ..) done)

theorem aside_admissionPass (slot st : Nat) (s : State) : aside (admissionPass slot st s).2 = aside s := by
  cases begun : ((job s slot).mer.bind fun m => m.pass) with
  | some p => exact aside_admissionPass_begun begun st
  | none =>
    cases first : ((job (passBegin slot s) slot).mer.bind fun m => m.pass) with
    | none =>
      simp only [admissionPass, begun, first]
      exact aside_passBegin slot s
    | some p =>
      have same : admissionPass slot st s = admissionPass slot st (passBegin slot s) := by simp only [admissionPass, begun, first]
      rw [same]
      exact (aside_admissionPass_begun first st).trans (aside_passBegin slot s)

end Sys2Proof.Machine
end

section
/-! What delivery, an abort and the loss of the partner leave alone (03 R67, R74; 12 R321). -/

namespace Sys2Proof.Machine

variable {s t : State}

/-! ### Operations -/

theorem aside_updOp (q seq : Nat) (f : Op → Op) (s : State) : aside (updOp q seq f s) = aside s := rfl

theorem aside_opCond (q seq code : Nat) (s : State) : aside (opCond q seq code s) = aside s := rfl

theorem aside_opEnd (q seq code : Nat) (s : State) : aside (opEnd q seq code s) = aside s := rfl

theorem aside_endAtIssue (q seq : Nat) (s : State) : aside (endAtIssue q seq s) = aside s := rfl

theorem aside_dropWaiters (p : Waiter → Bool) (s : State) : aside (dropWaiters p s) = aside s := rfl

theorem aside_orphanReads (p : HRead → Bool) (s : State) : aside (orphanReads p s) = aside s := rfl

theorem aside_absorbTag (tag : Nat) (s : State) : aside (absorbTag tag s) = aside s := rfl

/-- The fetches and the requesters that wait for a tag. -/
theorem aside_fetches (f : List Fetch) (w : List (Pool × Dest)) (s : State) : aside { s with fetches := f, tagWait := w } = aside s := rfl

theorem aside_opVlog (q seq kind source w1 w2 : Nat) (s : State) : aside (opVlog q seq kind source w1 w2 s) = aside s := (aside_updOp ..).trans (aside_vlog ..)

theorem aside_opViolation (q seq kind source w1 w2 : Nat) (s : State) : aside (opViolation q seq kind source w1 w2 s) = aside s := (aside_opEnd ..).trans (aside_opVlog ..)

theorem aside_opWriteFail (q seq : Nat) (w : WLine) (s : State) : aside (opWriteFail q seq w s) = aside s := by
  unfold opWriteFail
  exact aside_ite rfl (aside_ite rfl rfl)

theorem aside_endStall (q seq : Nat) (s : State) : aside (endStall q seq s) = aside s := by
  unfold endStall
  split
  · rfl
  next o _ =>
    refine (aside_updOp ..).trans ?_
    split
    · rfl
    · rfl

theorem aside_closeWait (q seq : Nat) (s : State) : aside (closeWait q seq s) = aside s := by
  unfold closeWait
  split
  · exact aside_ite (aside_endStall ..) rfl
  · rfl

theorem aside_stopTiles (q seq : Nat) (s : State) : aside (stopTiles q seq s) = aside s := by
  unfold stopTiles
  split
  · rfl
  · extract_lets mine hosts a b c
    have absorbed : aside a = aside s := aside_each (fun _ _ => (aside_absorbTag ..).trans (aside_orphanReads ..)) hosts s
    exact (aside_updOp ..).trans ((aside_bump ..).trans ((aside_fetches ..).trans absorbed))

theorem aside_cancelOp (q seq : Nat) (s : State) : aside (cancelOp q seq s) = aside s := by
  unfold cancelOp
  extract_lets a b mine c d
  have stopped : aside b = aside s := (aside_dropWaiters ..).trans ((aside_stopTiles q seq a).trans (aside_closeWait q seq s))
  exact (aside_updOp ..).trans ((aside_fetches ..).trans ((aside_orphanReads ..).trans stopped))

theorem aside_abortOp (o : Op) (s : State) : aside (abortOp o s) = aside s := by
  unfold abortOp
  exact aside_ite ((aside_cancelOp ..).trans (aside_opEnd ..)) (aside_ite ((aside_endAtIssue ..).trans ((aside_cancelOp ..).trans (aside_opCond ..))) rfl)

/-! ### What an operation writes -/

theorem aside_hostTx (n : Nat) (s : State) : aside (hostTx n s) = aside s := by
  unfold hostTx
  exact aside_ite rfl (aside_pmc ..)

theorem aside_hostWrite1 (q seq key va addr : Nat) (data : Bytes) (s : State) : aside (hostWrite1 q seq key va addr data s) = aside s := by
  unfold hostWrite1
  exact aside_ite (aside_ite (aside_hostTx ..) rfl) rfl

theorem aside_hostWrite (q seq key va addr : Nat) (data : Bytes) (s : State) : aside (hostWrite q seq key va addr data s) = aside s :=
  aside_each (fun _ _ => aside_hostWrite1 ..) _ s

theorem aside_countServeHold (d : Dest) (s : State) : aside (countServeHold d s) = aside s := by
  unfold countServeHold
  split
  · exact aside_ite rfl rfl
  · rfl

theorem aside_waitTag (p : Pool) (slot : Nat) (d : Dest) (s : State) : aside (waitTag p slot d s) = aside s := by
  unfold waitTag
  exact aside_ite (aside_countServeHold ..) rfl

theorem aside_writeEnts (r : TReq) (n va : Nat) (acc : List TEnt) (s : State) : aside (writeEnts r n va acc s).2 = aside s := by
  induction n generalizing va acc s with
  | zero => rfl
  | succ n ih =>
    unfold writeEnts
    split
    next done =>
      refine Eq.trans ?_ (aside_done (aside_translate ..) done)
      split
      · rfl
      · exact ih ..
    next done => exact aside_done (aside_translate ..) done

theorem aside_writeAll (q seq : Nat) (w : WLine) (es : List TEnt) (s : State) : aside (writeAll q seq w es s) = aside s := by
  unfold writeAll
  extract_lets ls a b c
  have far : aside b = aside s := aside_each (fun _ _ => aside_farWrite ..) _ a
  have host : aside c = aside b := aside_each (fun _ _ => aside_hostWrite ..) _ b
  exact (aside_each (fun _ _ => aside_updOp ..) _ c).trans (host.trans far)

theorem aside_sendWrite (q seq : Nat) (w : WLine) (b win off : Nat) (s : State) : aside (sendWrite q seq w b win off s) = aside s := by
  unfold sendWrite
  split
  · exact aside_opViolation ..
  · dsimp only
    split
    · exact aside_waitTag ..
    · exact aside_sendPacket ..

theorem aside_opWriteStep (q seq : Nat) (w : WLine) (s : State) : aside (opWriteStep q seq w s) = aside s := by
  unfold opWriteStep
  split
  · rfl
  · split
    · exact aside_sendWrite ..
    · split
      next done => exact (aside_opWriteFail ..).trans (aside_done (aside_writeEnts ..) done)
      next done => exact (aside_updOp ..).trans (aside_done (aside_writeEnts ..) done)
      next done => exact (aside_writeAll ..).trans (aside_done (aside_writeEnts ..) done)

theorem aside_pumpWritesAux (q seq n : Nat) (s : State) : aside (pumpWritesAux q seq n s) = aside s := by
  induction n generalizing s with
  | zero => rfl
  | succ n ih =>
    unfold pumpWritesAux
    split
    · rfl
    · split
      · rfl
      · exact (ih _).trans (aside_opWriteStep ..)

theorem aside_pumpWrites (q seq : Nat) (s : State) : aside (pumpWrites q seq s) = aside s := by
  unfold pumpWrites
  split
  · rfl
  · exact aside_pumpWritesAux ..

/-! ### Completion and delivery -/

theorem aside_sendCredit (q : Nat) (s : State) : aside (sendCredit q s) = aside s := sendCredit_keeps aside (fun _ _ _ => rfl) (fun _ _ _ _ => rfl) q s

theorem aside_cptSend (typ q : Nat) (last : Bool) (seq off : Nat) (body : List Word) (s : State) : aside (cptSend typ q last seq off body s) = aside s :=
  cptSend_keeps aside (fun _ _ _ => rfl) (fun _ _ _ _ => rfl) (fun _ s => aside_updQueue (by intro _; rfl) q s) typ last seq off body s

theorem aside_returnData (q n : Nat) (s : State) : aside (returnData q n s) = aside s := by
  unfold returnData
  exact aside_ite rfl ((aside_sendCredit ..).trans (aside_updQueue (by intro _; rfl) ..))

theorem aside_dropData (q seq : Nat) (s : State) : aside (dropData q seq s) = aside s := by
  unfold dropData
  split
  · exact (aside_returnData ..).trans (aside_updQueue (by intro _; rfl) ..)
  · rfl

theorem aside_completeOp (o : Op) (s : State) : aside (completeOp o s) = aside s := by
  refine (aside_dropData ..).trans ((aside_updQueue (by intro _; rfl) ..).trans ?_)
  split
  · exact aside_cptSend ..
  · rfl

theorem aside_deliver (q n : Nat) (s : State) : aside (deliver q n s) = aside s := by
  induction n generalizing s with
  | zero => rfl
  | succ n ih =>
    unfold deliver
    split
    · rfl
    next o _ =>
      split
      · rfl
      · dsimp only
        have written : aside (if !o.cart.isEmpty then s else if o.cartMem then pumpWrites q o.seq (opWrite q o.seq
            (cartAddr (updOp q o.seq (fun x => { x with cart := cartouche s o true }) s) o) (wordsBytes (cartouche s o true)) WK.record
              (updOp q o.seq (fun x => { x with cart := cartouche s o true }) s))
            else updOp q o.seq (fun x => { x with cart := cartouche s o true }) s) = aside s :=
          aside_ite rfl (aside_ite (aside_pumpWrites ..) rfl)
        refine Eq.trans ?_ written
        split
        · rfl
        · exact aside_ite ((ih _).trans (aside_completeOp ..)) rfl

theorem aside_purgeVersion (slot table version : Nat) (s : State) : aside (purgeVersion slot table version s) = aside s := by
  unfold purgeVersion
  extract_lets mine a
  refine aside_each (fun k s => ?_) _ a
  split
  · rfl
  · rfl

theorem aside_putDesc (slot : Nat) (d : Desc) (s : State) : aside (putDesc slot d s) = aside s := rfl

theorem aside_withdrawInsets (p : NEntry → Bool) (s : State) : aside (withdrawInsets p s) = aside s := rfl

theorem aside_tryRetire (slot table version : Nat) (s : State) : aside (tryRetire slot table version s) = aside s := by
  unfold tryRetire
  split
  · rfl
  · split
    · exact aside_elog ..
    · rfl

theorem aside_releaseVersion (slot table version : Nat) (s : State) : aside (releaseVersion slot table version s) = aside s := by
  unfold releaseVersion
  split
  · rfl
  · refine aside_ite rfl ((aside_tryRetire ..).trans ((aside_each (fun _ _ => aside_sendPacket ..) _ _).trans ?_))
    exact (aside_putDesc ..).trans ((aside_withdrawInsets ..).trans (aside_purgeVersion ..))

theorem aside_deliverAll (s : State) : aside (deliverAll s) = aside s :=
  (aside_each (fun _ _ => aside_ite (aside_each (fun _ _ => aside_releaseVersion ..) _ _) rfl) _ _).trans (aside_each (fun _ _ => aside_deliver ..) _ s)

end Sys2Proof.Machine
end

section
/-! The phases of a meridian (06 R173, R174; 07 R197). -/

namespace Sys2Proof.Machine

variable {s t : State} {slot : Nat} {m : Mer}

/-! ### The journal line of a slot -/

/-- The first word of a line with its CHECK. -/
theorem leAt_withCheck_zero (w : Word) (ws : List Word) : leAt (withCheck (w :: ws)) (8 * 0) 8 = w.toNat := by
  have small : w.toNat < 256 ^ 8 := w.isLt
  have line : withCheck (w :: ws) = [] ++ (leBytes 8 w.toNat ++ (wordsBytes (ws.take 6) ++ leBytes 8 (crc32 (wordsBytes ((w :: ws).take 7))))) := by
    rw [withCheck, show wordsBytes ((w :: ws).take 7) = leBytes 8 w.toNat ++ wordsBytes (ws.take 6) from by simp [wordsBytes]]
    simp
  have cut := slice_append [] (leBytes 8 w.toNat) (wordsBytes (ws.take 6) ++ leBytes 8 (crc32 (wordsBytes ((w :: ws).take 7))))
  rw [length_leBytes] at cut
  rw [leAt, line, Nat.mul_zero]
  exact (congrArg leNat cut).trans ((leNat_leBytes 8 w.toNat).trans (Nat.mod_eq_of_lt small))

/-- A slot's journal line as it was written says the step and whether it is open. -/
theorem journalOf_setJournal (slot : Nat) (j : Journal) (s : State) :
    (journalOf (setJournal slot j s) slot).step = j.step % 2 ^ 48 ∧ (journalOf (setJournal slot j s) slot).isOpen = j.isOpen := by
  have line : mgetD slot [] (setJournal slot j s).journal = jobLine j := by rw [mgetD, setJournal, mfind_mput_self]; rfl
  have first : leAt (jobLine j) (8 * 0) 8 = (fld 0 48 j.step + fld 48 1 (natOfBool j.isOpen) + fld 56 8 j.jobId) % 2 ^ 64 := by
    rw [jobLine, leAt_withCheck_zero, toNat_word]
  have open_ : natOfBool j.isOpen < 2 := by cases j.isOpen <;> decide
  have fields : bits (leAt (jobLine j) (8 * 0) 8) 0 48 = j.step % 2 ^ 48 ∧ bits (leAt (jobLine j) (8 * 0) 8) 48 1 = natOfBool j.isOpen := by
    rw [first]
    simp only [bits, fld, Nat.shiftLeft_eq, Nat.shiftRight_eq_div_pow]
    omega
  rw [journalOf, line]
  refine ⟨fields.1, ?_⟩
  rw [readJobLine]
  dsimp only
  rw [fields.2]
  cases j.isOpen <;> rfl

/-! ### Phases -/

theorem act_meridianStep {c : Instr} {f : State → State} (up : s.up = true) (free : jobHeld s slot = false) (is : exec c s = act s (meridianStep slot f)) :
    exec c s = .next (after s (f s)) := by
  rw [is, act_up _ _ up, meridianStep, free, if_neg Bool.false_ne_true]
  rfl

theorem phase1End_done (running : (job s slot).mer = some m) (phase : m.phase = 1) (done : phaseDone s (job s slot).mark1 (job s slot).recv m.step = true) :
    phase1End slot s = sendMark2 slot m.step (setMstate slot 2 (updJob slot (fun j => { j with
        mark1 := marksLeft ((phaseMarks s (job s slot).mark1 m.step).getD []) m.step j.mark1
        recv := takeCounts (sumNat (((phaseMarks s (job s slot).mark1 m.step).getD []).map (·.count))) j.recv
        mer := some { m with phase := 2 } }) s)) := by
  rw [phase1End, running]
  dsimp only
  rw [phase, done]
  rfl

theorem phase1End_waits (running : (job s slot).mer = some m) (waits : phaseDone s (job s slot).mark1 (job s slot).recv m.step = false) : phase1End slot s = s := by
  rw [phase1End, running]
  dsimp only
  rw [waits, if_pos (by simp)]

/-- The marks of both phases taken from a job's lists, before its rows go to their updaters. -/
def marksTaken (slot : Nat) (m : Mer) (s : State) : State :=
  let m1 := if m.redo then (phaseMarks s (job s slot).mark1 m.step).getD [] else []
  let s' := updJob slot (fun j => { j with mark1 := marksLeft m1 m.step j.mark1, recv := takeCounts (sumNat (m1.map (·.count))) j.recv }) s
  let ms := (phaseMarks s' (job s slot).mark2 m.step).getD []
  updJob slot (fun j => { j with mark2 := marksLeft ms m.step j.mark2, fwdRecv := takeCounts (sumNat (ms.map (·.count))) j.fwdRecv }) s'

theorem meridianBegin_done (running : (job s slot).mer = some m) (phase : m.phase = 2) (redo : m.redo = true → phaseDone s (job s slot).mark1 (job s slot).recv m.step = true)
    (free : exporting s slot m.step = false) (done : phaseDone s (job s slot).mark2 (job s slot).fwdRecv m.step = true) :
    meridianBegin slot s = merStart slot m (openJournal slot m.step (marksTaken slot m s)) := by
  have again : (m.redo && !phaseDone s (job s slot).mark1 (job s slot).recv m.step) = false := by
    by_cases r : m.redo = true
    · simp [redo r]
    · simp [r]
  rw [meridianBegin, running]
  dsimp only
  rw [phase, free, done, again]
  rfl

theorem job_updJob_totals (f : Job → Job) (same : ∀ j, (f j).totals = j.totals) (slot : Nat) (s : State) : (job (updJob slot f s) slot).totals = (job s slot).totals := by
  by_cases known : slot < s.jobs.length
  · rw [job_updJob_self f s known, same]
  · have out : (updJob slot f s).jobs.length ≤ slot := by simpa [updJob] using known
    rw [job, job, List.getD_eq_default _ _ out, List.getD_eq_default _ _ (by omega)]

theorem totals_marksTaken (slot : Nat) (m : Mer) (s : State) : (job (marksTaken slot m s) slot).totals = (job s slot).totals :=
  (job_updJob_totals _ (by intro _; rfl) slot _).trans (job_updJob_totals _ (by intro _; rfl) slot s)

theorem farOps_marksTaken (slot : Nat) (m : Mer) (s : State) : (marksTaken slot m s).far = s.far ∧ (marksTaken slot m s).ops = s.ops := ⟨rfl, rfl⟩

/-! ### Completion -/

/-- The guard of completion: phase 3, its refresh markers out, every row retired, every refresh marker held. -/
theorem mayComplete (phase : m.phase = 3) (sent : m.marksSent = true) (retired : merRows s slot m = false) (refreshed : m.resume = true ∨ refreshedAll s slot m.step = true) :
    (m.phase != 3 || !m.marksSent || merRows s slot m || (!m.resume && !refreshedAll s slot m.step)) = false := by
  rcases refreshed with e | e <;> simp [phase, sent, retired, e]

section
variable (running : (job s slot).mer = some m) (phase : m.phase = 3) (sent : m.marksSent = true) (retired : merRows s slot m = false)
  (refreshed : m.resume = true ∨ refreshedAll s slot m.step = true) (still : s.mig = none)
include running phase sent retired refreshed still

/-- A MERIDIAN that may complete makes its admission pass, and waits with it. -/
theorem meridianComplete_waits (waits : admissionPass slot m.step s = (.wait, t)) : meridianComplete slot s = t := by
  have may := mayComplete phase sent retired refreshed
  have withdrawn : migWithdraw slot m.step s = s := by simp only [migWithdraw, still]
  have open_ : migHoldsMer s slot m.step = false := by simp only [migHoldsMer, still]
  rw [meridianComplete, running]
  dsimp only
  rw [may, if_neg Bool.false_ne_true, withdrawn, open_, if_neg Bool.false_ne_true, waits]

/-- Once the pass is done, the totals are cleared, the MERIDIAN ends and what waited goes on. -/
theorem meridianComplete_done (done : admissionPass slot m.step s = (.done, t)) : meridianComplete slot s =
    (let m' := ((job t slot).mer).getD m
    releaseRecs slot (releaseRows slot (endMerOp slot m'.step (m'.cond ||| closeConds (job t slot) m'.step) (nextMer slot (releaseServes
      (if m'.resume then refreshMarks slot m'.step (closeMeridian slot m' t) else closeMeridian slot m' t)))))) := by
  have may := mayComplete phase sent retired refreshed
  have withdrawn : migWithdraw slot m.step s = s := by simp only [migWithdraw, still]
  have open_ : migHoldsMer s slot m.step = false := by simp only [migHoldsMer, still]
  rw [meridianComplete, running]
  dsimp only
  rw [may, if_neg Bool.false_ne_true, withdrawn, open_, if_neg Bool.false_ne_true, done]

end

/-- The pass leaves the MERIDIAN its step. -/
theorem merStep_admissionPass (running : (job s slot).mer = some m) : (((job (admissionPass slot m.step s).2 slot).mer).getD m).step = m.step := by
  have same := merStep_of_aside (aside_admissionPass slot m.step s) slot
  rw [running] at same
  cases after_ : (job (admissionPass slot m.step s).2 slot).mer with
  | none => rfl
  | some m' =>
    rw [after_] at same
    exact Option.some.inj same

/-- Settles O30. -/
theorem meridianPhasesEndOnMarkersAndCounts : Obligations.MeridianPhasesEndOnMarkersAndCounts := by
  intro s slot m up free running
  refine ⟨fun phase done => ?_, fun phase waits => ?_, fun phase redo idle done => ?_, fun phase sent retired refreshed still => ?_⟩
  · rw [← phase1End_done running phase done]
    exact act_meridianStep up free rfl
  · rw [act_meridianStep (c := .meridianPhase1End slot) up free rfl, phase1End_waits running waits]
  · refine ⟨openJournal slot m.step (marksTaken slot m s), ?_, totals_marksTaken slot m s, (farOps_marksTaken slot m s).1, (farOps_marksTaken slot m s).2, ?_, ?_⟩
    · rw [← meridianBegin_done running phase redo idle done]
      exact act_meridianStep up free rfl
    · exact (journalOf_setJournal slot _ _).2
    · exact (journalOf_setJournal slot _ _).1
  · have run : exec (.meridianComplete slot) s = .next (after s (completeMeridian slot s)) := act_meridianStep up free rfl
    have step_ := merStep_admissionPass running
    intro t m'
    refine ⟨fun waits => ?_, fun done => ?_⟩
    · rw [run, completeMeridian, meridianComplete_waits running phase sent retired refreshed still (Prod.ext waits rfl)]
    · have is : m'.step = m.step := step_
      rw [run, completeMeridian, meridianComplete_done running phase sent retired refreshed still (Prod.ext done rfl)]
      dsimp only
      rw [show (((job (admissionPass slot m.step s).2 slot).mer).getD m) = m' from rfl, is]

end Sys2Proof.Machine
end

section
/-! Aborts, STOP and RESTART (03 R74, R78). -/

namespace Sys2Proof.Machine

variable {s t : State} {q seq : Nat} {o : Op}

/-! ### Actions by register and by message -/

theorem queueAction_register {f : State → State} (isReady : ready s = true) (enabled : (queue s q).state ≠ 0) : queueAction .register q f s = settle (f s) := by
  rw [queueAction]
  rw [if_pos (by simp [isReady, enabled])]

theorem queueAction_refused {f : State → State} (out : ready s = false ∨ (queue s q).state = 0) : queueAction .register q f s = s := by
  rw [queueAction]
  rw [if_neg (by rcases out with e | e <;> simp [e])]

theorem exec_queueAction {c : Instr} {f : State → State} (up : s.up = true) (isReady : ready s = true) (enabled : (queue s q).state ≠ 0)
    (is : exec c s = act s (queueAction .register q f)) : exec c s = .next (after s (f s)) := by
  rw [is, act_up _ _ up, queueAction_register isReady enabled]
  rfl

theorem exec_queueAction_refused {c : Instr} {f : State → State} (up : s.up = true) (out : ready s = false ∨ (queue s q).state = 0)
    (is : exec c s = act s (queueAction .register q f)) : exec c s = .next (outcome s s) := by
  rw [is, act_up _ _ up, queueAction_refused out]

/-! ### An abort -/

theorem abortSeq_staged (staged : (queue s q).staged.any (fun c => c.seq == seq) = true) : abortSeq q seq s = updQueue q (fun x => { x with
    staged := updWhere (fun c => c.seq == seq) (fun c => { c with aborted := true }) x.staged }) s := by
  rw [abortSeq, if_pos staged]

section
variable (unstaged : (queue s q).staged.any (fun c => c.seq == seq) = false)
include unstaged

theorem abortSeq_nothing (none_ : abortTarget s q seq = none) : abortSeq q seq s = s := by
  rw [abortSeq, unstaged, if_neg Bool.false_ne_true, none_]

/-- An abort of an operation acts by its place and its group. -/
theorem abortSeq_target (target : abortTarget s q seq = some o) : abortSeq q seq s =
    if o.place == .issued || (o.place == .running && abortable o) then deliverAll (abortOp o s)
    else if o.place == .running then updOp o.queue o.seq (fun o => { o with abortNoted := true }) s else s := by
  rw [abortSeq, unstaged, if_neg Bool.false_ne_true, target]

end

theorem abortOp_issued (issued_ : o.place = .issued) : abortOp o s = endAtIssue o.queue o.seq (cancelOp o.queue o.seq (opCond o.queue o.seq SC.aborted s)) := by
  rw [abortOp, issued_]
  rfl

theorem abortOp_running (running_ : o.place = .running) : abortOp o s = cancelOp o.queue o.seq (opEnd o.queue o.seq SC.aborted s) := by
  rw [abortOp, running_]
  rfl

theorem aside_abortSeq (q seq : Nat) (s : State) : aside (abortSeq q seq s) = aside s := by
  unfold abortSeq
  split
  · exact aside_updQueue (by intro _; rfl) ..
  · split
    · exact aside_ite ((aside_deliverAll _).trans (aside_abortOp ..)) (aside_ite rfl rfl)
    · rfl

/-! ### RESTART -/

/-- The staged commands of a queue as they end. -/
def endedStaged (s : State) (q : Nat) : List Op :=
  (queue s q).staged.map fun c => { newOp q c with place := .ended, phase := .deliver, cond := maskSet c.cond SC.aborted, endNow := true }

theorem abortStaged_ops (q : Nat) (s : State) : (abortStaged q s).ops = s.ops ++ endedStaged s q := rfl

theorem mem_endedStaged (mem : o ∈ endedStaged s q) : o.queue = q ∧ o.phase = .deliver ∧ maskBit o.cond SC.aborted = true := by
  obtain ⟨c, -, rfl⟩ := List.mem_map.1 mem
  exact ⟨rfl, rfl, maskBit_maskSet_self _ _⟩

/-- The data of the issued operation, which outlives a RESTART of its queue. -/
def issuedData (s : State) (q : Nat) : List (Nat × Stream) := match issued s with
  | some o => if o.queue == q then (queue s q).data.filter (fun x => x.1 == o.seq) else []
  | none => []

theorem mem_issuedData {x : Nat × Stream} : x ∈ issuedData s q ↔ x ∈ (queue s q).data ∧ ∃ o, issued s = some o ∧ o.queue = q ∧ o.seq = x.1 := by
  unfold issuedData
  cases issued s with
  | none => simp
  | some o =>
    dsimp only
    by_cases mine : o.queue = q
    · rw [if_pos (by simpa using mine), List.mem_filter, beq_iff_eq]
      exact and_congr_right fun _ => ⟨fun at_ => ⟨o, rfl, mine, at_.symm⟩, fun ⟨o', same, _, at_⟩ => by rw [Option.some.inj same, at_]⟩
    · rw [if_neg (by simpa using mine)]
      refine iff_of_false List.not_mem_nil ?_
      rintro ⟨-, o', same, mine', -⟩
      exact mine (by rw [Option.some.inj same, mine'])

/-- A queue that runs afresh, with the data that it keeps. -/
def Queue.restarted (keep : List (Nat × Stream)) (x : Queue) : Queue :=
  { x with
    state := 1
    data := keep
    rxNext := 0
    txNext := 0
    early := []
    cmdGrant := x.cmdUsed + 512
    dataGrant := x.dataUsed + 8192
    doomed := []
    renotice := false }

theorem freshStreams_eq (quiet : (queue s q).renotice = false) : freshStreams q s = sendCredit q (updQueue q (Queue.restarted (issuedData s q)) s) := by
  rw [freshStreams, quiet]
  rfl

/-- A queue that runs afresh changes itself, what is sent and its counters. -/
theorem freshStreams_keeps {β : Type} (g : State → β) (ofRset : ∀ off w s, g (rset off w s) = g s)
    (ofSent : ∀ a b c (s : State), g { s with out := a, cptSent := b, cptHeld := c } = g s) (quiet : (queue s q).renotice = false) :
    g (freshStreams q s) = g (updQueue q (Queue.restarted (issuedData s q)) s) := by
  rw [freshStreams_eq quiet]
  exact sendCredit_keeps g ofRset ofSent q _

theorem queue_freshStreams_self (known : q < s.queues.length) (quiet : (queue s q).renotice = false) :
    queue (freshStreams q s) q = (queue s q).restarted (issuedData s q) :=
  (freshStreams_keeps (fun s => queue s q) (fun _ _ _ => rfl) (fun _ _ _ _ => rfl) quiet).trans (queue_updQueue_self q _ s known)

theorem queue_freshStreams_other {j : Nat} (other : j ≠ q) (quiet : (queue s q).renotice = false) : queue (freshStreams q s) j = queue s j :=
  (freshStreams_keeps (fun s => queue s j) (fun _ _ _ => rfl) (fun _ _ _ _ => rfl) quiet).trans (queue_updQueue_other _ s other)

theorem rget_freshStreams_other {off : Nat} (other : ∀ i, off ≠ R.CNT_PMCi i) (quiet : (queue s q).renotice = false) : rget (freshStreams q s) off = rget s off := by
  rw [freshStreams_eq quiet, rget_sendCredit_other other]
  rfl

/-! ### A CTRL message -/

section
variable {w0 w1 : Word} {body : List Word} (next_ : MessageNext s w0 w1 q) (typ : wbits w0 0 4 = MT.ctrl) (len : wbits w0 8 7 = 1)
include next_ typ len

/-- What a CTRL message does: ABORT, then STOP. -/
def ctrlActs (q : Nat) (body : List Word) (s : State) : State :=
  let aborted := if wbit (body.getD 0 0) 2 then abortSeq q (wbits (body.getD 0 0) 16 48) s else s
  if wbit (body.getD 0 0) 0 then stopCmd q aborted else aborted

omit next_ typ len in
theorem early_ctrlActs (none_ : (queue s q).early = []) : (queue (ctrlActs q body s) q).early = [] := by
  have aborted : (queue (if wbit (body.getD 0 0) 2 then abortSeq q (wbits (body.getD 0 0) 16 48) s else s) q).early = [] :=
    (early_of_aside (aside_ite (aside_abortSeq ..) rfl) q).trans none_
  unfold ctrlActs
  dsimp only
  generalize (if wbit (body.getD 0 0) 2 then abortSeq q (wbits (body.getD 0 0) 16 48) s else s) = u at aborted ⊢
  split
  · rw [stopCmd]
    split
    · exact aborted
    next enabled => rw [stopQueue, queue_updQueue_self q _ u (queue_known (by simpa using enabled))]
  · exact aborted

theorem receiveMsg_ctrl : receiveMsg w0 w1 body s = ctrlActs q body (updQueue q (fun x => { x with rxNext := x.rxNext + 1 }) (received w0 s)) := by
  have taken : takeNumbered q w0 w1 body (received w0 s) = takeCtrl q body (updQueue q (fun x => { x with rxNext := x.rxNext + 1 }) (received w0 s)) := by
    simp [takeNumbered, len, typ, MT.cmd, MT.data, MT.ctrl]
  exact next_.receiveMsg_taken (by simp [typ]) taken (early_ctrlActs next_.counted_early)

theorem exec_ctrlMessage {c : Instr} {f : State → State} (is : exec c s = act s (queueAction (.message w0 w1 body) q f)) :
    exec c s = .next (after s (ctrlActs q body (updQueue q (fun x => { x with rxNext := x.rxNext + 1 }) (received w0 s)))) := by
  have crosses : queueAction (.message w0 w1 body) q f s = crossMessage w0 w1 body s := by
    rw [queueAction, ctrlMessage, typ, next_.number, if_pos (by simp)]
  rw [is, act_up _ _ next_.up, crosses, crossMessage_taken next_.mode next_.carries, receiveMsg_ctrl next_ typ len]
  rfl

end

/-- Settles O19. -/
theorem abortStopAndRestartActOnTheirQueue : Obligations.AbortStopAndRestartActOnTheirQueue := by
  refine ⟨fun s q seq up isReady enabled => ?_, fun s q seq up out => ?_, fun s w0 w1 body q seq next_ typ len => ?_, fun s q known => ?_, fun s q known quiet => ?_⟩
  · have abort : exec (.abort .register q seq) s = .next (after s (abortSeq q seq s)) := exec_queueAction up isReady enabled rfl
    have restart : exec (.restart ⟨.register, q⟩) s = .next (after s (restartQueue q s)) := exec_queueAction up isReady enabled rfl
    have enabled' : ((queue s q).state == 0) = false := by simpa using enabled
    refine ⟨fun staged => ?_, fun unstaged => ⟨fun o target => ⟨fun issued_ => ?_, fun running_ may => ?_, fun running_ mayNot => ?_, fun notIssued notRunning => ?_⟩, fun none_ => ?_⟩,
      ?_, fun cores => ?_, fun none_ => ?_⟩
    · rw [abort, abortSeq_staged staged]
    · rw [abort, abortSeq_target unstaged target, if_pos (by simp [issued_]), abortOp_issued issued_]
    · rw [abort, abortSeq_target unstaged target, if_pos (by simp [running_, may]), abortOp_running running_]
    · rw [abort, abortSeq_target unstaged target, if_neg (by simp [running_, mayNot]), if_pos (by simp [running_])]
    · rw [abort, abortSeq_target unstaged target, if_neg (by simp [notIssued, notRunning]), if_neg (by simp [notRunning])]
    · rw [abort, abortSeq_nothing unstaged none_]
    · rw [exec_queueAction (c := .stop .register q) (f := stopCmd q) up isReady enabled rfl, stopCmd, enabled', if_neg Bool.false_ne_true, stopQueue]
    · rw [restart, restartQueue, if_neg (by simp [enabled, cores])]
    · rw [restart, restartQueue, if_pos (by simp [none_])]
  · exact ⟨exec_queueAction_refused up out rfl, exec_queueAction_refused up out rfl, exec_queueAction_refused up out rfl⟩
  · exact ⟨exec_ctrlMessage next_ typ len rfl, exec_ctrlMessage next_ typ len rfl, exec_ctrlMessage next_ typ len rfl⟩
  · have ended : (abortStaged q s).ops.drop s.ops.length = endedStaged s q := by rw [abortStaged_ops, List.drop_left]
    refine ⟨?_, ?_, fun o mem => ?_, ?_⟩
    · exact congrArg Queue.staged (queue_updQueue_self q (fun x => { x with staged := [] }) s known)
    · rw [ended, endedStaged, List.map_map]
      rfl
    · exact mem_endedStaged (ended ▸ mem)
    · rw [abortStaged_ops, List.take_left]
  · intro t
    have self_ : queue t q = (queue s q).restarted (issuedData s q) := queue_freshStreams_self known quiet
    refine ⟨by rw [self_]; rfl, by rw [self_]; rfl, by rw [self_]; rfl, by rw [self_]; rfl, fun x mem => ?_, fun o issued_ mine x mem at_ => ?_, by rw [self_]; rfl, by rw [self_]; rfl,
      by rw [self_]; rfl, by rw [self_]; rfl, fun j other => queue_freshStreams_other other quiet,
      freshStreams_keeps State.ops (fun _ _ _ => rfl) (fun _ _ _ _ => rfl) quiet, fun o other => rget_freshStreams_other other quiet,
      freshStreams_keeps State.far (fun _ _ _ => rfl) (fun _ _ _ _ => rfl) quiet⟩
    · rw [self_] at mem
      exact mem_issuedData.1 mem
    · rw [self_]
      exact mem_issuedData.2 ⟨mem, o, issued_, mine, at_.symm⟩

end Sys2Proof.Machine
end

section
/-! The modules of the compute port, and its partner (12 R320, R321). -/

namespace Sys2Proof.Machine

variable {s t : State} {m : Nat}

/-! ### A module -/

theorem modState_setMod_self (v : Nat) (known : m < s.cptMods.length) : modState (setMod m v s) m = v := by
  simp [modState, setMod, List.getD_eq_getElem?_getD, List.getElem?_set_self known]

theorem modState_setMod_other {k : Nat} (v : Nat) (other : k ≠ m) : modState (setMod m v s) k = modState s k := by
  simp [modState, setMod, List.getD_eq_getElem?_getD, List.getElem?_set_ne (Ne.symm other)]

theorem modUp_eq (trains : modState s m = CM.training ∨ modState s m = CM.again) (released : s.cptPrst = false) : modUp m s = cptFlush (setPstate 1 (setMod m CM.up s)) := by
  rw [modUp, if_pos (by rcases trains with e | e <;> simp [e])]
  dsimp only
  rw [show (setMod m CM.up s).cptPrst = false from released, if_neg Bool.false_ne_true]

/-- With nothing that waits for a module, a flush changes nothing. -/
theorem cptFlush_empty (empty : s.cptHeld = []) : cptFlush s = s := by
  rw [cptFlush]
  split
  · rfl
  · rw [empty, each_nil]
    exact (congrArg (fun l => ({ s with cptHeld := l } : State)) empty).symm

theorem maskList_single : ∀ m < 8, maskList 8 (2 ^ m) = [m] := by decide

/-- A mask of one module acts on that module. -/
theorem retrainMask_single (known : m < 8) (excluded : modState s m = CM.excluded) : retrainMask (2 ^ m) s = setMod m CM.down s := by
  rw [retrainMask, maskList_single m known, each_cons, each_nil, excluded, if_pos (by rfl)]

/-! ### The partner -/

/-- The excluded modules of a partner that is lost return to DOWN. -/
theorem cptLost_cptMods (s : State) : (cptLost s).cptMods = s.cptMods.map fun x => if x == CM.excluded then CM.down else x := by
  unfold cptLost
  extract_lets a b c d
  have stopped : ∀ (q : Nat) (u : State), (if (queue u q).state == 0 then u
      else updQueue q (fun x => { x with resGrant := x.resUsed, renotice := true }) (stopQueue q u)).cptMods = u.cptMods := fun q u => by
    split
    · rfl
    · rfl
  have queues : c.cptMods = b.cptMods := each_keeps State.cptMods stopped (List.range 16) b
  have aborted : d.cptMods = c.cptMods := cptMods_of_aside (aside_each (fun _ _ => aside_abortOp ..) _ c)
  have discarded : b.cptMods = s.cptMods := rfl
  have mods : d.cptMods = s.cptMods := aborted.trans (queues.trans discarded)
  refine (cptMods_of_aside (aside_deliverAll _)).trans ?_
  dsimp only
  rw [mods]

theorem exec_cptPartnerLost (up : s.up = true) (cause : CptLossCause) : exec (.cptPartnerLost cause) s = .next (after s (cptPartnerLost cause s)) := by
  rw [show exec (.cptPartnerLost cause) s = actInput s (fun s => settle (cptPartnerLost cause s)) (cptPinLow cause) from rfl, actInput_up _ _ up]
  rfl

theorem exec_cptPrstRelease (up : s.up = true) : exec .cptPrstRelease s
    = .next (outcome s (if modsUp s != 0 then setPstate 1 { s with cptPrst := false } else { s with cptPrst := false })) := by
  rw [show exec .cptPrstRelease s = actInput s (fun s => if modsUp s != 0 then setPstate 1 { s with cptPrst := false } else { s with cptPrst := false })
    (fun s => { s with cptPrst := false }) from rfl, actInput_up _ _ up]

theorem cptPartnerLost_pin (s : State) : cptPartnerLost .resetPin s = if pstate s == 2 then { s with cptPrst := true } else cptLost { s with cptPrst := true } := rfl

/-- Settles O43. -/
theorem computeModulesAndPartner : Obligations.ComputeModulesAndPartner := by
  intro s m up known eight
  refine ⟨fun down released stage clock => ?_, fun trains released => ⟨?_, fun crossing held => ?_⟩, fun training => ?_, fun again => ?_, fun up_ => ?_, fun serving => ?_, fun lost => ?_,
    cptLost_cptMods s, fun serving none_ => ?_, fun some_ => ?_, fun none_ => ?_, fun isReady excluded => ?_⟩
  · have e : modDetect m s = setMod m CM.training s := by
      rw [modDetect, if_pos (by rw [down, released, clock, decide_eq_true known, decide_eq_true stage]; rfl)]
    rw [← e]
    exact act_up s (modDetect m) up
  · rw [← modUp_eq trains released]
    exact actSettle_up s (fun s => uncross (modUp m s)) up
  · rw [cptFlush_empty (s := setPstate 1 (setMod m CM.up s)) held, uncross_empty (s := setPstate 1 (setMod m CM.up s)) crossing]
  · have e : modExclude m s = setMod m CM.excluded s := by rw [modExclude, training, if_pos (by rfl)]
    rw [← e]
    exact act_up s (modExclude m) up
  · have e : modExclude m s = resendModule m (setBit R.CMD_CPT_LINK 23 (bump1 R.CNT_CPT_MOD_DROP (setMod m CM.excluded s))) := by
      rw [modExclude, again, if_neg (by decide), if_pos (by rfl)]
    rw [← e]
    exact act_up s (modExclude m) up
  · have e : modDown m s = setMod m CM.again s := by rw [modDown, up_, if_pos (by rfl)]
    rw [← e]
    exact act_up s (modDown m) up
  · rw [exec_cptPartnerLost up, cptPartnerLost_pin, if_neg (by simpa using serving)]
  · rw [exec_cptPartnerLost up, cptPartnerLost_pin, if_pos (by simpa using lost)]
  · have e : cptPartnerLost .noModule s = cptLost s := by rw [cptPartnerLost, serving, none_, if_pos (by rfl)]
    rw [exec_cptPartnerLost up, e]
  · rw [exec_cptPrstRelease up, if_pos (by simpa using some_)]
  · rw [exec_cptPrstRelease up, if_neg (by simpa using none_)]
  · refine ⟨outcome s (setMod m CM.down s), ?_, ?_, fun k other => ?_, outcome_regs _ _, outcome_far _ _⟩
    · rw [show exec (.retrainMask (2 ^ m)) s = act s (fun s => if ready s then retrainMask (2 ^ m) s else s) from rfl, act_up _ _ up, isReady, if_pos rfl,
        retrainMask_single known excluded]
    · rw [outcome_keeps (fun s => modState s m) (fun _ _ => rfl), modState_setMod_self _ (by omega)]
    · rw [outcome_keeps (fun s => modState s k) (fun _ _ => rfl), modState_setMod_other _ other]

end Sys2Proof.Machine
end

section
/-! Fences, resets of a cluster or partition, the request epoch, and the checks of configuration and firmware (14 R366 to R375; 15 R405 to R409). -/

namespace Sys2Proof.Machine

variable {s t : State} {core cause : Nat}

/-! ### The request epoch -/

theorem placeEpoch_raiseEpoch (s : State) : placeEpoch (raiseEpoch s) = (placeEpoch s + 1) % 2 ^ 32 := by
  rw [placeEpoch, raiseEpoch]
  rw [fget_fset_same _ _ _ _ (by decide)]
  exact Nat.mod_mod _ _

theorem raiseEpoch_page (s : State) : (raiseEpoch s).page = (recordPlace ((placeEpoch s + 1) % 2 ^ 32) s).page := rfl

/-- A valid page takes the epoch, and keeps its KCV0. -/
theorem raiseEpoch_pageValid (valid : pageValid s = true) :
    pagePlace (raiseEpoch s) = (placeEpoch s + 1) % 2 ^ 32 ∧ pageKcv (raiseEpoch s) = pageKcv s := by
  have page : (raiseEpoch s).page = (writePage (pageFull s) (pageKcv s) ((placeEpoch s + 1) % 2 ^ 32) s).page := by
    rw [raiseEpoch_page, recordPlace, rewritePage_valid _ _ _ valid]
  constructor
  · rw [pagePlace, pageWord, page]
    exact (pagePlace_writePage _ _ _ s).trans (Nat.mod_mod _ _)
  · rw [pageKcv, pageWord, page]
    exact pageKcv_writePage_self _ _ s

/-! ### Fences -/

theorem fenceBy_first (enabled_ : enabled s core = true) (free : inScope s core = false) (none_ : s.fence = none) (empty : s.fenceQ = []) (late : s.stage ≠ 3) :
    fenceBy core cause s = warnCheck (nextFence 1 (beginFence core cause s)) := by
  rw [fenceBy, fenceCause, if_neg (by simpa using late), if_neg (by simp [enabled_, free]), none_]
  dsimp only
  rw [empty]
  rfl

/-- Before the cores are enabled a cause is recorded. -/
theorem fenceBy_early (early : s.stage = 3) (exists_ : s.factory.getD core 0 ≠ 0) (whole : (posOf s core).fenced = false) :
    fenceBy core cause s = warnCheck (recordFence core cause (raiseEpoch s)) := by
  rw [fenceBy, fenceCause, if_pos (by simpa using early), whole, if_neg (by simpa using exists_)]

theorem fenceBy_queued {f : Fence} (enabled_ : enabled s core = true) (free : inScope s core = false) (busy : s.fence = some f) (other : f.core ≠ core)
    (new : s.fenceQ.any (fun x => x.1 == core) = false) (late : s.stage ≠ 3) : fenceBy core cause s = warnCheck { s with fenceQ := s.fenceQ ++ [(core, cause)] } := by
  rw [fenceBy, fenceCause, if_neg (by simpa using late), if_neg (by simp [enabled_, free]), busy]
  dsimp only
  rw [if_neg (by rw [new]; simp [other])]

theorem exec_coreFence (up : s.up = true) (by_ : cause = 1 ∨ cause = 2) (stage : 3 ≤ s.stage) : exec (.coreFence core cause) s = .next (after s (fenceBy core cause s)) := by
  rw [show exec (.coreFence core cause) s = actSettle s (fun s => if cause == 0 && decide (3 ≤ s.stage) then bump1 R.CNT_CORE_CE s
    else if (cause == 1 || cause == 2) && decide (3 ≤ s.stage) then fenceBy core cause s else s) from rfl, actSettle_up _ _ up]
  rw [if_neg (by rcases by_ with e | e <;> simp [e]), if_pos (by rcases by_ with e | e <;> simp [e, stage])]

theorem exec_engineStall (up : s.up = true) (stage : 3 ≤ s.stage) : exec (.engineStall core) s = .next (after s (fenceBy core 3 s)) := by
  rw [show exec (.engineStall core) s = actSettle s (fun s => if 3 ≤ s.stage then fenceBy core 3 s else s) from rfl, actSettle_up _ _ up, if_pos stage]

theorem ready_stage (isReady : ready s = true) : s.stage = 9 := by simpa [ready] using isReady

/-- The spare in test ends the fence, or is fenced itself and the next one is sought; the fences that wait begin. -/
theorem exec_spareSelftestDone (up : s.up = true) {f : Fence} (testing : s.fence = some f) (pass : Bool)
    (ends : (if pass then fenceWith f s else seekSpare f.core f.cause (recordFence f.spare 6 (raiseEpoch s))) = t) :
    exec (.spareSelftestDone f.spare pass) s = .next (after s (warnCheck (nextFence (t.fenceQ.length + 1) t))) := by
  have e : spareTested f.spare pass s = nextFence (t.fenceQ.length + 1) t := by
    rw [spareTested, testing]
    dsimp only
    rw [if_neg (by simp), ends]
  rw [← e]
  exact actSettle_up s (fun s => warnCheck (spareTested f.spare pass s)) up

/-! ### Resets of a cluster or partition -/

/-- The cores that a scope isolates, before its end is counted. -/
def scopeGone (c : Scope) (s : State) : State :=
  setBit R.MG_FENCE_STATUS 1 (each (c.positions.filter fun i => enabled s i && !(posOf s i).isolated) isolateCore
    (raiseEpoch (scopeVolts c { s with scopes := s.scopes ++ [c] })))

theorem resetScope_eq {partition : Bool} {index : Nat} (cause : Nat) (new : s.scopes.contains { partition := partition, index := index } = false)
    (known : index < if partition then 4 else 16) : resetScope partition index cause s =
      (if partition then bump1 R.CNT_PART_RESET (elog 0x03 EU.partition index cause 0 0 (scopeGone { partition := partition, index := index } s))
      else bump1 R.CNT_CLUSTER_RESET (elog 0x02 EU.cluster index cause 0 0 (scopeGone { partition := partition, index := index } s))) := by
  have open_ : (s.scopes.contains { partition := partition, index := index } || (if partition then decide (4 ≤ index) else decide (16 ≤ index))) = false := by
    rw [new, Bool.false_or]
    cases partition with
    | false => exact decide_eq_false (Nat.not_le.mpr known)
    | true => exact decide_eq_false (Nat.not_le.mpr known)
  rw [resetScope]
  dsimp only
  rw [open_, if_neg Bool.false_ne_true]
  rfl

/-- The oldest reset ends with no fence in progress. -/
theorem endScope_free {k : Scope} {r : List Scope} (failed : List Nat) (oldest : s.scopes = k :: r) (none_ : s.fence = none) : endScope failed s =
    (let back : State := { s with scopes := r }
    let mine := k.positions.filter fun x => enabled s x && !inScope back x
    each (mine.filter fun x => failed.contains x) (fun x s => fenceCause x 6 s)
      (each (mine.filter fun x => !failed.contains x) (fun x s => updPos x (fun p => { p with isolated := false }) s) back)) := by
  rw [endScope, oldest]
  simp only [none_, Bool.not_false, Bool.and_true]
  rfl

/-- Settles O49. -/
theorem fencesAndScopeResets : Obligations.FencesAndScopeResets := by
  refine ⟨fun s core up => ⟨fun enabled_ free none_ empty => ⟨fun cause by_ late => ?_, fun late => ?_, fun isReady => ?_⟩, fun early exists_ whole => ⟨fun cause by_ => ?_, ?_⟩,
    fun f cause by_ late enabled_ free busy other new => ?_, fun f testing => ?_, fun stage => ?_, placeEpoch_raiseEpoch s, raiseEpoch_page s, raiseEpoch_pageValid⟩, fun s i up => ?_⟩
  · rw [exec_coreFence up by_ (by omega), fenceBy_first enabled_ free none_ empty (by omega)]
  · rw [exec_engineStall up (by omega), fenceBy_first enabled_ free none_ empty (by omega)]
  · rw [← fenceBy_first enabled_ free none_ empty (by rw [ready_stage isReady]; decide)]
    exact actReady_up s (fenceBy core 5) up isReady
  · rw [exec_coreFence up by_ (by omega), fenceBy_early early exists_ whole]
  · rw [exec_engineStall up (by omega), fenceBy_early early exists_ whole]
  · rw [exec_coreFence up by_ (by omega), fenceBy_queued enabled_ free busy other new (by omega)]
  · exact ⟨exec_spareSelftestDone up testing true (if_pos rfl), exec_spareSelftestDone up testing false (if_neg Bool.false_ne_true)⟩
  · rw [show exec (.coreFence core 0) s = actSettle s (fun s => if (0 == 0) && decide (3 ≤ s.stage) then bump1 R.CNT_CORE_CE s
      else if (0 == 1 || 0 == 2) && decide (3 ≤ s.stage) then fenceBy core 0 s else s) from rfl, actSettle_up _ _ up, if_pos (by simp [stage])]
  · intro c cores gone
    refine ⟨fun known new isReady => ?_, fun known new => ?_, fun known new isReady => ?_, fun k r failed oldest none_ => ?_⟩
    · rw [show exec (.clusterReset i false) s = actSettle s (fun s => if ready s then resetScope false i 1 s else s) from rfl, actSettle_up _ _ up, isReady, if_pos rfl,
        resetScope_eq 1 new known]
      rfl
    · rw [show exec (.clusterReset i true) s = actSettle s (resetScope false i 2) from rfl, actSettle_up _ _ up, resetScope_eq 2 new known]
      rfl
    · rw [show exec (.partitionReset i) s = actReady s (resetScope true i 1) from rfl, actReady_up _ _ up isReady, resetScope_eq 1 new known]
      rfl
    · intro back mine
      rw [show exec (.resetScopeEnd failed) s = actSettle s (scopeEnded failed) from rfl, actSettle_up _ _ up, scopeEnded, endScope_free failed oldest none_]

/-! ### CHECK, APPLY and DISCARD -/

theorem mgmtOpen_of (stage : 2 ≤ s.stage) : mgmtOpen s = true := decide_eq_true stage

/-- The waiting apply may be made or fail: nothing runs, no fence or reset is in progress, and the block is not entering DEEP. -/
theorem applyCommit_due (awake : s.pmode = 0) (waiting : pendingApply s = true) (idle : running s = none) (free : fenceBusy s = false) :
    (firstFail s = none → applyCommit s = makeApply s) ∧ ∀ x, firstFail s = some x → applyCommit s = afterApply (cfgFailed x s) := by
  have due : (!pendingApply s || (running s).isSome || fenceBusy s || s.pmode == 3 || s.pmode == 5) = false := by simp [awake, waiting, idle, free]
  refine ⟨fun pass => ?_, fun x fails => ?_⟩
  · rw [applyCommit, due, if_neg Bool.false_ne_true, pass]
  · rw [applyCommit, due, if_neg Bool.false_ne_true, fails]

theorem applyCommit_busy (busy : running s ≠ none ∨ fenceBusy s = true) : applyCommit s = s := by
  have waits : (!pendingApply s || (running s).isSome || fenceBusy s || s.pmode == 3 || s.pmode == 5) = true := by
    rcases busy with e | e
    · simp [Option.isSome_iff_ne_none.2 e]
    · simp [e]
  rw [applyCommit, waits, if_pos rfl]

theorem cfgCheck_checks (idle : pendingApply s = false) :
    (firstFail s = none → cfgCheck s = cfgResult 1 s) ∧ ∀ x, firstFail s = some x → cfgCheck s = cfgFailed x s := by
  refine ⟨fun pass => ?_, fun x fails => ?_⟩
  · rw [cfgCheck, idle, if_neg Bool.false_ne_true, pass]
  · rw [cfgCheck, idle, if_neg Bool.false_ne_true, fails]

/-- Settles O52. -/
theorem configurationAndFirmwareAreChecked : Obligations.ConfigurationAndFirmwareAreChecked := by
  refine ⟨fun s up stage awake => ?_, fun s up stage => ?_⟩
  · have check : exec .check s = .next (outcome s (cfgCheck s)) := by
      rw [show exec .check s = act s (fun s => if mgmtOpen s then cfgCheck s else s) from rfl, act_up _ _ up, mgmtOpen_of stage, if_pos rfl]
    have apply_ : exec .apply s = .next (outcome s (cfgApply s)) := by
      rw [show exec .apply s = act s (fun s => if mgmtOpen s then cfgApply (wake s) else s) from rfl, act_up _ _ up, mgmtOpen_of stage, if_pos rfl, wake_running awake]
    have commit : exec .applyCommit s = .next (after s (applyCommit s)) := actSettle_up s applyCommit up
    have discard : exec .discard s = .next (after s (cfgDiscard s)) := by
      rw [show exec .discard s = act s (fun s => if mgmtOpen s then settle (cfgDiscard s) else s) from rfl, act_up _ _ up, mgmtOpen_of stage, if_pos rfl]
      rfl
    refine ⟨fun idle pass => ?_, fun x idle fails => ?_, fun idle isReady => ?_, fun idle early => ?_, fun waiting idle free pass fits => ?_, fun waiting idle free pass lower busy => ?_,
      fun busy => ?_, fun x waiting idle free fails => ?_, fun idle => ?_, fun waiting => ?_⟩
    · rw [check, (cfgCheck_checks idle).1 pass]
    · rw [check, (cfgCheck_checks idle).2 x fails]
    · rw [apply_, cfgApply, idle, if_neg Bool.false_ne_true, isReady, if_pos rfl]
    · rw [apply_, cfgApply, idle, if_neg Bool.false_ne_true, early, if_neg Bool.false_ne_true]
    · have open_ : ¬ (decide (farLimit (commitStaged s) < farLimit s) && farBusy s (farLimit (commitStaged s)) (farLimit s)) = true := by
        rcases fits with e | e
        · simp [Nat.not_lt.mpr e]
        · simp [e]
      rw [commit, (applyCommit_due awake waiting idle free).1 pass, makeApply]
      rw [if_neg open_]
    · rw [commit, (applyCommit_due awake waiting idle free).1 pass, makeApply]
      rw [if_pos (by simp [lower, busy])]
    · rw [commit, applyCommit_busy busy]
    · rw [commit, (applyCommit_due awake waiting idle free).2 x fails]
    · have none_ : pendingApply { s with staged := [] } = false := idle
      rw [discard, cfgDiscard]
      rw [none_, if_neg Bool.false_ne_true]
    · have some_ : pendingApply { s with staged := [] } = true := waiting
      rw [discard, cfgDiscard]
      rw [some_, if_pos rfl]
  · have update : exec .update s = .next (outcome s (fwUpdate s)) := act_up s fwUpdate up
    have done_ : exec .fwUpdateDone s = .next (outcome s (fwDone s)) := act_up s fwDone up
    refine ⟨fun early => ?_, fun idle isReady job_ => ?_, fun busy => ?_, fun idle isReady none_ bad => ?_, fun idle isReady none_ good => ?_, fun busy => ?_⟩
    · rw [update, fwUpdate, if_pos (by simp [early])]
    · rw [update, fwUpdate, if_neg (by simp [idle, isReady]), job_, if_pos rfl]
    · rw [update, fwUpdate, if_pos (by simp [busy])]
    · rw [update, fwUpdate, if_neg (by simp [idle, isReady]), none_, if_neg Bool.false_ne_true, bad, if_pos (by rfl)]
    · rw [update, fwUpdate, if_neg (by simp [idle, isReady]), none_, if_neg Bool.false_ne_true, good, if_neg (by simp)]
    · rw [done_, fwDone, busy, if_neg (by simp)]
      simp only [Bool.not_eq_true']

end Sys2Proof.Machine
end

section
/-! Register accesses, instruments, snapshots and the debug view (00 R9; 15 R399, R410; 17 R436, R441 to R448). -/

namespace Sys2Proof.Machine

variable {s t : State} {off width : Nat} {src : Source}

/-! ### Register accesses -/

theorem wakeSource_quiet (quiet : s.pmode = 0 ∨ src = .controller) : wakeSource src s = s := by
  rw [wakeSource]
  rcases quiet with e | e
  · rw [wake_running e, ite_self]
  · rw [e, if_pos (by rfl)]

theorem wakeSource_nap (nap : s.pmode = 1) (other : src ≠ .controller) : wakeSource src s = leaveNap s := by
  rw [wakeSource, if_neg (by simpa using other), wake_nap nap]

theorem accessOk_whole (aligned : off % 8 = 0) : accessOk off 8 = true := by simp [accessOk, aligned]

theorem regRead_whole (aligned : off % 8 = 0) : regRead src off 8 s = emit (.regValue (readReg s off)) (dropLatch src s) := by
  rw [regRead, accessRead_whole src s aligned]

theorem regRead_bad (bad : accessOk off width = false) : regRead src off width s = emit (.regValue 0) (badAccess src off (dropLatch src s)) := by
  rw [regRead, accessRead_refused src s bad]

theorem regWrite_bad (bad : accessOk off width = false) (v : Word) : regWrite src off width v s = badAccess src off (dropLatch src s) := by
  rw [regWrite, accessWrite_eq, bad]
  rfl

/-- A write of the whole of a register that does not act. -/
theorem regWrite_whole (aligned : off % 8 = 0) (plain : regActs off s = false) (v : Word) :
    regWrite src off 8 v s = writeReg off (2 ^ 64 - 1) v.toNat (dropLatch src s) := by
  have place : off / 8 * 8 = off := by omega
  rw [regWrite, accessWrite_eq, accessOk_whole aligned, place, plain, aligned, Nat.mul_zero, Nat.pow_zero, Nat.mul_one]
  rfl

theorem writeReg_plain {r : RegRow} {mask data : Nat} (row : findRow off = some r) (taken : writable s off r = true) (plain : writeAction off r mask data s = none) :
    writeReg off mask data s = writeFields off r mask data s := by
  rw [writeReg, row]
  dsimp only
  rw [taken, if_neg (by simp), plain]

theorem writeReg_absent (absent : findRow off = none) (mask data : Nat) (s : State) : writeReg off mask data s = s := by rw [writeReg, absent]

theorem readReg_absent (absent : findRow off = none) (s : State) : readReg s off = 0 := by rw [readReg, absent]

theorem exec_registerRead (up : s.up = true) (stage : 2 ≤ s.stage) (src : Source) (off width : Nat) :
    exec (.registerRead src off width) s = .next (outcome s (regRead src off width (wakeSource src s))) := by
  rw [show exec (.registerRead src off width) s = act s (fun s => if mgmtOpen s then regRead src off width (wakeSource src s) else s) from rfl, act_up _ _ up,
    mgmtOpen_of stage, if_pos rfl]

theorem exec_regAccessWrite (up : s.up = true) (stage : 2 ≤ s.stage) (src : Source) (off width : Nat) (v : Word) :
    exec (.regAccessWrite src off width v) s = .next (outcome s (regWrite src off width v (wakeSource src s))) := by
  rw [show exec (.regAccessWrite src off width v) s = act s (fun s => if mgmtOpen s then regWrite src off width v (wakeSource src s) else s) from rfl, act_up _ _ up,
    mgmtOpen_of stage, if_pos rfl]

theorem regActs_absent (absent : findRow off = none) (s : State) : regActs off s = false := by rw [regActs, absent]

/-- Settles O55. -/
theorem registerAccessesReadAndWrite : Obligations.RegisterAccessesReadAndWrite := by
  intro s off width v src up stage u
  refine ⟨wakeSource_quiet, wakeSource_nap, fun whole aligned => ?_, fun bad => ?_, fun bad => ?_, fun r whole aligned row taken plain acts => ?_,
    fun whole aligned absent => ⟨?_, ?_⟩⟩
  · rw [exec_registerRead up stage, whole, regRead_whole aligned]
  · rw [exec_registerRead up stage, regRead_bad bad]
  · rw [exec_regAccessWrite up stage, regWrite_bad bad]
  · rw [exec_regAccessWrite up stage, whole, regWrite_whole aligned plain, writeReg_plain row taken acts]
  · rw [exec_registerRead up stage, whole, regRead_whole aligned, readReg_absent absent]
  · rw [exec_regAccessWrite up stage, whole, regWrite_whole aligned (regActs_absent absent _), writeReg_absent absent]

/-! ### Instruments -/

/-- The TAP's own state is no part of an instrument's condition. -/
theorem instrumentActs_afterAccess (s : State) (i : Instrument) (p : PortName) (pos : Nat) : instrumentActs (afterAccess s) i p pos = instrumentActs s i p pos := by
  cases i with
  | tempRead | paceRead | repairRead | surveyRead | eyeScan | prbs | loopback | memBist | scan => rfl

/-- Nor of what it reads. -/
theorem instrumentData_afterAccess (s : State) (i : Instrument) : instrumentData (afterAccess s) i = instrumentData s i := by
  cases i with
  | tempRead | paceRead | repairRead | surveyRead | eyeScan | prbs | loopback | memBist | scan => rfl

section
variable {i : Instrument} {p : PortName} {pos : Nat}

theorem instrument_acts (acts : instrumentActs s i p pos = true) (l : Bool) : instrument i p pos l s =
    if l && onLanes i then leaveInRetrain p (emit (.instrument i p pos (instrumentData s i)) (afterAccess s))
    else emit (.instrument i p pos (instrumentData s i)) (afterAccess s) := by
  rw [instrument]
  dsimp only
  rw [instrumentActs_afterAccess, acts, if_pos rfl, instrumentData_afterAccess]

theorem instrument_idle (idle : instrumentActs s i p pos = false) (l : Bool) : instrument i p pos l s = emit (.regValue 0) (afterAccess s) := by
  rw [instrument]
  dsimp only
  rw [instrumentActs_afterAccess, idle, if_neg Bool.false_ne_true]

theorem instrumentIdle_powered (powered : tapPowered s = true) : instrumentIdle i p pos s =
    if instrumentActs s i p pos then emit (.instrument i p pos (instrumentData s i)) (afterAccess s) else emit (.regValue 0) (afterAccess s) := by
  rw [instrumentIdle, powered, if_neg (by simp)]
  dsimp only
  rw [instrumentActs_afterAccess, instrumentData_afterAccess]

end

/-- Settles O58. -/
theorem instrumentsActUnderTheirCondition : Obligations.InstrumentsActUnderTheirCondition := by
  refine ⟨fun s i p pos up => ?_, fun s i p pos l down => ?_, fun _ _ => rfl, fun s => by simp [tdoDriven]⟩
  · have run : ∀ l, exec (.instrumentAccess i p pos l) s = .next (outcome s (instrument i p pos l s)) := fun l => actInput_up (instrument i p pos l) (instrumentIdle i p pos) up
    refine ⟨rfl, fun acts => ?_, fun l idle => ?_, fun acts lanes => ?_, fun reads l => ?_⟩
    · rw [run, instrument_acts acts]
      rfl
    · rw [run, instrument_idle idle]
    · rw [run, instrument_acts acts, lanes]
      rfl
    · have acts : instrumentActs s i p pos = true := by rcases reads with e | e | e | e <;> rw [e] <;> rfl
      have noLanes : onLanes i = false := by rcases reads with e | e | e | e <;> rw [e] <;> rfl
      rw [run, instrument_acts acts, noLanes, Bool.and_false]
      rfl
  · have run : exec (.instrumentAccess i p pos l) s = .next { instrumentIdle i p pos s with pending := s.pending } := actInput_down (instrument i p pos l) (instrumentIdle i p pos) down
    refine ⟨fun off_ => ?_, fun on acts => ?_, fun on idle => ?_⟩
    · rw [run, instrumentIdle, off_]
      rfl
    · rw [run, instrumentIdle_powered on, acts]
      rfl
    · rw [run, instrumentIdle_powered on, idle]
      rfl

/-! ### Snapshots (17 R441) -/

theorem mfind_foldl_mput_other {α : Type} {k : Nat} : ∀ (l : List (Nat × α)) (m : List (Nat × α)), (∀ x ∈ l, x.1 ≠ k) →
    mfind k (l.foldl (fun m x => mput x.1 x.2 m) m) = mfind k m
  | [], _, _ => rfl
  | x :: l, m, others => by
    rw [List.foldl_cons, mfind_foldl_mput_other l _ fun y hy => others y (List.mem_cons_of_mem _ hy), mfind_mput_other _ (others x List.mem_cons_self).symm]

/-- What a snapshot copies: every counter, and the terms outstanding in their places. -/
def snapCopy (s : State) : List (Nat × Word) :=
  (outstanding.map fun x => (x.1, word (plainRead s x.1))).foldl (fun m x => mput x.1 x.2 m) (s.regs.filter fun x => isCounter x.1)

theorem takeSnap_idle (idle : s.snapBusy = false) : takeSnap s = { rset R.CNT_SNAP_TIME (word s.aon) s with snapBusy := true, snap := snapCopy s } := by
  rw [takeSnap, idle]
  rfl

theorem mfind_snapCopy_counter (other : outstanding.all (fun x => x.1 != off) = true) : mfind off (snapCopy s) = mfind off (s.regs.filter fun x => isCounter x.1) := by
  refine mfind_foldl_mput_other _ _ fun x hx => ?_
  obtain ⟨y, hy, rfl⟩ := List.mem_map.1 hx
  simpa using List.all_eq_true.1 other y hy

theorem mfind_snapCopy_outstanding {x : Nat × Nat} (mem : x ∈ outstanding) : mfind x.1 (snapCopy s) = some (word (plainRead s x.1)) := by
  rw [snapCopy]
  generalize s.regs.filter (fun x => isCounter x.1) = m
  simp only [outstanding, List.mem_cons, List.not_mem_nil, or_false] at mem
  simp only [outstanding, List.map_cons, List.map_nil, List.foldl_cons, List.foldl_nil]
  rcases mem with rfl | rfl | rfl
  · rw [mfind_mput_other _ (by decide), mfind_mput_other _ (by decide), mfind_mput_self]
  · rw [mfind_mput_other _ (by decide), mfind_mput_self]
  · rw [mfind_mput_self]

/-! ### The debug view (17 R445 to R448) -/

/-- A register that a list of them clears. -/
theorem rget_each_clear {o : Nat} : ∀ (l : List Nat) (s : State), o ∈ l ∨ rget s o = 0 → rget (each l (fun o s => rset o 0 s) s) o = 0
  | [], _, zero => by simpa using zero
  | x :: l, s, zero => by
    rw [each_cons]
    refine rget_each_clear l _ ?_
    by_cases same : o = x
    · exact .inr (by rw [same, rget_rset_self])
    · rw [rget_rset_other _ _ same]
      exact zero.imp_left fun mem => (List.mem_cons.1 mem).resolve_left same

/-- The capture and the read that wait are no part of a register. -/
theorem rget_debugIdle (o : Nat) (s : State) : rget { s with capBusy := false, nmDue := none } o = rget s o := rfl

/-- Leaving debug mode clears the captured registers. -/
theorem rget_leaveDebug {o : Nat} (mem : o ∈ debugRegs) : rget (leaveDebug s) o = 0 := by
  have other : ∀ x ∈ debugRegs, x ≠ R.DBG_CTRL := by decide
  rw [leaveDebug, rget_debugIdle, rget_fset_other _ _ _ (other o mem), rget_each_clear debugRegs s (.inl mem)]

theorem debugOn_leaveDebug (s : State) : debugOn (leaveDebug s) = false := by
  rw [debugOn, fbit, leaveDebug, fget_of_rget_eq (rget_debugIdle _ _), fget_fset_same _ _ _ _ (by decide)]
  rfl

theorem capture_ignored (ignored : debugOn s = false ∨ s.capBusy = true) : capture s = s := by
  rw [capture, if_pos (by rcases ignored with e | e <;> simp [e])]

section
variable (on : debugOn s = true) (idle : s.capBusy = false)
include on idle

theorem capture_starts (good : captureBad s = false) : capture s = { unavailable false s with capBusy := true, capSel := rget s R.DBG_SEL } := by
  rw [capture, on, idle, good]
  rfl

theorem capture_unavailable (bad : captureBad s = true) : capture s = unavailable true s := by
  rw [capture, on, idle, bad]
  rfl

end

theorem captureCopy_bad (bad : badSel s.capSel s = true) : captureCopy s = unavailable true s := by
  rw [captureCopy, if_pos bad]

/-- Choosing the accumulator leaves the selection. -/
theorem captured_capSel (w : Word) (s : State) : (captured w s).2.capSel = s.capSel := by
  unfold captured
  dsimp only
  split
  · split
    · rfl
    · rfl
  · rfl

theorem captureCopy_good {c : Option Captured} (good : badSel s.capSel s = false) (held : captured s.capSel s = (c, t)) :
    captureCopy s = setCaptured (capWords (wfield s.capSel F.DBG_SEL_KIND) c) t := by
  have same := captured_capSel s.capSel s
  rw [held] at same
  rw [captureCopy, good, if_neg Bool.false_ne_true, held, ← same]

theorem nmRead_off (off_ : debugOn s = false) : nmRead s = s := by rw [nmRead, off_]; rfl

theorem nmRead_on (on : debugOn s = true) : nmRead s = nmReadAt (rget s R.DBG_NM_SEL) s := by rw [nmRead, on]; rfl

theorem nmReadAt_absent {w : Word} (absent : enabled s (wfield w F.DBG_NM_SEL_CORE) = false ∨ (posOf s (wfield w F.DBG_NM_SEL_CORE)).isolated = true) :
    nmReadAt w s = unavailable true s := by
  rw [nmReadAt]
  dsimp only
  rw [if_pos (by rcases absent with e | e <;> simp [e])]

theorem nmReadAt_line {w : Word} (inService : enabled s (wfield w F.DBG_NM_SEL_CORE) = true) (whole : (posOf s (wfield w F.DBG_NM_SEL_CORE)).isolated = false) :
    nmReadAt w s = (let c := storedLine (wfield w F.DBG_NM_SEL_CORE) (wfield w F.DBG_NM_SEL_SET) (wfield w F.DBG_NM_SEL_LINE) (unavailable false s)
      rset R.DBG_NM_PAR (word (lineParity c.1)) (each (List.range 8) (fun i s => rset (R.DBG_NM_DATAi i) (word (leAt c.1 (8 * i) 8)) s) c.2)) := by
  rw [nmReadAt]
  dsimp only
  rw [if_neg (by simp [inService, whole])]

/-! ### Writes that the block takes once it is ready (15 R399) -/

theorem exec_whenReady {c : Instr} {f : State → State} (up : s.up = true) (is : exec c s = act s (fun s => if ready s then f s else s)) :
    (ready s = true → exec c s = .next (outcome s (f s))) ∧ (ready s = false → exec c s = .next (outcome s s)) := by
  rw [is, act_up _ _ up]
  exact ⟨fun isReady => by rw [isReady, if_pos rfl], fun early => by rw [early, if_neg Bool.false_ne_true]⟩

theorem outcome_snap (s t : State) : (outcome s t).snap = t.snap := outcome_keeps State.snap fun _ _ => rfl

theorem outcome_snapBusy (s t : State) : (outcome s t).snapBusy = t.snapBusy := outcome_keeps State.snapBusy fun _ _ => rfl

/-- Settles O54. -/
theorem snapshotsCountersAndDebugView : Obligations.SnapshotsCountersAndDebugView := by
  intro s up
  have snap := exec_whenReady (c := .snap) (f := takeSnap) up rfl
  have pmsel := fun i w => exec_whenReady (c := .cntPmselWrite i w) (f := writePmsel i w) up rfl
  have flags := fun w => exec_whenReady (c := .cntFlagSumWrite w) (f := clearFlags w.toNat) up rfl
  have debug := fun on => exec_whenReady (c := .debugEn on) (f := debugEn on) up rfl
  have capture_ := exec_whenReady (c := .capture) (f := capture) up rfl
  have read := exec_whenReady (c := .nmRead) (f := nmRead) up rfl
  have done_ : exec .captureDone s = .next (outcome s (captureDone s)) := act_up s captureDone up
  refine ⟨fun isReady idle => ?_, fun isReady busy => ?_, act_up s endSnap up, fun i w isReady small => ?_, fun w isReady => ?_, fun isReady unlocked => ?_, fun isReady locked => ?_,
    fun isReady on => ?_, fun isReady off_ => ⟨?_, ?_, ?_⟩, ⟨debugOn_leaveDebug s, fun o mem => rget_leaveDebug mem⟩, fun isReady busy => ?_, fun isReady on idle good => ⟨?_, ?_⟩,
    fun isReady on idle bad => ?_, fun idle => ?_, fun busy => ?_, fun none_ => ?_, fun w due => ?_, captureCopy_bad, fun c u good held => ⟨fun kind => ?_, fun kind => ?_⟩,
    fun u good held => ?_, fun isReady on inService whole => ?_, fun isReady on absent => ?_, fun early i w on => ⟨snap.2 early, (pmsel i w).2 early, (flags w).2 early, (debug on).2 early,
      capture_.2 early, read.2 early⟩⟩
  · refine ⟨_, snap.1 isReady, ?_⟩
    dsimp only
    rw [takeSnap_idle idle, outcome_snapBusy, rget_outcome, outcome_snap, outcome_far, outcome_ops]
    exact ⟨rfl, rget_rset_self _ _ s, fun off _ other => mfind_snapCopy_counter other, fun x mem => mfind_snapCopy_outstanding mem, rfl, rfl⟩
  · rw [snap.1 isReady, takeSnap, busy, if_pos rfl]
  · rw [(pmsel i w).1 isReady, writePmsel, if_pos small]
  · exact ⟨_, (flags w).1 isReady, outcome_regs _ _, outcome_far _ _, outcome_ops _ _⟩
  · rw [(debug true).1 isReady, debugEn, if_pos rfl, unlocked, if_pos rfl]
  · rw [(debug true).1 isReady, debugEn, if_pos rfl, locked, if_neg Bool.false_ne_true]
  · rw [(debug false).1 isReady, debugEn, if_neg Bool.false_ne_true, on, if_pos rfl]
  · rw [(debug false).1 isReady, debugEn, if_neg Bool.false_ne_true, off_, if_neg Bool.false_ne_true]
  · rw [capture_.1 isReady, capture_ignored (.inl off_)]
  · rw [read.1 isReady, nmRead_off off_]
  · rw [capture_.1 isReady, capture_ignored (.inr busy)]
  · rw [capture_.1 isReady, capture_starts on idle good]
  · rw [captureAndRead, capture_starts on idle good, on]
    rfl
  · rw [capture_.1 isReady, capture_unavailable on idle bad]
  · rw [done_, captureDone, idle, if_pos (by rfl)]
  · rw [done_, captureDone, busy, if_neg (by simp)]
  · rw [readDue, none_]
  · rw [readDue, due]
  · rw [captureCopy_good good held, kind]
    rfl
  · have other : (wfield s.capSel F.DBG_SEL_KIND == 0) = false := by simpa using kind
    rw [captureCopy_good good held, capWords, other]
    rfl
  · rw [captureCopy_good good held]
    rfl
  · rw [read.1 isReady, nmRead_on on, nmReadAt_line inService whole]
    rfl
  · rw [read.1 isReady, nmRead_on on, nmReadAt_absent absent]

end Sys2Proof.Machine
end
